-- ==== Sys2Proof/Word.lean ====
section
/-!
DEFINITION. The plain words of the JA64 model: bytes, byte strings, sparse tables and wrapped counts. Bit fields of
registers stay bit vectors; numbers that the manual counts, indexes or compares are natural numbers.
-/
namespace Sys2Proof

/-- One byte (R5). -/
abbrev Byte := BitVec 8

/-- A byte string, byte 0 first (R5). -/
abbrev Bytes := List Byte

/-- A network port number NP0 to NP63 (R16). -/
abbrev NPort := Fin 64

/-- A host port number HP0 to HP3 (R16). -/
abbrev HPort := Fin 4

/-- A function number of a host port: 0 the physical function, 1 to 63 virtual functions (Table 3.5). -/
abbrev FnNo := Fin 64

/-- A sparse table: pairs of an index and the entry held there. -/
abbrev Table (α : Type) := List (Nat × α)

/-- Lane k of a port, 0 or 1 (R315). -/
abbrev LaneNo := Fin 2

end Sys2Proof
end

