-- ==== Sys2Proof/Types.lean ====
section
/-!
DEFINITION. The data that commands carry and the state holds alike: device and context states, requesters, the packet
of Table 6.1 with its header flit, and what the device puts on its wires.
-/
namespace Sys2Proof

/-- Device states (Table 3.9). -/
inductive DevState where
  | wiping | boot | discovery | ready | degraded | updateStaging | quiesced | fault
  deriving DecidableEq, Repr

/-- The code of a device state (Table 3.9). -/
def DevState.code : DevState → Nat
  | .wiping => 1 | .boot => 2 | .discovery => 3 | .ready => 4 | .degraded => 5 | .updateStaging => 6
  | .quiesced => 7 | .fault => 8

/-- Context states other than FREE: a context that is FREE has no entry (Table 3.11). -/
inductive CtxSt where
  | created | active | stalled | aborting | drainedPending | drained
  deriving DecidableEq, Repr

/-- The code of a context state (Table 3.11). -/
def CtxSt.code : CtxSt → Nat
  | .created => 1 | .active => 2 | .stalled => 3 | .aborting => 4 | .drainedPending => 5 | .drained => 6

/-- Lifecycle states (Table 3.14). -/
inductive Lifecycle where
  | blank | provisioned | field | fieldDebug | retired
  deriving DecidableEq, Repr

/-- The code of a lifecycle state (Table 3.14). -/
def Lifecycle.code : Lifecycle → Nat
  | .blank => 0 | .provisioned => 1 | .field => 2 | .fieldDebug => 3 | .retired => 4

/-- Time-sync states (Table 2.1). -/
inductive SyncSt where
  | freeRun | acquire | track | holdover
  deriving DecidableEq, Repr

/-- The code of a time-sync state (Table 2.7). -/
def SyncSt.code : SyncSt → Nat
  | .freeRun => 0 | .acquire => 1 | .track => 2 | .holdover => 3

/-- Who sends a mailbox command: a function of a host port, or an MCTP endpoint through Tarn (R47, R365). -/
inductive Requester where
  | fn (hp fn : Nat)
  | mctp (eid : Nat)
  deriving DecidableEq, Repr

/-- How a Korfel message came over MCTP (R363, R364, Table 15.2): on which bus (0 I3C, 1 SMBus, 2 PCIe), to which endpoint ID, and its IANA
    number and KIND. -/
structure MctpVia where
  bus : Nat
  dst : Nat
  iana : Nat
  kind : Nat
  deriving DecidableEq, Repr

/-- A mailbox request (Table 3.6): who sent it, its header fields but the opcode, and its payload, whose size is LENGTH.
    `mem` is what the device finds outside its registers as it serves the request: a host memory area handed over (the region table of R102),
    or what a pattern checker has counted (R318: 0, 1 and 2 for the errors of the lanes and the unit intervals). `via` is how it came over
    MCTP; none stands for a message addressed as Table 15.2 has it, over the bus the endpoint was last heard on. -/
structure MbxReq where
  who : Requester
  flags : Nat
  tag : Nat
  token : Nat
  payload : Bytes
  mem : List (Nat × Nat)
  via : Option MctpVia := none
  deriving DecidableEq, Repr

/-- A packet: the fields of its header flit (Table 6.1) and its payload with the payload CRC it carries. The word of bytes
    56 to 59 is held whole, since atomics and collectives lay it out their own way (R130, R204). Reserved header bits are
    part of the field that holds them, so a router forwards them unchanged (R7, R127). -/
structure Packet where
  lseq : Nat
  vc : Nat
  len : Nat
  kind : Nat
  trace : Bool
  retx : Bool
  dfeid : Nat
  dcoord : Nat
  rmode : Nat
  hops : Nat
  ghops : Nat
  igroup : Nat
  age : Nat
  sfeid : Nat
  tid : Nat
  osn : Nat
  op : Nat
  pidx : Nat
  pcnt : Nat
  tinc : Nat
  dctx : Nat
  sctx : Nat
  rkey : Nat
  offset : Nat
  operand : Nat
  msglen : Nat
  imm : Nat
  w56 : Nat
  payload : Bytes
  pcrc : Nat
  deriving DecidableEq, Repr

/-- A packet with every field zero. -/
def Packet.zero : Packet :=
  { lseq := 0, vc := 0, len := 1, kind := 0, trace := false, retx := false, dfeid := 0, dcoord := 0, rmode := 0,
    hops := 0, ghops := 0, igroup := 0, age := 0, sfeid := 0, tid := 0, osn := 0, op := 0, pidx := 0, pcnt := 0,
    tinc := 0, dctx := 0, sctx := 0, rkey := 0, offset := 0, operand := 0, msglen := 0, imm := 0, w56 := 0,
    payload := [], pcrc := 0 }

/-- A class of traffic (Table 10.9). -/
inductive PClass where
  | request | response | collective | mgmt
  deriving DecidableEq, Repr

/-- The ripple of Table 10.10 as sent and received. A relay names the far group, its DSTART and its 16 levels. -/
structure Ripple where
  sframe : Nat
  dstate : Nat
  portup : Nat
  portq : List Nat
  hostq : List Nat
  dstart : Option Nat
  digest : List Nat
  relay : List (Nat × Nat × List Nat)
  deriving DecidableEq, Repr

/-- An ACK (Table 11.4): NEXT and credit records (VC, CUM_H, CUM_D). -/
structure AckMsg where
  next : Nat
  recs : List (Nat × Nat × Nat)
  deriving DecidableEq, Repr

/-- A NACK (Table 11.5). -/
structure NackMsg where
  next : Nat
  base : Nat
  mask : Nat
  deriving DecidableEq, Repr

/-- A CRED_SYNC (Table 11.6): RET and RCV of the 16 VCs as (headers, flits). -/
structure CredMsg where
  sframe : Nat
  next : Nat
  ret : List (Nat × Nat)
  rcv : List (Nat × Nat)
  deriving DecidableEq, Repr

/-- An INIT (Table 11.7). -/
structure InitMsg where
  got : Bool
  rsvD : Nat
  rsvH : Nat
  shD : Nat
  shH : Nat
  vmaxD : Nat
  vmaxH : Nat
  rord : Nat
  window : Nat
  version : Nat
  uid : Nat
  deriving DecidableEq, Repr

/-- A TIME packet (Table 11.8); stamps in 1/16 cycle. -/
structure TimeMsg where
  sync : Nat
  ev : Bool
  prio : Nat
  hops : Nat
  rootAddr : Nat
  tx : Nat
  echoTx : Nat
  echoRx : Nat
  deriving DecidableEq, Repr

/-- A LANE packet (Table 11.10). -/
structure LaneMsg where
  sub : Nat
  tag : Nat
  mask : Nat
  forced : Bool
  deriving DecidableEq, Repr

/-- A link-control packet's body (Table 11.3). -/
inductive Ctl where
  | linkDown (cause : Nat)
  | init (m : InitMsg)
  | nack (m : NackMsg)
  | ack (m : AckMsg)
  | time (m : TimeMsg)
  | ripple (m : Ripple)
  | credSync (m : CredMsg)
  | lane (m : LaneMsg)
  deriving DecidableEq, Repr

/-- What a receiver finds of a link-control packet beside its body (R274): TXSEQ and LEN of the link word, CTYPE, the reserved bits that are
    not 0 (`rsvd` those of bytes 0 to 59 of its first flit, `rsvdTail` those of the bytes from 64 on, each as one number), the HCRC and, where
    LEN is above 1, the CRC-32 at its end, and the MARK of each of its blocks, 3 where the block is errored (R305). -/
structure CtlHdr where
  txseq : Nat
  len : Nat
  ctype : Nat
  rsvd : Nat
  rsvdTail : Nat
  hcrc : Nat
  crc : Nat
  marks : List Nat
  deriving DecidableEq, Repr

/-- A field of a function's or a link's configuration space that this model names (R68 to R70, R74, R93; PRESUMED from PCI Express, log
    entry 126): Bus Master Enable, Enable Relaxed Ordering, Max_Payload_Size in bytes, Max_Read_Request_Size in bytes, the tag bits that are
    enabled, the completion timeout in microseconds (0: the default range), TPH Requester Enable, and a steering-tag table entry. -/
inductive CfgReg where
  | busMaster | relaxedOrder | maxPayload | maxRead | tagBits | cplTimeout | tphEnable | steerTag (i : Nat)
  deriving DecidableEq, Repr

/-- What REGISTER_WRITE addresses: an offset of BAR0, or a configuration field. -/
inductive RegAt where
  | bar0 (off : Nat)
  | cfg (r : CfgReg)
  deriving DecidableEq, Repr

/-- A wiring map entry (Table 13.5). `swapInv` is byte 3's field, `rsvd` whether a reserved field is non-zero. -/
structure WireE where
  port : Nat
  role : Nat
  chan : Nat
  fec : Nat
  train : Nat
  cage : Nat
  cageV : Bool
  mport : Nat
  swapInv : Nat
  farGroup : Nat
  farDev : Nat
  farPort : Nat
  link : Nat
  rsvd : Bool
  deriving DecidableEq, Repr

/-- One IPMI multirecord as read from the FRU EEPROM (R326): its type, whether its header and record checksums hold as IPMI defines
    them, and its data. -/
structure FruRec where
  type : Nat
  sumOk : Bool
  data : Bytes
  deriving DecidableEq, Repr

/-- One part of the FRU record set as read (Table 13.4): its checksums hold, its head, and its entries. -/
structure FruPart where
  sumOk : Bool
  version : Nat
  part : Nat
  parts : Nat
  tabsrc : Nat
  group : Nat
  device : Nat
  d : Nat
  g : Nat
  rsvd : Bool
  entries : List WireE
  rsvdBits : Nat := 0
  deriving DecidableEq, Repr

/-- What task 5 reads of one cage at a tick (R350): presence, the limit flag, VIN and VOUT in mV, current in mA. -/
structure CageIn where
  present : Bool
  lim : Bool
  vin : Nat
  vout : Nat
  cur : Nat
  deriving DecidableEq, Repr

/-- What a receiver measures of one lane (Table 12.7): SNR in 0.25 dB, eye height and width, tracked offset, transmit taps. -/
structure LaneIn where
  snr : Nat
  eyeH : Nat
  eyeW : Nat
  freq : Nat
  txfir : Nat
  deriving DecidableEq, Repr

/-- What a port's decoder and checker count in an epoch (R305, R309, R318, Table 12.9): units corrected, uncorrectable units, corrected
    symbols, errored blocks, blocks with MARK 0b11, units by number of corrected symbols (0 to 15); pattern errors of the two lanes
    and unit intervals checked; and the two lanes' measurements. -/
structure FecIn where
  corr : Nat
  uncorr : Nat
  symbols : Nat
  errBlocks : Nat
  badMarks : Nat
  hist : List Nat
  err0 : Nat
  err1 : Nat
  ui : Nat
  lane0 : LaneIn
  lane1 : LaneIn
  deriving DecidableEq, Repr

/-- What the device measures at an epoch tick: 36 sensors in 0.125 degrees, 24 monitors in mV, the lowest voltage at
    which every region's monitor shows positive margin (R342), the regions whose monitor shows negative margin at 0.85 V, the TRIM each region's monitor asks for, whether the AVSBus
    transaction succeeded, and what each port's decoder counted in the epoch, for the ports that have a signal (R309). -/
structure EpochIn where
  temps : List Int
  volts : List Nat
  margin : Nat
  negative : List Nat
  trims : List Nat
  avsOk : Bool
  fec : List (Nat × FecIn)
  deriving DecidableEq, Repr

/-- The straps (Table 18.2). -/
structure Straps where
  hpBif : Nat
  fltMode : Bool
  tarnAddr : Nat
  bootSrc : Bool
  deriving DecidableEq, Repr

/-- The fields of a HELLO (Table 13.6); a global entry is (FAR_GROUP, LINK, PORT, FAR_DEV, UP). -/
structure Hello where
  uid : Nat
  coord : Nat
  cv : Bool
  incarn : Nat
  dstate : Nat
  order : Nat
  port : Nat
  mode : Bool
  tabsrc : Bool
  derived : Bool
  frozen : Bool
  oxv : Bool
  track : Bool
  d : Nat
  g : Nat
  swEpoch : Nat
  oxroot : Nat
  globs : List (Nat × Nat × Nat × Nat × Bool)
  deriving DecidableEq, Repr

/-- What the device drives onto its wires. Nothing reads these back: they are the trace of its effects outside. -/
inductive Out where
  /-- a posted memory write: port, function, bus address, data, Relaxed Ordering, steering tag (R70, R74) -/
  | write (hp fn addr : Nat) (data : Bytes) (ro : Bool) (steer : Option Nat)
  /-- a memory read request, Relaxed Ordering last (R69, R70) -/
  | read (hp fn tag addr len : Nat) (ro : Bool)
  /-- an MSI-X message (R73) -/
  | msix (hp fn vec : Nat)
  /-- a packet on a network link, with its LSEQ in its link word -/
  | pkt (port : Nat) (p : Packet)
  /-- what the lanes of a mask of a DISABLED port send from now on: a pattern of Table 12.8, or 0 for nothing (R317) -/
  | pattern (port lanes pattern : Nat)
  /-- a link-control packet with its TXSEQ, and its bytes (R274) -/
  | ctl (port txseq : Nat) (c : Ctl) (bytes : Bytes)
  /-- a message sent over MCTP to an endpoint (R364) -/
  | mctp (eid : Nat) (data : Bytes)
  /-- an in-band interrupt on the I3C bus (R416) -/
  | ibi (eid : Nat)
  deriving DecidableEq, Repr

end Sys2Proof
end

