-- ==== Sys2Proof/Syntax.lean ====
section
/-!
DEFINITION. The commands of the block: one constructor for every row of the table of operations and events, with the row's
operands. A command is something done to the device from outside (a register write, a packet on a link, completion data, a
mailbox request) or the moment at which one of its own steps takes place (a tick, an expiry, a stage of its data path).
-/
namespace Sys2Proof

/-- The commands, in the table's order; each docstring gives the row's requirement and summary. -/
inductive Instr where
  /-- R439: PWR_OK and RESET_N high with rails in range and REFCLK_SL0 running begin a power-on reset with cause 1. -/
  | powerOnReset (straps : Straps)
  /-- R441: RESET_N held low for at least 1 µs causes a chip reset of cause 2, deferred only while a fuse bit is being
      blown. -/
  | resetNAssert
  /-- R440: PWR_OK falling idles every transmitter, turns off every cage gate and every switched domain, and leaves
      the device in standby. -/
  | pwrOkFall
  /-- R60: Zeroisation ends and the device moves from WIPING to BOOT. -/
  | wipeComplete (misrOk : Bool) (flashOk : Bool) (badTags : List (Nat × Nat))
  /-- R324: The images are verified and the CC runs, so the device enters DISCOVERY. -/
  | bootComplete
  /-- R348: After a thermal trip, the device leaves WIPING for BOOT once every sensor reads below 95 °C. -/
  | thermalCooldownRelease (temps : List Int) (badTags : List (Nat × Nat))
  /-- R326: Tarn reads the FRU records and checks the wiring map, entering the invalid-record outcome if a check
      fails. -/
  | fruRead (recs : List FruRec)
  /-- R331: disc.settle_epochs pass in DISCOVERY and the time gate opens. -/
  | timeGateSettleExpiry
  /-- R332: With autonomous tables, the CC derives its tables into the shadow banks once the time gate is open, sync
      is in TRACK and the ports have settled. -/
  | tableDerive
  /-- R333: At SWITCH_EPOCH − 16 the device freezes its switch epoch and sets FROZEN. -/
  | switchEpochFreeze
  /-- R333: At the tick of SWITCH_EPOCH the CC commits the shadow banks and changes to table mode. -/
  | tableModeSwitch
  /-- R23: The frame number changes and the frame-synchronous tasks start. -/
  | frameTick (cages : List CageIn) (temps : List Int)
  /-- R23: The epoch number changes and the epoch tasks start. -/
  | epochTick (meas : EpochIn)
  /-- R32: A frame task reaches its deadline incomplete, so it is stopped, recorded and counted. -/
  | taskOverrun (task : Nat) (port : Nat)
  /-- R34: An epoch task has not completed at the following epoch tick. -/
  | epochTaskOverrun (task : Nat)
  /-- R252: Task 1 computes the adaptive route weights into shadow state. -/
  | routeWeightRecompute
  /-- R227: Task 2 decides carried-over, triggered and refresh items into shadow state. -/
  | placementBatch
  /-- R33: 256 consecutive missed CC watchdog services raise the CC source and restart the CC. -/
  | ccWatchdogRestart
  /-- R33: 256 missed Tarn services reset the Tarn domain, and a second expiry within one epoch causes a chip reset of
      cause 6. -/
  | tarnWatchdogReset
  /-- R48: The CC returns from a restart, executes held requests and settles interrupted commands. -/
  | ccReturn
  /-- R426: At an epoch that is a multiple of PERIOD, the selected counters are dumped to the function's ring or
      skipped. -/
  | counterDump (hp : Nat) (fn : Nat)
  /-- R59: A session's idle count reaches its limit and the session ends. -/
  | sessionIdleExpiry (token : Nat)
  /-- R56: An open session challenge lapses after 1,024 epochs. -/
  | challengeExpiry (who : Requester)
  /-- R24: Every 8 frames each trained port sends a TIME packet. -/
  | timeSend (port : Nat)
  /-- R26: A TIME packet updates the election and the offset, and sets or slews Fabric Time. -/
  | timeReceive (port : Nat) (hdr : CtlHdr) (m : TimeMsg) (cycle : Nat) (block : Nat)
  /-- R29: An FT_PPS rising edge is recorded as the origin, disciplines the root's rate, or is discarded. -/
  | ppsEdge (stamp : Nat)
  /-- R272: A DOWN port's holdoff elapses and it enters TRAINING. -/
  | linkHoldoffExpiry (port : Nat)
  /-- R313: A training phase succeeds, and the port moves to the next phase or to INIT. -/
  | trainingPhaseDone (port : Nat) (rxFec : Nat) (skew : Int)
  /-- R313: A training phase reaches its bound, so the port returns to DOWN and counts a failed attempt. -/
  | trainingPhaseTimeout (port : Nat) (signal : Bool)
  /-- R273: An INIT packet is checked and applied, and may bring the port UP or take it down with PEER_RESTART. -/
  | initReceive (port : Nat) (hdr : CtlHdr) (m : InitMsg)
  /-- R272: 16 frames in INIT without an INIT carrying GOT take the port DOWN. -/
  | initTimeout (port : Nat)
  /-- R281: The link layer receives a sequenced packet and delivers it, holds it, discards it or names missing
      packets. -/
  | llPacketReceive (port : Nat) (hcrc : Nat) (marks : List Nat) (p : Packet) (cut : Option Nat)
  /-- R283: The receiver sends an ACK with NEXT and credit records. -/
  | llAckSend (port : Nat)
  /-- R288: A link ACK frees replay entries and applies returned credits. -/
  | llAckReceive (port : Nat) (hdr : CtlHdr) (m : AckMsg)
  /-- R284: A link NACK retransmits the masked packets. -/
  | llNackReceive (port : Nat) (hdr : CtlHdr) (m : NackMsg)
  /-- R290: A CRED_SYNC applies NEXT and the credit returns, and audits the counts. -/
  | credSyncReceive (port : Nat) (hdr : CtlHdr) (m : CredMsg)
  /-- R284: NEXT has not advanced for T_REPLAY, so the oldest unacknowledged packet is retransmitted. -/
  | replayTimerExpiry (port : Nat)
  /-- R250: A ripple updates neighbour levels and remote digests. -/
  | rippleReceive (port : Nat) (hdr : CtlHdr) (m : Ripple)
  /-- R294: A LANE packet (REQ, ACK, REFUSE or SWITCH) drives the lane change. -/
  | laneReceive (port : Nat) (hdr : CtlHdr) (m : LaneMsg)
  /-- R295: A lane REQ without ACK for 16 frames is repeated, abandoned or takes the port down. -/
  | laneReqTimeout (port : Nat)
  /-- R292: A dropped lane that has stayed locked for one epoch is requested for addition. -/
  | laneAddRequest (port : Nat)
  /-- R297: A received LINK_DOWN takes the port down with cause PEER. -/
  | linkDownReceive (port : Nat) (hdr : CtlHdr) (cause : Nat)
  /-- R296: 4 frames without a valid link-control packet take the port down. -/
  | silentTimeout (port : Nat)
  /-- R296: LOS or LOCK lasting one frame is declared at a tick and takes the port down. -/
  | losDeclare (port : Nat)
  /-- R311: A lane's loss-of-signal detector asserts. -/
  | losAssert (port : Nat) (lane : Nat)
  /-- R311: A lane loses clock-recovery lock, which may start a FORCED lane drop. -/
  | lockLoss (port : Nat) (lane : Nat)
  /-- R312: 8 consecutive uncorrectable units lose alignment and start a realignment search. -/
  | alignmentLoss (port : Nat)
  /-- R302: A quad PLL loses lock, which idles its transmitters and raises QUAD_PLL. -/
  | quadPllUnlock (quad : Nat)
  /-- R302: After 1 ms of lock, the quad retrains its ports. -/
  | quadPllRelock (quad : Nat)
  /-- R442: A reference clock is lost, which unlocks PLLs or takes a host link down. -/
  | refclkLoss (ref : Nat)
  /-- R291: At a packet boundary the transmitter starts the first eligible item. -/
  | packetTransmit (port : Nat) (cycle : Nat) (block : Nat)
  /-- R253: A packet at the head of its input VC queue has its route computed. -/
  | packetRoute (cx : Nat) (vc : Nat)
  /-- R253: A waiting packet's route is recomputed every 64 cycles. -/
  | routeRecompute (cx : Nat) (vc : Nat)
  /-- R246: A packet is allocated an output VC once the next device has credit for all its flits. -/
  | outputAllocate (cx : Nat) (vc : Nat)
  /-- R256: A packet that has waited 256 cycles moves to its class's escape VC. -/
  | escapeMove (cx : Nat) (vc : Nat)
  /-- R262: The background sweep drops buffered packets older than the MPL. -/
  | ageSweep
  /-- R241: At the named tick the shadow banks become active, and the escape freeze starts if needed. -/
  | tableSwitch
  /-- R241: 64 frames after the switch, escape admission resumes and TBL_COMMIT ends. -/
  | escapeFreezeEnd
  /-- R260: At APPLY_EPOCH the sources stop injecting in the old mode. -/
  | modeChangeStart
  /-- R260: 64 frames later the new mode is injected and packets of the old mode are dropped. -/
  | modeTransferEnd
  /-- R329: The CC sends a HELLO on an UP port. -/
  | helloSend (port : Nat)
  /-- R330: A HELLO is checked against the wiring map and its data is stored. -/
  | helloReceive
  /-- R330: A port's last HELLO ages beyond 256 frames and the port stops being routable. -/
  | helloExpiry (port : Nat)
  /-- R264: A datagram joins the CC queue or is dropped. -/
  | datagramReceive
  /-- R77: A write to SQ_TAIL replaces the submission tail. -/
  | sqTailWrite (hp : Nat) (fn : Nat) (page : Nat) (value : Nat)
  /-- R78: A 64-byte INLINE write pushes a descriptor and advances the tail. -/
  | inlinePush (hp : Nat) (fn : Nat) (page : Nat) (off : Nat) (data : Bytes)
  /-- R88: An EQ_HEAD write updates the head and may arm the interrupt. -/
  | eqHeadWrite (hp : Nat) (fn : Nat) (page : Nat) (value : Nat)
  /-- R53: ADMIN_HEAD records which admin events are consumed. -/
  | adminHeadWrite (hp : Nat) (fn : Nat) (value : Nat)
  /-- R53: XFAULT_HEAD records which fault records are consumed. -/
  | xfaultHeadWrite (hp : Nat) (fn : Nat) (value : Nat)
  /-- R6: A write to a register without behaviour of its own takes effect under its access code. -/
  | registerWrite (hp : Nat) (fn : Nat) (off : RegAt) (width : Nat) (value : Nat)
  /-- R79: The CFE fetches descriptors of an active context and parses them. -/
  | descriptorFetch (ctx : Nat)
  /-- R134: A PUT descriptor writes local data to a remote region. -/
  | put (ctx : Nat)
  /-- R135: A PUT_IMM descriptor writes data and raises a notification at the target. -/
  | putImm (ctx : Nat)
  /-- R136: A GET descriptor reads a remote region into local memory. -/
  | get (ctx : Nat)
  /-- R137: An ATOMIC descriptor applies an operator to a remote word. -/
  | atomic (ctx : Nat)
  /-- R137: A FETCH_ATOMIC descriptor applies an operator and returns the old word. -/
  | fetchAtomic (ctx : Nat)
  /-- R137: A CSWAP descriptor compares and swaps a remote word. -/
  | cswap (ctx : Nat)
  /-- R157: A SEND descriptor sends a tagged message, eager or rendezvous. -/
  | send (ctx : Nat)
  /-- R162: A RECV_POST searches the unexpected list or posts a receive. -/
  | recvPost (ctx : Nat)
  /-- R177: A RECV_CANCEL removes the oldest posted receive with that cookie. -/
  | recvCancel (ctx : Nat)
  /-- R195: A COL_START starts a collective operation on a communicator. -/
  | colStart (ctx : Nat)
  /-- R81: A FENCE_NOP performs nothing and can report that earlier descriptors completed. -/
  | fenceNop (ctx : Nat)
  /-- R123: The ring form of XLAT_INVALIDATE invalidates translations of its own PD, fenced. -/
  | xlatInvalidateRing (ctx : Nat)
  /-- R166: A RECV_POST held for lack of list room proceeds once an entry frees. -/
  | deferredPostRelease (ctx : Nat)
  /-- R141: A segment is issued once peer-issue and tracking room exist. -/
  | segmentIssue (op : Nat)
  /-- R90: A free injection slot takes the next packet by weighted fair queueing. -/
  | packetInject (hp : Nat)
  /-- R88: The oldest unsignalled event reaches TIME frames and the interrupt is sent. -/
  | moderationTimerExpiry (ctx : Nat)
  /-- R93: An FLR aborts the function and orphans its reads. -/
  | functionLevelReset (hp : Nat) (fn : Nat)
  /-- R93: After the abort ends, the function's contexts, PDs and sessions are freed and its registers reset. -/
  | flrCleanup (hp : Nat) (fn : Nat)
  /-- R94: PERST, hot reset or link loss resets every function of the link. -/
  | hostPortReset (hp : Nat) (linkB : Bool) (cause : Nat)
  /-- R94: Release of HPn_PERST_N starts host link training. -/
  | perstDeassert (hp : Nat) (linkB : Bool)
  /-- R93: Clearing VF Enable resets every VF of the link. -/
  | vfEnableClear (hp : Nat) (linkB : Bool)
  /-- R93: Setting VF Enable brings the VFs back with their defaults. -/
  | vfEnableSet (hp : Nat) (linkB : Bool)
  /-- R108: Completion data for a device read arrives and is used, faulted or discarded. -/
  | hostReadCompletion (hp : Nat) (tag : Nat) (ok : Bool) (poisoned : Bool) (data : Bytes)
  /-- R69: A device read reaches the PCIe completion timeout. -/
  | hostCompletionTimeout (hp : Nat) (tag : Nat)
  /-- R146: A PUT or PUT_IMM packet passes the target checks and is placed. -/
  | putReceive (hp : Nat)
  /-- R136: A GET_REQ is answered with GET_RESPs of the wanted packets. -/
  | getReqReceive (hp : Nat)
  /-- R138: An atomic packet is executed in the target's atomic unit. -/
  | atomicReceive (hp : Nat)
  /-- R144: A PROBE is answered with the state of its segment. -/
  | probeReceive (hp : Nat)
  /-- R155: A RETIRE ends a segment without further execution. -/
  | retireReceive (hp : Nat)
  /-- R142: A SYNC installs fresh peer state if needed and is answered with ACK. -/
  | syncReceive (hp : Nat)
  /-- R163: A SEND-family packet is placed or held, and its first packet triggers submission. -/
  | sendPacketReceive (hp : Nat)
  /-- R174: The sending device serves a rendezvous pull. -/
  | rdvGetReceive (hp : Nat)
  /-- R147: A complete segment is marked done and acknowledged once its writes are sent. -/
  | segmentCompleteAck (src : Nat) (osn : Nat)
  /-- R148: A waiting final PUT_IMM segment writes its notification, is marked done and is acknowledged. -/
  | finalSegmentNotify (src : Nat) (osn : Nat)
  /-- R146: An assembly entry idle for 200 frames is freed. -/
  | assemblyTimeout (src : Nat) (osn : Nat)
  /-- R149: A fetched-value result entry is released after 16,384 frames. -/
  | resultEntryExpiry (src : Nat) (osn : Nat)
  /-- R151: A transport ACK completes its segment at the source. -/
  | transportAckReceive (hp : Nat)
  /-- R151: A transport NACK schedules a retry, or ends and retires the operation. -/
  | transportNackReceive (hp : Nat)
  /-- R151: A SACK retransmits the missing packets or restarts the timer. -/
  | sackReceive (hp : Nat)
  /-- R136: A GET_RESP is placed if its tag matches a live segment. -/
  | getRespReceive (hp : Nat)
  /-- R150: A segment timer expires, so a PROBE or GET_REQ is sent, or the operation times out. `seg` below 131,072 is a tracking
      entry; 131,072 plus a device names the SYNC in flight to it (R142); 262,144 plus 2^32 times a device plus an OSN names a
      RETIRE (R155). -/
  | segmentTimeout (seg : Nat)
  /-- R152: After the NACK wait, the refused packet is retransmitted; `seg` as for the segment timer. -/
  | nackRetryWaitExpiry (seg : Nat) (pidx : Nat)
  /-- R173: The target issues a rendezvous pull segment with RDV_GET. -/
  | rdvPullIssue (msg : Nat)
  /-- R220: A matched message without an eligible LOCAL member takes one at the first tick at which one is eligible. -/
  | deferredMemberChoice (msg : Nat)
  /-- R187: The leader collects the COL_JOINs of the member devices. -/
  | colJoinReceive
  /-- R187: A joining device repeats COL_JOIN every 64 frames. -/
  | colJoinResend (mgid : Nat)
  /-- R187: A member device reserves slots, installs its multicast entry and sends COL_READY. -/
  | colSetupReceive
  /-- R187: The leader collects COL_READYs and sends COL_GO or COL_FAIL. -/
  | colReadyReceive
  /-- R187: A device enters READY and ends its COMM_CREATEs. -/
  | colGoReceive
  /-- R209: A COL_FAIL fails the communicator and is propagated. -/
  | colFailReceive
  /-- R188: The join timer expires before COL_GO and creation fails with TIMEOUT. -/
  | joinTimerExpiry (mgid : Nat)
  /-- R192: A child's chunk lands in a reserved slot. -/
  | colUpReceive
  /-- R191: The CE reads a local contribution chunk into a free slot. -/
  | contributionRead (mgid : Nat) (ctx : Nat)
  /-- R192: When every input holds a chunk, the node combines it and sends the result. -/
  | chunkCombine (mgid : Nat)
  /-- R193: A result chunk is written to members and passed down the tree. -/
  | colDownReceive
  /-- R198: COL_DONE lets members' parts end once their writes are sent. -/
  | colDoneReceive
  /-- R191: Returned credits allow further COL_UPs. -/
  | colCredReceive
  /-- R191: A parent returns owed credits to its child. -/
  | colCredSend (mgid : Nat)
  /-- R208: Every BEAT_FRAMES a node sends COL_BEAT to its tree neighbours. -/
  | colBeatSend (mgid : Nat)
  /-- R208: A beat's SENT is compared with the count of packets received. -/
  | colBeatReceive
  /-- R208: Silence for 4 × BEAT_FRAMES declares a tree neighbour lost. -/
  | neighbourLost (mgid : Nat) (feid : Nat)
  /-- R352: Hardware turns the gate off when the current exceeds 2 × ILIM. -/
  | cageFastTrip (cage : Nat)
  /-- R352: Hardware turns the gate off after 50 ms of continuous limiting. -/
  | cageBackstop (cage : Nat)
  /-- R358: On POWERED, Tarn resets and reads the module and requests high power. -/
  | moduleBringup (cage : Nat) (passive : Bool) (maxPower : Nat) (mismatch : List Nat) (cableLen : Nat)
  /-- R358: The module reaches ModuleReady and its data paths are activated. -/
  | moduleReady (cage : Nat) (txfir : Nat)
  /-- R358: The module misses a bring-up deadline and MODULE_TIMEOUT is logged. -/
  | moduleTimeout (cage : Nat)
  /-- R360: CGn_INT_N makes Tarn read and clear the module flags. -/
  | moduleInterrupt (cage : Nat) (alarm : Option Nat) (dpFault : List Nat)
  /-- R359: A cage whose ports have been DISABLED for one epoch returns its module to ModuleLowPwr. -/
  | moduleLowPower (cage : Nat)
  /-- R340: The power controller starts a waiting domain power-up. -/
  | domainPowerUp (swd : Nat)
  /-- R339: A domain reaches ON after supply rise and zeroisation. -/
  | domainPowerComplete (swd : Nat)
  /-- R347: A sensor at or above 115 °C turns everything off and enters FAULT. -/
  | thermalTrip (sensor : Nat) (reading : Int)
  /-- R342: A region's droop detector stretches its clock. -/
  | droopStretch (region : Nat)
  /-- R409: Handling of a non-FATAL event ends. -/
  | faultHandlingEnd (src : Nat)
  /-- R410: FLOOR falls one class after a full window without an event. -/
  | faultFloorDecay (src : Nat)
  /-- R414: AUTORESET epochs in FAULT cause a chip reset of cause 4. -/
  | faultAutoreset
  /-- R369: Tarn commits pending log records to flash. -/
  | logCommit
  /-- R364: Tarn answers an MCTP control message. `bus`: 0 I3C, 1 SMBus, 2 PCIe; `src`, `eid`: its source and destination endpoints. -/
  | mctpControlMessage (bus : Nat) (src : Nat) (eid : Nat) (msg : Bytes)
  /-- R66: An abort with nothing outstanding ends, and its contexts are DRAINED. -/
  | abortComplete (ctx : Nat)
  /-- R66: At the abort bound, outstanding reads are orphaned and contexts enter DRAINED_PENDING. -/
  | abortBoundReached (ctx : Nat)
  /-- R61: No local segment remains and the device enters QUIESCED. -/
  | quiesceComplete
  /-- R46: A slow or bounded long command reaches its bound, ends with TIMEOUT and is rolled back. -/
  | commandTimeout (who : Requester) (tag : Nat)
  /-- R430: One BIST test ends and posts progress. -/
  | bistTestComplete (group : Nat) (memory : Bool) (misr : Nat)
  /-- R395: Verification of a staged bundle ends with STAGED or abandonment. -/
  | bundleVerifyComplete
  /-- R401: A step of a hitless activation completes. -/
  | activationStep (digestOk : Bool)
  /-- R402: The trial window ends unconfirmed and Tarn reverts. -/
  | trialWindowExpiry
  /-- R393: An idle staging lock is abandoned after update.lock_epochs. -/
  | stagingLockIdle
  /-- R382: The chip reset of a lifecycle transition follows MBX_DONE. -/
  | lcReset
  /-- R380: Signing of an attestation report ends. -/
  | attestComplete
  /-- R380: A report unread for 1,024 epochs is discarded. -/
  | attestReportExpiry (who : Requester)
  /-- R398: A receiver answers a Freshet OFFER. -/
  | freshetOfferReceive
  /-- R399: A REPLY stops or continues offers on a port. -/
  | freshetReplyReceive
  /-- R399: A PULL is answered with a DATA from the slot. -/
  | freshetPullReceive
  /-- R399: A DATA is staged, and the last one starts verification. -/
  | freshetDataReceive
  /-- R399: An unanswered PULL is re-sent after 64 frames. -/
  | freshetPullResend
  /-- R399: A staged bundle is offered on routable ports every 1,024 frames. -/
  | freshetOfferSend (port : Nat)
  /-- R3: Returns the identity of the device and the requester. -/
  | identify (q : MbxReq)
  /-- R60: Returns the device state and pending tags. -/
  | getState (q : MbxReq)
  /-- R51: Names or removes the function's admin event ring. -/
  | adminRingSet (q : MbxReq)
  /-- R54: Returns a stored command result and frees its tag. -/
  | mbxResult (q : MbxReq)
  /-- R61: Stops descriptor fetch and waits for local segments to drain. -/
  | devQuiesce (q : MbxReq)
  /-- R60: Returns a QUIESCED device to READY or DEGRADED. -/
  | devResume (q : MbxReq)
  /-- R56: Opens a session challenge with a nonce. -/
  | sessionOpen (q : MbxReq)
  /-- R57: Checks a KMAC proof and opens a session. -/
  | sessionProve (q : MbxReq)
  /-- R59: Ends the requester's session. -/
  | sessionClose (q : MbxReq)
  /-- R98: Creates a context in CREATED. -/
  | ctxCreate (q : MbxReq)
  /-- R97: Frees a CREATED or DRAINED context. -/
  | ctxDestroy (q : MbxReq)
  /-- R99: Moves a CREATED context to ACTIVE. -/
  | ctxActivate (q : MbxReq)
  /-- R99: Returns a context's state and stall reasons. -/
  | ctxQuery (q : MbxReq)
  /-- R99: Clears the RING stall reason. -/
  | ctxResume (q : MbxReq)
  /-- R89: Sets interrupt moderation for a context. -/
  | ctxModerate (q : MbxReq)
  /-- R92: Sets a context's weight and shaper. -/
  | ctxSched (q : MbxReq)
  /-- R92: Sets a function's shaper. -/
  | fnShape (q : MbxReq)
  /-- R100: Sets a function's context and PD quotas. -/
  | fnQuota (q : MbxReq)
  /-- R64: Aborts one context. -/
  | ctxAbort (q : MbxReq)
  /-- R64: Aborts every context of a function. -/
  | fnAbort (q : MbxReq)
  /-- R101: Creates a protection domain. -/
  | pdCreate (q : MbxReq)
  /-- R101: Destroys an unused PD and its translations. -/
  | pdDestroy (q : MbxReq)
  /-- R103: Registers a remote region and returns its RKEY. -/
  | regionRegister (q : MbxReq)
  /-- R104: Invalidates a region key and waits for checked packets. -/
  | regionDeregister (q : MbxReq)
  /-- R96: Sets a function's TID. -/
  | fnTenant (q : MbxReq)
  /-- R106: Sets a function's stage-2 translation. -/
  | fnS2Set (q : MbxReq)
  /-- R102: Names a host port's region table. -/
  | regtabSet (q : MbxReq)
  /-- R114: Writes a host port's address-map windows. -/
  | hostmapSet (q : MbxReq)
  /-- R116: Names the function's translation fault ring. -/
  | xlatFaultRingSet (q : MbxReq)
  /-- R121: Clears a held fault and retries or fails the access. -/
  | xlatResume (q : MbxReq)
  /-- R122: Removes matching translations from every structure. -/
  | xlatInvalidate (q : MbxReq)
  /-- R125: Sets the translation ageing limit. -/
  | xlatAge (q : MbxReq)
  /-- R38: Schedules the collective window, priority and PPS settings for an epoch tick. -/
  | frameConfig (q : MbxReq)
  /-- R39: Returns the time-sync state. -/
  | timeStatus (q : MbxReq)
  /-- R153: Sets the transport timer, retry and issue parameters. -/
  | teConfig (q : MbxReq)
  /-- R240: Writes entries into a shadow table bank. -/
  | tblWrite (q : MbxReq)
  /-- R241: Schedules the shadow banks to become active. -/
  | tblCommit (q : MbxReq)
  /-- R242: Returns table entries. -/
  | tblRead (q : MbxReq)
  /-- R266: Sets the routing mode and the route and policing parameters. -/
  | routeConfig (q : MbxReq)
  /-- R264: Sends a datagram to another device's CC. -/
  | dgramSend (q : MbxReq)
  /-- R264: Returns the oldest queued datagram. -/
  | dgramRecv (q : MbxReq)
  /-- R299: Returns a port's link state. -/
  | linkStatus (q : MbxReq)
  /-- R299: Takes a port down, brings it up or changes its lanes. -/
  | linkControl (q : MbxReq)
  /-- R316: Sets a port's channel, FEC and lane settings. -/
  | slConfig (q : MbxReq)
  /-- R316: Returns lane and FEC status and counters. -/
  | slStatus (q : MbxReq)
  /-- R317: Starts or stops pattern generation and checking, and returns counts. -/
  | slPrbs (q : MbxReq)
  /-- R316: Sets a lane's receive delay. -/
  | slSlip (q : MbxReq)
  /-- R186: Joins a member to a new communicator. -/
  | commCreate (q : MbxReq)
  /-- R211: Ends a member's membership of a communicator. -/
  | commDestroy (q : MbxReq)
  /-- R211: Returns a communicator's state and tree. -/
  | commQuery (q : MbxReq)
  /-- R185: Grants or revokes MGIDs for a tenant. -/
  | mgidGrant (q : MbxReq)
  /-- R212: Sets the join and beat timers. -/
  | colConfig (q : MbxReq)
  /-- R181: Sets a context's matching parameters. -/
  | meCtxConfig (q : MbxReq)
  /-- R182: Returns a context's list occupancy. -/
  | meQuery (q : MbxReq)
  /-- R216: Creates a placement set. -/
  | psetCreate (q : MbxReq)
  /-- R231: Removes every member of a set and frees it. -/
  | psetDestroy (q : MbxReq)
  /-- R217: Adds a member to a set. -/
  | psetAdd (q : MbxReq)
  /-- R231: Removes a member once nothing assigned to it is in flight. -/
  | psetRemove (q : MbxReq)
  /-- R233: Sets a member's hint or steering tag, or re-arms it. -/
  | psetHint (q : MbxReq)
  /-- R232: Returns a set's shares, scores and choices. -/
  | psetQuery (q : MbxReq)
  /-- R234: Sets the placement weights and policy. -/
  | pePolicy (q : MbxReq)
  /-- R235: Returns the candidate intermediate groups of a destination group. -/
  | peRouteQuery (q : MbxReq)
  /-- R422: Selects, enables or clears a programmable counter. -/
  | cntConfig (q : MbxReq)
  /-- R420: Returns counter block records. -/
  | cntRead (q : MbxReq)
  /-- R422: Grants counter blocks to a function. -/
  | cntGrant (q : MbxReq)
  /-- R423: Sets the bandwidth window length. -/
  | cntBw (q : MbxReq)
  /-- R423: At a window end, each port block latches its flit counts. -/
  | bandwidthWindowEnd (port : Nat)
  /-- R424: Returns the function's own counters. -/
  | fnCntRead (q : MbxReq)
  /-- R429: Sets packet tagging and trace recording. -/
  | traceConfig (q : MbxReq)
  /-- R418: Returns the FSW and the per-source records. -/
  | faultRead (q : MbxReq)
  /-- R415: Clears latched fault sources. -/
  | faultClear (q : MbxReq)
  /-- R413: Sets promotion settings and AUTORESET. -/
  | faultConfig (q : MbxReq)
  /-- R416: Sets the requester's fault notification mask. -/
  | faultNotify (q : MbxReq)
  /-- R419: Raises an injected fault event. -/
  | faultInject (q : MbxReq)
  /-- R372: Returns event log records. -/
  | logRead (q : MbxReq)
  /-- R372: Erases the event log. -/
  | logClear (q : MbxReq)
  /-- R322: Causes a chip reset of cause 3. -/
  | chipReset (q : MbxReq)
  /-- R393: Opens the staging lock for a bundle. -/
  | updateOpen (q : MbxReq)
  /-- R395: Writes bundle bytes at RECEIVED. -/
  | updateWrite (q : MbxReq)
  /-- R395: Verifies the staged bundle. -/
  | updateVerify (q : MbxReq)
  /-- R393: Abandons staging. -/
  | updateAbandon (q : MbxReq)
  /-- R400: Activates a staged bundle, hitless or at the next boot. -/
  | updateActivate (q : MbxReq)
  /-- R403: Confirms or rejects a trial. -/
  | updateConfirm (q : MbxReq)
  /-- R394: Returns slot and staging status. -/
  | updateStatus (q : MbxReq)
  /-- R397: Sets the Freshet parameters. -/
  | freshetConfig (q : MbxReq)
  /-- R406: Saves the current settings to the running slot. -/
  | settingsSave (q : MbxReq)
  /-- R406: Sets a setting that has no command of its own. -/
  | settingsSet (q : MbxReq)
  /-- R431: Runs logic and memory BIST on the named groups. -/
  | bistRun (q : MbxReq)
  /-- R341: Returns domain, voltage and region status. -/
  | pwrStatus (q : MbxReq)
  /-- R341: Powers a host port, CE unit or CC core off, into retention or on. -/
  | pwrDomain (q : MbxReq)
  /-- R361: Sets and stores a cage's protection parameters. -/
  | cageConfig (q : MbxReq)
  /-- R349: Turns a cage off or on, clears its fault, or changes module power. -/
  | cageControl (q : MbxReq)
  /-- R349: Returns a cage's status. -/
  | cageStatus (q : MbxReq)
  /-- R362: Reads or writes module CMIS memory. -/
  | cmisAccess (q : MbxReq)
  /-- R367: Returns the sensor readings. -/
  | sensorRead (q : MbxReq)
  /-- R368: Sets the sensor warning limits. -/
  | sensorLimits (q : MbxReq)
  /-- R381: Returns the lifecycle status. -/
  | lcStatus (q : MbxReq)
  /-- R380: Starts a signed attestation report. -/
  | attestRequest (q : MbxReq)
  /-- R380: Returns bytes of an attestation report. -/
  | attestRead (q : MbxReq)
  /-- R377: Returns bytes of the identity certificate. -/
  | idCertRead (q : MbxReq)
  /-- R377: Writes the identity certificate in BLANK. -/
  | idCertWrite (q : MbxReq)
  /-- R376: Sets or clears a session key slot. -/
  | keySet (q : MbxReq)
  /-- R382: Blows lifecycle fuses and schedules a chip reset. -/
  | lcTransition (q : MbxReq)
  /-- R311: A lane's loss-of-signal detector clears once the signal has stayed present for 1 µs. -/
  | losClear (port : Nat) (lane : Nat)
  /-- R311: A lane's loss-of-lock detector clears once the loop has stayed locked for 1 µs. -/
  | lockRegain (port : Nat) (lane : Nat)
  /-- R312: A receiver searching for codeword alignment finds it and resumes decoding, either after an alignment loss
      or on the new mask of a FORCED lane change. -/
  | alignmentFound (port : Nat)
  /-- R94: A host port's PCIe link completes training and comes up, so its functions can again answer configuration
      requests. -/
  | hostLinkTrained (hp : Nat) (linkB : Bool) (rate : Nat) (width : Nat) (flit : Bool)
  /-- R73: Host software unmasks an MSI-X vector, and a message held pending for it is sent. -/
  | msixVectorUnmask (hp : Nat) (fn : Nat) (vec : Nat)
  /-- R43: A GO write to MBX_DOORBELL is taken: while BUSY is 1 it sets OVR and is ignored, and with an opcode
      undefined in this firmware release it answers BAD_OPCODE. -/
  | mbxDoorbell (hp : Nat) (fn : Nat) (value : Nat) (mem : List (Nat × Nat))
  /-- R43: A write to the mailbox request buffer is stored, or, while BUSY is 1, is discarded and sets DROP. -/
  | requestBufferWrite (hp : Nat) (fn : Nat) (off : Nat) (data : Bytes)
  /-- R339: A switched domain finishes entering OFF or RETAIN, and a PWR_DOMAIN waiting on it ends. -/
  | domainPowerDownComplete (swd : Nat)
  /-- R406: A SPI flash program or erase started for a command (SETTINGS_SAVE, LOG_CLEAR, KEY_SET, ID_CERT_WRITE)
      completes or fails, and the command ends. -/
  | flashOperationComplete (ok : Bool)
  /-- R382: Wellhead finishes blowing and reading back a fuse bit, which lets a lifecycle transition or floor raise
      proceed and releases any chip reset deferred for it. -/
  | fuseProgramComplete (ok : Bool)
  /-- R386: An instruction is loaded through the test access port, and it is selected if the lifecycle admits it, or
      else BYPASS is selected. -/
  | jtagInstruction (instr : Nat)
  deriving DecidableEq, Repr

end Sys2Proof
end

