-- ==== Sys2Proof/Decode.lean ====
section
/-!
DEFINITION. The block takes commands, not words: no row of its table gives a command any bits, so no word spells one.
-/
namespace Sys2Proof

/-- The command a word of the table's bits spells: the table gives no row any bits, so none. -/
def decodeTableWord (_nbits _w : Nat) : Option Instr := none

end Sys2Proof
end

