-- ==== Sys2Proof/Config.lean ====
section
/-!
DEFINITION. What the manual leaves to the part or leaves open. Each opaque constant is a FREE VALUE: it has no body, so
nothing proved about the model rests on a value of it. A random draw of the device (R56, R57, R216, R323) is a free
value applied to a counter that the state holds and each draw advances (log entry 3).
-/
namespace Sys2Proof.Config

/-- SESSION_OPEN's nonce from the Wellhead random source (R56): any 256 bits. -/
opaque nonce : Nat → BitVec 256
/-- A session token (R57), less 1: the token is random and never 0. -/
opaque tokenLessOne : Nat → Fin 18446744073709551615
/-- A placement set's JOINKEY (R216), less 1: random and never 0. -/
opaque joinKeyLessOne : Nat → Fin 4294967295
/-- The draw of an incarnation (R323), less 1: any value but 0. -/
opaque incarnationPick : Nat → Fin 4095
/-- Whether a packet is chosen for tagging (R427): the LFSR is not described, so each choice is free. -/
opaque traceTag : Nat → Bool
/-- Value left open by the manual, fresh for each count. -/
opaque word : Nat → BitVec 64

/-- CC firmware patch release (Table 3.14): fixed by the image that runs. -/
opaque ccPatch : BitVec 16
/-- Tarn firmware major release (Table 3.14). -/
opaque tarnMajor : BitVec 8
/-- Tarn firmware minor release (Table 3.14). -/
opaque tarnMinor : BitVec 8
/-- Tarn firmware patch release (Table 3.14). -/
opaque tarnPatch : BitVec 16

/-- SLH-DSA-SHAKE-256s verification in pure mode under a context string (R389): public key, context, message, signature. -/
opaque slhVerify : Bytes → String → Bytes → Bytes → Bool
/-- SLH-DSA-SHAKE-256s signature (R379): secret seed, context, message. -/
opaque slhSign : Bytes → String → Bytes → Bytes
/-- The root of the identity public key computed from its seeds (R374, FIPS 205). -/
opaque slhRoot : Bytes → Bytes
/-- Digest of the Wellhead boot ROM (Table 15.10, kind 0x01): fixed by the part. -/
opaque romDigest : Bytes
/-- Digest of the fuse configuration (R378): the byte widths it is taken over are not stated. -/
opaque fuseDigest : Nat → Bytes

/-- The set of a translation structure in which an entry lies (Table 5.7 gives the ways, not the index): structure, owner, page or prefix,
    size or level. -/
opaque tlbSet : Nat → Nat → Nat → Nat → Nat

/-- What a read returns in a RsvdP field (Table 0.3: undefined), by draw and by the value stored. -/
opaque readRsvdP : Nat → Nat → Nat

end Sys2Proof.Config
end

