-- ==== Sys2Proof/Machine/StA.lean ====
section
/-!
DEFINITION. The parts of the state that chapters 2 to 10 name: Fabric Time, mailboxes and sessions, host ports and
functions, contexts, protection and translation, transport, matching, collectives, placement and routing. Plain data.
A table is a list of pairs in rising index order; an index without an entry has the default the reading function names.
-/
namespace Sys2Proof.Machine

/-- A pending FRAME_CONFIG (R38). -/
structure FrameCfg where
  epoch : Nat
  colwin : Nat
  prio : Nat
  pps : Bool
  deriving DecidableEq, Repr

/-- Fabric Time and its synchronisation (R23 to R39). `ovrNow` gathers the overrun bits of the running frame, `epNow`
    those of the running epoch; OVR_MASK reports the last whole ones. `epochDue`: an epoch tick waits to be served; `samp` is what
    TIME_STATUS returns, as sampled at the last frame tick (R39). -/
structure TimeSync where
  ft : Nat
  frac : Nat
  rate : Int
  sync : SyncSt
  setDone : Bool
  upPort : Option Nat
  rootPrio : Nat
  rootAddr : Nat
  dist : Nat
  conv : Nat
  offset : Int
  prio : Nat
  ppsEn : Bool
  ppsOrigin : Option Nat
  ppsEdge : Nat
  ppsLock : Bool
  ppsFaults : Nat
  colwin : Nat
  pendCfg : Option FrameCfg
  ovrFrame : Nat
  ovrNow : Nat
  epFrame : Nat
  epNow : Nat
  ovrCnt : List Nat
  ovrRun : List Nat
  epochDue : Bool
  samp : Option Bytes
  deriving DecidableEq, Repr

/-- The device state and what goes with it (R60, Table 3.15). `from` is the state UPDATE_STAGING came from. -/
structure DevCtl where
  st : DevState
  prev : DevState
  ftTrans : Nat
  stageFrom : DevState
  quiescing : Bool
  deriving DecidableEq, Repr

/-- An admin event ring or a translation fault ring (R51, R52, R116). `unread` counts the entries written and not consumed. -/
structure EvRing where
  base : Nat
  count : Nat
  widx : Nat
  phase : Bool
  unread : Nat
  vector : Nat
  deriving DecidableEq, Repr

/-- A token-bucket shaper (R91), with the values that the next frame tick takes up (R92) and what the last refill added (R33). -/
structure Shaper where
  rate : Nat
  burst : Nat
  tokens : Nat
  pend : Option (Nat × Nat)
  added : Nat
  deriving DecidableEq, Repr

/-- A function's BAR0 registers and buffers (Tables 3.1 to 3.5, 3.21, 3.22). The buffers are memories in canonical form. -/
structure Mbx where
  vector : BitVec 16
  rsvdP : BitVec 12
  drop : Bool
  ovr : Bool
  evtIe : Bool
  rspIe : Bool
  lastTag : Nat
  accepted : Bool
  rspReady : Bool
  held : Bool
  adminHead : Nat
  xfHead : Nat
  reqBuf : List Host.Cell
  rspBuf : List Host.Cell
  admin : Option EvRing
  xfault : Option EvRing
  deriving DecidableEq, Repr

/-- Why a function is being reset: step 3 and 4 of R93 wait for the abort. `deadline` is in frames. -/
structure FlrSt where
  start : Nat
  deadline : Nat
  deriving DecidableEq, Repr

/-- The counter-dump registers of a function (Table 17.10) and what its next header reports (R426); `snap` are the records that
    the last epoch tick took for a dump that is not written yet. -/
structure Dump where
  period : Nat
  rsvdP : Nat
  en : Bool
  base : Nat
  size : Nat
  head : Nat
  tail : Nat
  phase : Bool
  sel : Nat
  own : Bool
  dseq : Nat
  missed : Nat
  snap : Option (List Bytes)
  deriving DecidableEq, Repr

/-- A function of a host port (R93, R96, R100, R106, R116). `unmasked` lists the MSI-X vectors that are not masked.
    The notify fields are FAULT_NOTIFY's (R416), `dump` the counter-dump registers (R425), `grants` the mask of CNT_GRANT
    (R422), `ctrs` the eight function counters (R424). -/
structure Fn where
  bme : Bool
  ctxQuota : Nat
  pdQuota : Nat
  tid : Nat
  s2En : Bool
  s2Ad : Bool
  s2Root : Nat
  shaper : Shaper
  mbx : Mbx
  msixSize : Nat
  unmasked : List Nat
  msixPend : List Nat
  tph : Bool
  flr : Option FlrSt
  fnAbort : Bool
  notifyMask : Nat
  notifyVec : Nat
  dump : Dump
  grants : Nat
  ctrs : List Nat
  stTab : Table Nat := []
  deriving DecidableEq, Repr

/-- One link of a host port: A, or B when bifurcated (R68 to R71, R94). `crs`: configuration requests are answered with
    Request Retry Status; `rate` in GT/s and `width` as trained, 0 while the link is down; `inReset`: a reset of the link has not ended;
    `tagBits`: the tags its parent function has enabled. -/
structure HLink where
  up : Bool
  perst : Bool
  crs : Bool
  vfEn : Bool
  mps : Nat
  mrrs : Nat
  ctoUs : Nat
  ro : Bool
  rate : Nat
  width : Nat
  flit : Bool
  inReset : Bool
  tagBits : Nat := 8
  deriving DecidableEq, Repr

/-- The classes of host access, in the order of Table 5.8's ACCESS codes (R108, R117). -/
inductive AccKind where
  | fetch | cwrite | lread | lwrite | iread | iwrite | iatomic
  deriving DecidableEq, Repr

/-- The causes of a translation fault (Table 5.10), in code order from 1. -/
inductive Cause where
  | notPresent | permRead | permWrite | user | supGuard | aTrap | dTrap | rsvdBits | badLeaf | addrRange
  | walkDevice | walkBus | walkTimeout | hostBus | hostTimeout
  deriving DecidableEq, Repr

/-- What a host access is for, and so what its end sets in motion. -/
inductive Cont where
  /-- descriptors of ring slots from `idx` on (R79) -/
  | fetchDesc (idx n : Nat)
  /-- an event at a slot of the event ring (R85) -/
  | event
  /-- the head write-back (R77) -/
  | headWb
  /-- the payload of one packet of a segment (R140) -/
  | payload (op seg pidx : Nat)
  /-- the table entry that a packet's RKEY names, read on a miss (R102) -/
  | region (p : Packet)
  /-- the translation of a packet's place, before its assembly entry is taken (Tables 5.5 and 6.6) -/
  | checkIn (p : Packet)
  /-- a packet's payload placed into a region (R146) -/
  | place (p : Packet)
  /-- the read-out of one wanted packet of a GET_REQ (R136) or RDV_GET (R174) -/
  | readOut (p : Packet) (pidx off : Nat)
  /-- the read half of an atomic (R138), and its write, with the word as it was -/
  | atomic (p : Packet)
  | atomicW (p : Packet) (old : Nat)
  /-- a GET_RESP or pulled data written at the requester (R136, R173) -/
  | land (p : Packet)
  /-- the fetched value written to LADDR (R137) -/
  | fetched (op : Nat)
  /-- held data of a message written to its receive buffer (R170) -/
  | deliver (msg off n : Nat)
  /-- eager data of a message written to the overflow area, or read back from it (R168) -/
  | ovfWrite (msg off n : Nat)
  | ovfRead (msg off : Nat)
  /-- a chunk of a contribution (R191) -/
  | colRead (mgid ctx cseq off : Nat) (expo : Bool)
  /-- a result written for a member (R198) -/
  | colWrite (mgid ctx cseq : Nat)
  /-- part of the member list (R186) -/
  | colList (mgid ctx off : Nat)
  deriving DecidableEq, Repr

/-- A walk-cache entry (Table 5.7): `owner` is a PDID for stage 1 and 64 HP + FN for stage 2. -/
structure WalkE where
  owner : Nat
  pfx : Nat
  level : Nat
  next : Nat
  epoch : Nat
  deriving DecidableEq, Repr

/-- A walk in progress (R106 to R108). `s1lvl` is the stage-1 level whose entry is sought, or none for the walk of the
    final address. `s2lvl` is the stage-2 level, or none where the address needs no (further) stage 2. `dirty`: a matching
    invalidation was accepted meanwhile, so nothing is installed (R113). `leaf` is the stage-1 leaf entry and its level; `got1` and `got2`
    are the non-leaf entries read, which are installed when every check has passed (R111). -/
structure Walk where
  va : Nat
  s1lvl : Option Nat
  s2lvl : Option Nat
  table : Nat
  ipa : Nat
  leaf : Option (Nat × Nat)
  dirty : Bool
  got1 : List WalkE := []
  got2 : List WalkE := []
  deriving DecidableEq, Repr

/-- A host access: its pages are translated one by one (`bus` gathers the pieces), then it is issued whole. `got` gathers
    read data by offset. `retry` marks the retry of a held access (R121): true where the context's own function asked for it. `used` are the
    combined entries that its pages were translated by, as page and log2 of the page size (R122). `stale`: what a read of a table entry
    brings is no longer the entry (R102, R104). -/
structure Acc where
  id : Nat
  ctx : Nat
  hp : Nat
  fn : Nat
  kind : AccKind
  addr : Nat
  len : Nat
  data : Bytes
  sfeid : Nat
  cont : Cont
  bus : List (Nat × Nat)
  walk : Option Walk
  got : List (Nat × Bytes)
  want : Nat
  steer : Option Nat
  held : Bool
  retry : Option Bool
  used : List (Nat × Nat) := []
  stale : Bool := false
  deriving DecidableEq, Repr

/-- An outstanding device read (R69): the access it serves, whether it reads a table entry, its place in the data, the frame of its issue.
    An orphaned read keeps its tag and discards its data (R66). -/
structure ReadE where
  tag : Nat
  link : Bool
  fn : Nat
  ctx : Nat
  acc : Nat
  walk : Bool
  off : Nat
  len : Nat
  bus : Nat
  orphan : Bool
  at_ : Nat := 0
  deriving DecidableEq, Repr

/-- A combined TLB entry (R111): `size` is the log2 of the page size, `perm1` and `perm2` the low 7 bits of the leaf
    entries of the two stages (none where the stage is off). -/
structure TlbE where
  pd : Nat
  page : Nat
  size : Nat
  bus : Nat
  perm1 : Option Nat
  perm2 : Option Nat
  epoch : Nat
  deriving DecidableEq, Repr

/-- A held fault (R120, R121): a command-side or payload hold keeps its access, an inbound hold marks a page of a PD
    (stage 1) or an IPA page of a function (stage 2). -/
inductive HoldKind where
  | cmd | data | inbound1 (pd page : Nat) | inbound2 (fnKey page : Nat)
  deriving DecidableEq, Repr

/-- A held fault identifier. -/
structure Hold where
  id : Nat
  kind : HoldKind
  ctx : Nat
  fnKey : Nat
  stage : Nat
  addr : Nat
  ipa : Nat
  acc : Nat
  deriving DecidableEq, Repr

/-- A region table entry (Table 5.4); GEN 0 is a free entry that keeps LGEN. -/
structure Region where
  base : Nat
  len : Nat
  pd : Nat
  rights : Nat
  gen : Nat
  fn : Nat
  lgen : Nat
  deriving DecidableEq, Repr

/-- An entry of the L2 TLB (Table 5.7): a combined entry, or a region entry of a host port with its index. -/
inductive L2E where
  | comb (e : TlbE)
  | reg (hp idx : Nat) (r : Region)
  deriving DecidableEq, Repr

/-- A host port's region table (R102): where it lies, and its entries as REGTAB_SET found them and the device has written them since, by
    which the firmware allocates (R103). -/
structure RegTab where
  bus : Nat
  log2 : Nat
  last : Nat
  ents : Table Region
  deriving DecidableEq, Repr

/-- An enabled window of a host port's address map (R114). -/
structure HWindow where
  base : Nat
  last : Nat
  device : Bool
  en : Bool
  deriving DecidableEq, Repr

/-- What a packet that waits for injection belongs to: a tracked segment, an OSN to retire, a SYNC, or nothing that is timed. -/
inductive Inj where
  | seg (idx gen : Nat)
  | retire (dev osn : Nat)
  | sync (dev : Nat)
  | free
  deriving DecidableEq, Repr

/-- A packet that waits for injection: `finish` is its WFQ tag (R90). Context 65,536 stands for the device itself. -/
structure InjPkt where
  pkt : Packet
  ctx : Nat
  finish : Nat
  what : Inj
  deriving DecidableEq, Repr

/-- A host port: `rdWait` are reads that wait for a free tag, `rdy` packets built whose context has an earlier payload read
    outstanding, by access number; `ej` the ejection buffer, each packet with the CX port it came in by; `respWait` and `reqWait` the
    responses and the packets of the device itself for which the injection buffer has no room yet (R68 to R71, R90, R102, R114, R450). -/
structure HPort where
  bifd : Bool
  a : HLink
  b : HLink
  reads : List ReadE
  rdWait : List ReadE
  nextTag : Nat
  vtime : Nat
  lastFin : Table Nat
  rdy : List (Nat × InjPkt)
  reqQ : List InjPkt
  respQ : List InjPkt
  ej : List (Nat × Packet)
  regtab : Option RegTab
  windows : Table HWindow
  ctlb : List TlbE
  dtlb : List TlbE
  ownFeid : Option Nat
  respWait : List InjPkt := []
  reqWait : List (Nat × InjPkt) := []
  deriving DecidableEq, Repr

/-- The 64 bytes of a descriptor as fields (Table 4.7): `dfeid` is bytes 4 to 7 whole, `w16` and so on name the first byte. -/
structure Desc where
  opc : Nat
  flags : Nat
  dctx : Nat
  dfeid : Nat
  cookie : Nat
  w16 : Nat
  w24 : Nat
  w32 : Nat
  w36 : Nat
  w40 : Nat
  w48 : Nat
  w56 : Nat
  deriving DecidableEq, Repr

/-- A fetched and parsed descriptor that has not started: `seq` is its place in the context's order (R84), `member` the
    placement choice made at parse (R219), and then the destination it resolved to. -/
structure PDesc where
  seq : Nat
  d : Desc
  member : Option (Nat × Nat)
  dfeid : Nat
  dctx : Nat
  rkey : Nat
  roff : Nat
  deriving DecidableEq, Repr

/-- A completion event before it has a ring slot (Table 4.9): `w28` is without PHASE. -/
structure Ev where
  type : Nat
  status : Nat
  ctx : Nat
  len : Nat
  cookie : Nat
  w16 : Nat
  imm : Nat
  w28 : Nat
  deriving DecidableEq, Repr

/-- A posted receive (Table 7.4). -/
structure Recv where
  seq : Nat
  event : Bool
  cookie : Nat
  src : Option Nat
  mtch : Nat
  ignore : Nat
  laddr : Nat
  len : Nat
  pset : Option Nat
  deriving DecidableEq, Repr

/-- A context that is not FREE (R63, R72, R98, R99, R77, R85, R88, R90, R181). `live` lists the descriptors that have been
    parsed and not completed, by place in the order; `unsig` holds the frame of each unsignalled event, oldest first; `eqUsed` the
    events written and not consumed; `waitEv` the events due, the first perhaps being written, with the segment whose
    completion waits on each; `ringInval` the XLAT_INVALIDATE that runs, with the accesses it waits for (R123). -/
structure Ctx where
  st : CtxSt
  hp : Nat
  fn : Nat
  slot : Nat
  pd : Nat
  sqLog : Nat
  eqLog : Nat
  sup : Bool
  stV : Bool
  stIdx : Nat
  sqBase : Nat
  eqBase : Nat
  headWb : Nat
  ringSt : Bool
  cmdSt : Bool
  dataSt : Bool
  tail : Nat
  head : Nat
  headMoved : Bool
  fetching : Bool
  inl : List (Nat × Bytes)
  eqTail : Nat
  eqPhase : Bool
  eqHead : Nat
  eqUsed : Nat
  armed : Bool
  unsig : List Nat
  waitEv : List (Ev × Option (Nat × Nat))
  modCount : Nat
  modTime : Nat
  modVec : Nat
  modPend : Option (Nat × Nat × Nat)
  weight : Nat
  weightPend : Option Nat
  shaper : Shaper
  descs : List PDesc
  nextSeq : Nat
  live : List Nat
  ringInval : Option (PDesc × List Nat)
  eager : Nat
  postedMax : Nat
  unexpMax : Nat
  onchip : Nat
  ovfBase : Nat
  ovfPages : Nat
  ovfNext : Nat
  ovfRuns : List (Nat × Nat × Bool)
  posted : List Recv
  deferred : List Recv
  bound : Option Nat
  abortOps : Nat
  abortDrop : Nat
  deriving DecidableEq, Repr

/-- A protection domain (R101). -/
structure Pd where
  hp : Nat
  fn : Nat
  tid : Nat
  root : Nat
  s1En : Bool
  adTrap : Bool
  sug : Bool
  dataStall : Bool
  deriving DecidableEq, Repr

/-- How an access ends for what started it: with its data, or refused by a translation fault or a failed host read, finally
    or to be retried (Table 5.11). -/
inductive AccEnd where
  | ok (data : Bytes)
  | xfault
  | retry
  deriving DecidableEq, Repr

/-- Translation: the L2 TLB, the walk caches, accesses in progress and those just ended, holds, and the settings of R117 and R125. -/
structure Xlat where
  pds : Table Pd
  l2 : List L2E
  wc1 : List WalkE
  wc2 : List WalkE
  accs : List Acc
  fin : List (Acc × AccEnd)
  nextAcc : Nat
  holds : List Hold
  nextFault : Nat
  age : Nat
  agePend : Option Nat
  deriving DecidableEq, Repr

/-- What a tracked segment is (R141, R136, R173): an OSN segment, a GET segment, or a pull segment of a rendezvous. -/
inductive SegKind where
  | osn | get | pull (msg : Nat)
  deriving DecidableEq, Repr

/-- A pull segment. -/
def SegKind.isPull : SegKind → Bool | .pull _ => true | _ => false

/-- A tracking entry in use (R141, R150 to R152). `built` masks the packets whose building has begun, `sent` those that have been
    queued before, `mask` the arrivals shown; `start` is the frame the timer runs from once `timed`; `nacks` are refused packets:
    index, how often in a row, and the frame at which each may be sent again; `writes` counts data being written here. `tv` holds RTO and
    RETRY_LIMIT as they stood when the timer started (R153), `traced` masks the packets that were tagged (R427). `sfeid` and `coord` are the
    source endpoint and the destination's coordinate that its packets carry, as they stood when it was issued (R127). -/
structure Seg where
  idx : Nat
  gen : Nat
  kind : SegKind
  op : Nat
  no : Nat
  dev : Nat
  ctx : Nat
  hp : Nat
  dfeid : Nat
  osn : Nat
  pcnt : Nat
  off : Nat
  bytes : Nat
  built : Nat
  sent : Nat
  mask : Nat
  timed : Bool
  start : Nat
  retry : Nat
  nacks : List (Nat × Nat × Option Nat)
  writes : Nat
  tv : Nat × Nat := (128, 6)
  traced : Nat := 0
  sfeid : Nat := 0
  coord : Nat := 0
  deriving DecidableEq, Repr

/-- An operation in progress at its source (R140, R156). `segNext` is the next segment to issue, `segLeft` those issued and
    not ended; `status` is that of the first segment to fail (0: none). -/
structure Op where
  id : Nat
  ctx : Nat
  hp : Nat
  seq : Nat
  opc : Nat
  event : Bool
  cookie : Nat
  laddr : Nat
  inl : Option Bytes
  len : Nat
  roff : Nat
  rkey : Nat
  dfeid : Nat
  dctx : Nat
  dcoord : Nat
  w40 : Nat
  w48 : Nat
  w56 : Nat
  immV : Bool
  imm : Nat
  rts : Bool
  prev : Nat
  member : Option (Nat × Nat)
  nseg : Nat
  segNext : Nat
  firstOsn : Nat
  acked : Nat
  value : Nat
  status : Nat
  writes : Nat
  deriving DecidableEq, Repr

/-- An OSN to retire toward a peer (R155, R178). `after` is the OSN of the final segment whose ACK it waits for, `at_` the frame
    its RETIRE was injected in, `due` the frame at which a refused one may be sent again. `issued`: the OSN has been used, so that it
    counts toward PEER_ISSUE (R141); `tv`, `traced` and `coord` as for a segment; `fin` and `pcnt` are FSEG and PCNT of the segment that it
    retires (Table 6.1). -/
structure Retire where
  osn : Nat
  send : Bool
  prev : Nat
  status : Nat
  dctx : Nat
  sctx : Nat
  sfeid : Nat
  dfeid : Nat
  tid : Nat
  hp : Nat
  after : Option Nat
  at_ : Option Nat
  retry : Nat
  nackN : Nat
  due : Option Nat
  issued : Bool := true
  tv : Nat × Nat := (128, 6)
  traced : Bool := false
  fin : Bool := true
  pcnt : Nat := 0
  coord : Nat := 0
  deriving DecidableEq, Repr

/-- Peer state for one target device (R141, R142, R163). `sync` is the SYNC in flight with its host port, `syncAt` the frame it was
    injected in, `tv` the values its timer started with (R153); `ended` lists sends that an abort or a retirement has ended, as (OSN,
    context). -/
structure Peer where
  valid : Bool
  tinc : Nat
  nextOsn : Nat
  lastSend : Nat
  retires : List Retire
  sync : Option (Nat × Packet)
  syncAt : Option Nat
  syncRetry : Nat
  ended : List (Nat × Nat)
  tv : Nat × Nat := (128, 6)
  deriving DecidableEq, Repr

/-- State held for one source device (R145, R163). `win` lists the OSNs done above HC. -/
structure Src where
  sinc : Nat
  hc : Nat
  win : List Nat
  lms : Nat
  deriving DecidableEq, Repr

/-- An assembly entry (R146). `head` is the packet that opened it, `mask` the arrivals, `placed` the packets being written;
    `imm` the immediate once its final packet has come; `value` what an atomic fetched; `due`: its notification or receive event
    is on its way, so that its ACK waits for the event (R148, R170). -/
structure Asm where
  src : Nat
  osn : Nat
  head : Packet
  mask : Nat
  placed : Nat
  last : Nat
  imm : Nat
  value : Nat
  due : Bool
  deriving DecidableEq, Repr

/-- A result entry (R149). -/
structure Result where
  src : Nat
  osn : Nat
  value : Nat
  start : Nat
  deriving DecidableEq, Repr

/-- Transport: both roles (R141 to R153). `gens` is the generation of each tracking entry used before; devices are named
    by their coordinate without the endpoint bits. `atomQ` are the atomics that wait their turn, with the addresses they name; the first
    one is being executed (R138). -/
structure Te where
  peers : Table Peer
  ops : List Op
  segs : List Seg
  gens : Table Nat
  nextOp : Nat
  srcs : Table Src
  asms : List Asm
  results : List Result
  rto : Nat
  retryLimit : Nat
  nackLimit : Nat
  peerIssue : Nat
  atomQ : List (Nat × Packet)
  deriving DecidableEq, Repr

/-- Where a message stands at its target (R163, R170, R173). -/
inductive MsgSt where
  | parked | unexp | taken
  deriving DecidableEq, Repr

/-- A message at its target, or a retired marker (R163, R167, R178). `held` is its data on chip; `ovf` its run of overflow
    pages (start, count) and `ovfHas` what stands there; `recv` the receive that took it, none once that receive has ended;
    `buf` the effective buffer (context, address, length); `member` the LOCAL member, `wait`: none was eligible yet (R220);
    `pend` counts accesses in progress, `placed` the bytes written, `pullNext` the pull segments issued; `bad`: its overflow
    pages could not be written or read (R168). -/
structure Msg where
  id : Nat
  src : Nat
  osn : Nat
  prev : Nat
  head : Packet
  imm : Nat
  held : List (Nat × Bytes)
  ovf : Option (Nat × Nat)
  ovfHas : List (Nat × Nat)
  st : MsgSt
  retired : Bool
  acked : Bool
  recv : Option Recv
  buf : Nat × Nat × Nat
  member : Option (Nat × Nat)
  wait : Bool
  pend : Nat
  placed : Nat
  pullNext : Nat
  bad : Bool
  deriving DecidableEq, Repr

/-- Matching (R165, R167). The unexpected list of a context is its messages in state unexpected, in this order. -/
structure Me where
  msgs : List Msg
  nextMsg : Nat
  deriving DecidableEq, Repr

/-- An operation of a communicator at one local member (R195 to R198). `readX` and `read` are the wire bytes of the exponent and the
    data pass whose reading has begun, `empty` that its chunk without payload has been given; `wrote` counts the bytes written of
    `want`, `pend` the writes in progress; `recs` are the combined exponent records as they came, by offset. -/
structure ColOp where
  ctx : Nat
  seq : Nat
  event : Bool
  cookie : Nat
  cseq : Nat
  saddr : Nat
  raddr : Nat
  count : Nat
  cop : Nat
  rop : Nat
  etype : Nat
  mode : Nat
  root : Nat
  readX : Nat
  read : Nat
  empty : Bool
  done : Bool
  pend : Nat
  wrote : Nat
  want : Nat
  recs : List (Nat × Bytes)
  deriving DecidableEq, Repr

/-- A chunk in a slot of an input (R191, R192): `hdr` are its fields ETYPE to PHASE, `arr` the order of its arrival. -/
structure Chunk where
  cseq : Nat
  expo : Bool
  off : Nat
  data : Bytes
  hdr : Nat
  msglen : Nat
  root : Nat
  arr : Nat
  deriving DecidableEq, Repr

/-- A slot of a local member's input that a chunk has been given: the chunk's operation, pass and wire offset, and the chunk itself
    once its read has ended. -/
structure ColPlace where
  cseq : Nat
  expo : Bool
  off : Nat
  chunk : Option Chunk
  deriving DecidableEq, Repr

/-- A local member of a communicator: rank, FEID, context, the values of its COMM_CREATE (R186, R187); `reading` are the slots given
    to chunks that its input does not hold yet, in the order in which the input delivers them (R192). -/
structure ColMember where
  rank : Nat
  feid : Nat
  ctx : Nat
  digest : Bytes
  nmemb : Nat
  slotLog : Nat
  depth : Nat
  ready : Bool
  nextCseq : Nat
  reading : List ColPlace
  deriving DecidableEq, Repr

/-- A tree neighbour (R191, R208): its anchor FEID and incarnation, packets sent and received, the SENT of its previous
    beat, the frame `last` at which it is lost if nothing more comes from it, and for a child the credits owed to it; `near`: the multicast
    entry leads to it, as it was installed (R193). -/
structure ColPeer where
  feid : Nat
  inc : Nat
  sent : Nat
  recv : Nat
  prevSent : Nat
  last : Nat
  owed : Nat
  near : Bool := false
  deriving DecidableEq, Repr

/-- A tree as R229 builds it: the root device, and each device's children in their order. -/
structure TreePlan where
  root : Nat
  kids : List (Nat × List Nat)
  deriving DecidableEq, Repr

/-- State of a communicator (Table 8.10). -/
inductive CommSt where
  | joining | ready | failed
  deriving DecidableEq, Repr

/-- A communicator at this device (R184 to R211). `joins` are the anchors of the member devices whose COL_JOIN the
    leader holds, with their incarnations; `readys` those whose COL_READY it holds; `agot` the bytes of an ALLGATHER that the root has
    sent down; `started` is the epoch at which the join timer expires and `beatAt` the frame of the next beat; `early` what came down for an operation that a local member has not issued yet (log entry 26). `treeQ` is a tree that the leader's placement engine
    is to build: the frame since when, and the member devices still to step through; `tree` the tree in force (R214, R227). `passed` is the first chunk that was forwarded for a CSEQ, without its data, for R207. `refused`: a COL_SETUP has come that did not
    fit (R187). -/
structure Comm where
  st : CommSt
  tid : Nat
  n : Nat
  slotLog : Nat
  depth : Nat
  digest : Bytes
  list : List Nat
  members : List ColMember
  nlocal : Nat
  leader : Bool
  started : Nat
  joinAt : Option Nat
  joins : List (Nat × Nat)
  setupSent : Bool
  readys : List Nat
  isRoot : Bool
  setup : Bool
  parent : Option ColPeer
  pinput : Nat
  children : List ColPeer
  blocks : Nat
  inputs : List (List Chunk)
  credits : Nat
  ops : List ColOp
  agot : List (Nat × Nat)
  early : List Packet
  nextArr : Nat
  fstatus : Nat
  origin : Nat
  beatAt : Nat
  treeQ : Option (Nat × Nat)
  tree : Option TreePlan
  passed : List Chunk
  refused : Bool := false
  deriving DecidableEq, Repr

/-- Collectives (R185, R190, R212): `grants` are the commands MGID_GRANT as given: first MGID, count, tenant, and whether revoked;
    `colIn` the packets that have reached the engine and wait to be taken, each with the CX port it came in by. -/
structure Ce where
  comms : Table Comm
  grants : List (Nat × Nat × Nat × Bool)
  joinEpochs : Nat
  beatFrames : Nat
  colIn : List (Nat × Packet)
  deriving DecidableEq, Repr

/-- A member of a placement set (R217, R220, R224). `rearmed`: armed again since the last tick, so not eligible before the next (R233). -/
structure PMember where
  ctx : Nat
  dfeid : Nat
  rkey : Nat
  base : Nat
  len : Nat
  stV : Bool
  stIdx : Nat
  stPend : Option Nat
  hint : Nat
  hintPend : Option Nat
  armed : Bool
  rearmed : Bool := false
  removing : Bool
  share : Nat
  score : Option Nat
  cur : Int
  chosen : Nat
  deriving DecidableEq, Repr

/-- A placement set (R215, R216). `elig` is the mask at the last tick; `queued` the frame of the first batch the set
    waits for; `trig` a trigger since the last tick (R227, R230). -/
structure Pset where
  kind : Nat
  mode : Nat
  fixed : Nat
  owner : Nat
  pd : Nat
  joinkey : Nat
  members : Table PMember
  elig : Nat
  ftCommit : Nat
  lastCommit : Nat
  queued : Option Nat
  trig : Bool
  destroying : Bool
  deriving DecidableEq, Repr

/-- PE_POLICY's values (Table 9.8). -/
structure PePol where
  wHint : Nat
  wCong : Nat
  wFill : Nat
  wHops : Nat
  wOut : Nat
  rootPolicy : Nat
  spread : Nat
  refresh : Nat
  fnMax : Nat
  deriving DecidableEq, Repr

/-- Route candidates toward a group (R228, R235): group and score of up to four, and the frame of the last change. -/
structure Cands where
  list : List (Nat × Nat)
  frame : Nat
  deriving DecidableEq, Repr

/-- What the batch of the running frame decides, from inputs sampled at the tick that starts it (R223, R227): share and score by member of
    each set, candidates of each destination group with the number replaced, and by communicator tree steps, with the tree where they are the last. -/
structure PePlan where
  sets : Table (Table (Nat × Option Nat))
  cands : Table (Cands × Nat)
  trees : Table (Nat × Option TreePlan)
  deriving DecidableEq, Repr

/-- The placement engine (R214 to R235). `plan` is the shadow of task 2, complete once `batchDone`; `candQ` are destination groups with the
    frame of the first batch they wait for; `links` are the working slots of each group and `digs` the pairs of groups with a working link,
    as the last tick found them. -/
structure Pe where
  sets : Table Pset
  pol : PePol
  polPend : Option PePol
  cands : Table Cands
  candQ : List (Nat × Nat)
  rr : Nat
  plan : PePlan
  batchDone : Bool
  links : Table Nat
  digs : List Nat
  deriving DecidableEq, Repr

/-- Who a packet's route leads to (R238, R251, R261). -/
inductive Route where
  | net (port : Nat) (igroup : Nat)
  | escape (port : Nat)
  | ring (port : Nat) (inbound : Bool) (enters : Bool)
  | host (hp : Nat)
  | ce
  | cc
  | copies (ports : List Nat) (ce : Bool)
  deriving DecidableEq, Repr

/-- A packet in the input buffers of a CX port (R16, R246), with the order of its arrival at the device. -/
structure QPkt where
  pkt : Packet
  cx : Nat
  arr : Nat
  route : Option Route
  deriving DecidableEq, Repr

/-- A packet allocated to an output, on the VC chosen for the next hop. `cx` is the input whose buffer it still fills, 68 where it
    fills none, and 100 more than the input for a copy of a multicast packet. `ig0`: the IGROUP it waited with, which it has again if the
    port goes down before it leaves (R258). -/
structure TxPkt where
  pkt : Packet
  vc : Nat
  arr : Nat
  cx : Nat
  ig0 : Nat := 0
  deriving DecidableEq, Repr

/-- The four banked tables (R239): endpoint, group (8 slots, then the Oxbow byte), device, config. Entries as raw words. -/
structure Bank where
  ep : Table Nat
  grp : Table Nat
  dv : Table Nat
  cfg : Nat
  deriving DecidableEq, Repr

/-- A multicast entry (Table 10.7). -/
structure Mcast where
  mask : Nat
  ce : Bool
  tid : Nat
  deriving DecidableEq, Repr

/-- Routing settings that take effect at a frame tick (Table 10.12). -/
structure RtCfg where
  nmEn : Bool
  nmBias : Nat
  revThresh : Nat
  mgRate : Nat
  mgBurst : Nat
  dgRate : Nat
  dgBurst : Nat
  deriving DecidableEq, Repr

/-- A pending table commit (R241): the frame it applies at. -/
structure Commit where
  frame : Nat
  deriving DecidableEq, Repr

/-- A network port as the router sees it: the last ripple and the frame it came in, policer levels, and the deficits of
    its round robin (R247, R250, R265). -/
structure RPort where
  ripple : Option Ripple
  ripFrame : Nat
  ripNew : Bool
  mg : Nat
  dg : Nat
  drr : List Nat
  drrCls : Nat
  txq : List TxPkt
  deriving DecidableEq, Repr

/-- The router (R239 to R267). `freeze` is the frame the escape freeze ends at, with the old bank; `mode` true is Millpond;
    `transfer` is the frame the mode transfer ends at and the mode
    entered; `weights` and `wShadow` are W of R252 by group and slot, `wPlan` what task 1 computes
    in the running frame from the inputs of its tick (R30). -/
structure Rt where
  act : Bank
  sh : Bank
  mc : Table Mcast
  commit : Option Commit
  copying : Bool
  freeze : Option (Nat × Bank)
  millpond : Bool
  modePend : Option (Nat × Bool)
  transfer : Option (Nat × Bool)
  cfg : RtCfg
  cfgPend : Option RtCfg
  weights : Table Nat
  wPlan : Table Nat
  wShadow : Option (Table Nat)
  wValid : Bool
  lastSlot : Table Nat
  dig : Table (Nat × Nat)
  dstart : Nat
  ports : List RPort
  vcq : List QPkt
  nextArr : Nat
  dgq : List (Nat × Bytes)
  ownDg : Nat
  mgq : List (Nat × Packet)
  ceOut : List Packet
  ccIn : List (Nat × Packet)
  deriving DecidableEq, Repr

end Sys2Proof.Machine
end

