-- ==== Sys2Proof/Machine/StB.lean ====
section
/-!
DEFINITION. The parts of the state that chapters 11 to 18 name: the link layer and lanes of the network ports, start-up and
discovery, power domains and cages, faults, counters, trace, the event log, firmware update, security and lifecycle, pins.
-/
namespace Sys2Proof.Machine

/-- Link states (Table 11.1). -/
inductive LinkSt where
  | disabled | down | training | init | up
  deriving DecidableEq, Repr

/-- The code of a link state (Table 11.1). -/
def LinkSt.code : LinkSt → Nat
  | .disabled => 0 | .down => 1 | .training => 2 | .init => 3 | .up => 4

/-- A packet in a replay store (R284), how often it has been retransmitted, and when its latest transmission ended, in cycles of Fabric
    Time. -/
structure Replay where
  pkt : Packet
  count : Nat
  ended : Nat
  deriving DecidableEq, Repr

/-- A lane request in progress at its requester (R292 to R295). `by` is the LINK_CONTROL that asked, if one did. -/
structure LaneReq where
  tag : Nat
  mask : Nat
  forced : Bool
  tries : Nat
  since : Nat
  owner : Option (Requester × Nat)
  acked : Bool
  deriving DecidableEq, Repr

/-- Lane settings (Table 12.6); `swapInv` is byte 2. -/
structure SlCfg where
  chan : Nat
  fec : Nat
  train : Nat
  swapInv : Nat
  serWarn : Nat
  deriving DecidableEq, Repr

/-- One logical lane (R311, Table 12.7). `lockEpoch` is the epoch since when a dropped lane is trained and locked. -/
structure Lane where
  sd : Bool
  lock : Bool
  snr : Nat
  eyeH : Nat
  eyeW : Nat
  freq : Nat
  txfir : Nat
  slip : Nat
  trained : Bool
  lockEpoch : Option Nat
  deriving DecidableEq, Repr

/-- Test patterns (R317, R318). -/
structure Prbs where
  lanes : Nat
  gen : Bool
  check : Bool
  pattern : Nat
  err0 : Nat
  err1 : Nat
  ui : Nat
  deriving DecidableEq, Repr

/-- The transmit and receive side of a port's link layer that a link-down clears (R273, R277 to R290). `cum` are the credits
    returned, `rep` those last reported and `rcv` the packets delivered, each per VC as (headers, flits); `named` the LSEQs a NACK has named and when;
    `hi` the LSEQ after the highest known to be sent, and `auditBad` that check 1 of R290 has failed at this frame's snapshot. -/
structure LlSt where
  txseq : Nat
  nrx : Nat
  peer : InitMsg
  gotInit : Bool
  initMore : Bool
  replay : List Replay
  held : List Packet
  named : List (Nat × Nat)
  retx : List Nat
  ackDue : Bool
  sent : List (Nat × Nat)
  ret : List (Nat × Nat)
  cum : List (Nat × Nat)
  rcv : List (Nat × Nat)
  rep : List (Nat × Nat)
  rot : Nat
  hi : Nat
  auditBad : Bool
  deriving DecidableEq, Repr

/-- What a port knows of time through its neighbour (R24, R276). -/
structure PortTime where
  rtt : Option Nat
  echoTx : Nat
  echoRx : Nat
  echoV : Bool
  offer : Option (Nat × Nat × Nat × Nat)
  asym : Int
  sentAt : Option Nat
  deriving DecidableEq, Repr

/-- A network port: link state, link layer, lanes, hello (R272, R299, R313, R330). `initAt` is the frame in which INIT or the present
    training phase began; `modFault` and `modMiss` hold it in DOWN for a data-path fault (R360) or a missing application (R328). `holdFrom` is the frame its holdoff runs
    from; `losAt` and `lockAt` the frame in which LOS or loss of lock on every active lane was detected; `ctlAt` the frame of
    the last valid link-control packet; `phase` the training phase in progress, `addPhase` that of a dropped lane that trains alone
    while the other carries traffic (R292); `serFec` the incoming FEC mode last found (R309); `lsrv` the TAG of the lane request last served and
    `lswitch` the TAG and mask of a SWITCH that is due (R294, R295). -/
structure NPrt where
  st : LinkSt
  admin : Bool
  waitPwr : Bool
  holdFrom : Nat
  attempts : Nat
  cause : Nat
  downs : Nat
  phase : Nat
  initAt : Nat
  upAt : Nat
  ll : LlSt
  lcq : List Ctl
  tm : PortTime
  ctlAt : Nat
  losAt : Option Nat
  lockAt : Option Nat
  alignLost : Bool
  txLanes : Nat
  rxLanes : Nat
  lreq : Option LaneReq
  lsrv : Option Nat
  lswitch : Option (Nat × Nat)
  ltag : Nat
  hello : Option Hello
  helloOk : Bool
  helloAt : Nat
  helloSent : Option Nat
  helloDue : Bool
  helloTx : Option Hello
  lastInc : Nat
  sl : SlCfg
  slNext : Option SlCfg
  trainResult : Nat
  rxFec : Nat
  txFec : Nat
  aligned : Bool
  corrUnits : Nat
  uncorrUnits : Nat
  corrSyms : Nat
  lane0 : Lane
  lane1 : Lane
  prbs : Prbs
  modFault : Bool
  modMiss : Bool
  addPhase : Nat
  serFec : Nat
  deriving DecidableEq, Repr

/-- The board's identity as accepted (R326, R327). -/
structure Fru where
  tabsrc : Bool
  group : Nat
  device : Nat
  d : Nat
  g : Nat
  entries : List WireE
  deriving DecidableEq, Repr

/-- Start-up and discovery (R320 to R337). `wiped`, `thermHold`: what WIPING waits on; `misrBad`: the
    wipe failed, and WIPING ends only with a reset (R385); `flashOk`: the flash
    could be read; `bootHold`: BOOT holds the bus; `noSlot`: no slot could be booted; `lateAt`: the epoch at which a device that starts
    beside running neighbours switches to table mode (R337). -/
structure Start where
  cause : Nat
  causeSrc : Nat
  incarn : Nat
  wiped : Bool
  misrBad : Bool := false
  flashOk : Bool
  thermHold : Bool
  bootHold : Bool
  noSlot : Bool
  fruRead : Bool
  fru : Option Fru
  discEpoch : Nat
  settle : Nat
  gateOpen : Bool
  lastUp : Nat
  derived : Bool
  swEpoch : Nat
  frozen : Bool
  lateAt : Option Nat
  switched : Bool
  oxroot : Option Nat
  deriving DecidableEq, Repr

/-- Cage states (Table 14.5). -/
inductive CageSt where
  | disabled | empty | wait | ramp | powered | fault
  deriving DecidableEq, Repr

/-- The code of a cage state (Table 14.5). -/
def CageSt.code : CageSt → Nat
  | .disabled => 0 | .empty => 1 | .wait => 2 | .ramp => 3 | .powered => 4 | .fault => 5

/-- CAGE_CONFIG's values (Table 14.8); `points` are (percent of I_NOM, time in 10 ms units). -/
structure CageCfg where
  slew : Nat
  tmax : Nat
  tamb : Nat
  inom : Nat
  ilim : Nat
  uv : Nat
  ov : Nat
  faultMs : Nat
  trestart : Nat
  rth : Nat
  tau : Nat
  rampMax : Nat
  rsense : Nat
  points : List (Nat × Nat)
  deriving DecidableEq, Repr

/-- A module cage (R349 to R360). `acc` is a fraction of a trip and `model` degrees, both exact. `step` is the step of R358
    in progress (0: none; 2: ModuleLowPwr was not reached; 3: too much power; 6: ModuleReady is late) since frame `stepAt`, `ready`: the
    hold of R328 is lifted; `fresh`: its next sample is the first after a restart of Tarn (R354). -/
structure Cage where
  st : CageSt
  gate : Bool
  timer : Nat
  acc : Rat
  model : Rat
  ramp : Nat
  winBad : Nat
  deb : Nat
  delay : Nat
  pg : Bool
  lim : Bool
  cause : Nat
  trips : Nat
  vin : Nat
  vout : Nat
  cur : Nat
  missed : Nat
  fast : Bool
  back : Bool
  fresh : Bool
  mstate : Nat
  step : Nat
  stepAt : Nat
  ready : Bool
  lowPwr : Bool
  passive : Bool
  disEpochs : Nat
  resetN : Bool
  lpmode : Bool
  cfg : CageCfg
  deriving DecidableEq, Repr

/-- A die region (R344 to R346). `vrun` masks the regions whose voltage differed by more than 100 mV in
    the last epoch (R345), `stretch` counts droops. -/
structure Region9 where
  level : Nat
  trim : Nat
  skew : Bool
  vrun : Nat
  stretch : Nat
  deriving DecidableEq, Repr

/-- Power (R338 to R348, R367, R368). `swd` holds the 180 domain states in Table 14.2's codes; `waitUp` those waiting to
    power up; `lastLevels` the levels before the last run of task 9; `started` the power-ups started in this frame, `hpOff` and `retain` what PWR_DOMAIN turned off or put in RETAIN. -/
structure Pwr where
  swd : List Nat
  waitUp : List Nat
  started : Nat
  hpOff : List Nat
  retain : List Nat
  vcore : Nat
  regions : List Region9
  lastLevels : List Nat
  temps : List Int
  volts : List Nat
  twarn : Nat
  vwarn : Nat
  limPend : Option (Nat × Nat)
  tHot : List Nat
  vHot : List Nat
  sampleFt : Nat
  tripped : Bool
  cages : List Cage
  quadLock : List Bool
  relockAt : Table Nat
  deriving DecidableEq, Repr

/-- A first-error capture (Table 17.4). -/
structure Capture where
  ft : Nat
  addr : Nat
  src : Nat
  cls : Nat
  cause : Nat
  access : Nat
  master : Nat
  inst : Nat
  detail : Nat
  later : Nat
  deriving DecidableEq, Repr

/-- A fault source (R409 to R413). `cls` is the latched class (0: FSW bit clear). -/
structure FSrc where
  cls : Nat
  lost : Bool
  handling : Bool
  floor : Nat
  wstart : Nat
  wcount : Nat
  last : Nat
  cap : Option Capture
  events : Nat
  n : Nat
  w : Nat
  ceil : Nat
  deriving DecidableEq, Repr

/-- The fault collector (R407 to R419). `notify` holds the masks of MCTP endpoints; those of functions are theirs. `wdAt` is
    the epoch in which the Tarn watchdog last expired (Table 13.2 cause 6). -/
structure Flt where
  srcs : List FSrc
  dcap : Option Capture
  autoreset : Nat
  fatalAt : Option Nat
  fatalSrc : Nat
  notify : Table Nat
  alive : Bool
  wdAt : Option Nat
  deriving DecidableEq, Repr

/-- A programmable counter (R421, R422): selection in force, and the one that the next frame tick takes up. -/
structure Ctr where
  ev : Nat
  thresh : Nat
  filter : Nat
  en : Bool
  val : Nat
  ovf : Bool
  pend : Option (Nat × Nat × Nat × Bool × Bool)
  deriving DecidableEq, Repr

/-- A counter block (R420, R423): its cycle counter and CTR0 to CTR7, and for a network port the flits of the running and
    the last complete bandwidth window. -/
structure Blk where
  cyc : Nat
  ctrs : List Ctr
  txRun : Nat
  rxRun : Nat
  txWin : Nat
  rxWin : Nat
  winFt : Nat
  deriving DecidableEq, Repr

/-- Counters and trace (R420 to R429). -/
structure Cnt where
  blks : Table Blk
  bwFrames : Nat
  trEn : Bool
  trTag : Bool
  trK : Nat
  trStages : Nat
  trSize : Nat
  trBase : Nat
  trHp : Nat
  trHead : Nat
  trTail : Nat
  trPhase : Bool
  trLost : Bool
  trQ : List (Nat × Nat × Nat × Nat × Nat × Packet)
  deriving DecidableEq, Repr

/-- A log record (Table 15.5), and whether it has been committed to flash. -/
structure LogRec where
  seq : Nat
  boot : Nat
  sev : Nat
  lost : Bool
  code : Nat
  src : Nat
  ft : Nat
  data : Nat
  inFlash : Bool
  inRam : Bool
  deriving DecidableEq, Repr

/-- The event log (R369, R370). -/
structure Log where
  recs : List LogRec
  nextSeq : Nat
  boot : Nat
  lostNext : Bool
  deriving DecidableEq, Repr

/-- A stored settings record: opcode, key, payload (R404). -/
structure SetRec where
  opcode : Nat
  key : Nat
  payload : Bytes
  deriving DecidableEq, Repr

/-- Slot states (Table 16.2). -/
inductive SlotSt where
  | empty | staging | staged | trialNext | trial | active | backup | invalid
  deriving DecidableEq, Repr

/-- The code of a slot state (Table 16.2). -/
def SlotSt.code : SlotSt → Nat
  | .empty => 0 | .staging => 1 | .staged => 2 | .trialNext => 3 | .trial => 4 | .active => 5 | .backup => 6 | .invalid => 7

/-- A copy of a slot's settings whose CRC is correct (R404): FORMAT, GEN and the records. -/
structure SetCopy where
  fmt : Nat
  gen : Nat
  recs : List SetRec
  deriving DecidableEq, Repr

/-- An image slot in flash (R388, R389, R404): its bundle as bytes received, and its settings copies A and B, where valid. `hops` says how the bundle was staged
    since the last reset: 0 through the mailbox, h from an OFFER with HOPS h above 0, none otherwise (R399, log entry 41). -/
structure Slot where
  st : SlotSt
  mdigest : Bytes
  blen : Nat
  data : Bytes
  hops : Option Nat
  setA : Option SetCopy
  setB : Option SetCopy
  deriving DecidableEq, Repr

/-- Who holds the staging lock (R393). -/
inductive Holder where
  | req (who : Requester) (token : Nat)
  | port (p : Nat)
  deriving DecidableEq, Repr

/-- The staging lock: holder, epoch of its last message, limit, the last write for R395's repeat, and the pulled data that stands beyond
    RECEIVED (R399). -/
structure Lock where
  holder : Holder
  lastEpoch : Nat
  limit : Nat
  slot : Nat
  lastOff : Nat
  lastData : Bytes
  early : List (Nat × Bytes)
  verifying : Bool
  deriving DecidableEq, Repr

/-- An activation or a revert in progress (R401, R402): the step to do next; `revert` restores the BACKUP slot. `before` is the slot and the
    trial window before the writes of step 1, which a roll-back restores; `undo` marks the way back of one (R46). -/
structure Activation where
  slot : Nat
  step : Nat
  revert : Bool
  failed : Bool
  owner : Option (Requester × Nat)
  trialEpochs : Nat
  before : Option (Slot × Nat) := none
  undo : Bool := false
  stopped : Bool := false
  deriving DecidableEq, Repr

/-- Firmware update (R387 to R406). -/
structure Upd where
  slots : List Slot
  run : Nat
  gen : Nat
  lock : Option Lock
  act : Option Activation
  trialEnd : Option Nat
  trialStart : Option Nat
  trialWin : Nat
  bcrGen : Nat
  bcrA : Bytes := []
  bcrB : Bytes := []
  lastEnd : Nat
  rejected : List Bytes
  frEn : Bool
  frRelay : Bool
  frDepth : Nat
  frMask : Nat
  frMaskSet : Bool
  pulls : List (Nat × Nat × Nat)
  offerStop : List (Nat × Bytes)
  offerAt : Table Nat
  idle : Nat
  idlePend : Option Nat
  vfDb : Nat
  vfDbNext : Nat
  msixPf : Nat
  msixPfNext : Nat
  msixVf : Nat
  msixVfNext : Nat
  settle : Nat
  trialS : Nat
  lockEpochs : Nat
  deriving DecidableEq, Repr

/-- A session key slot (R58, R375). -/
structure KeySlot where
  key : Option Bytes
  mask : Nat
  fails : Nat
  until_ : Nat
  deriving DecidableEq, Repr

/-- A live session (R57, R59, R376). -/
structure Session where
  who : Requester
  token : Nat
  slot : Nat
  families : Nat
  lastEpoch : Nat
  nonce : Bytes
  keySets : Nat
  deriving DecidableEq, Repr

/-- An open challenge (R56). -/
structure Challenge where
  who : Requester
  slot : Nat
  nonce : Bytes
  epoch : Nat
  deriving DecidableEq, Repr

/-- A measurement record (Table 15.10). -/
structure Meas where
  kind : Nat
  slot : Nat
  version : Nat
  svn : Nat
  digest : Bytes
  deriving DecidableEq, Repr

/-- An attestation report held for a requester (R380). -/
structure Report where
  who : Requester
  handle : Nat
  data : Bytes
  lastEpoch : Nat
  deriving DecidableEq, Repr

/-- A slot in a copy of the key store (R375): MASK, the encrypted key and its tag. -/
structure KeyRec where
  mask : Nat
  enc : Bytes
  tag : Bytes
  deriving DecidableEq, Repr

/-- A copy of the session key store in flash (R375): its generation, and its 16 slots; none where it is erased. -/
structure KeyCopy where
  gen : Nat
  slots : List KeyRec
  deriving DecidableEq, Repr

/-- Security and lifecycle (R373 to R385). `copies` are the copies A and B of the key store; `keys` is what Wellhead has loaded. `dbgLatch` and `fieldDebug` live in the always-on domain; `lcNew`
    are LC fuse bits blown since the last reset, `dbgNew` and `udsNew` those of DBGCNT and UDS_LOCK, which take effect at the next (R382); `kek`
    and `ids` are in the volatile key store while they are derived (R374); `certTail` are parts of the certificate beyond one whose write
    failed. -/
structure Sec where
  keys : List KeySlot
  copies : List KeyCopy
  sessions : List Session
  chals : List Challenge
  cert : Bytes
  certTotal : Nat
  idpk : Option Bytes
  meas : List Meas
  dbgLatch : Bool
  fieldDebug : Bool
  busyLc : Bool
  lcNew : BitVec 3
  dbgNew : BitVec 64 := 0
  udsNew : BitVec 1 := 0
  kek : Option Bytes := none
  ids : Option Bytes := none
  certTail : List (Nat × Bytes) := []
  lcTarget : Option Nat
  reports : List Report
  signing : Option (Requester × Nat × Bytes)
  nextHandle : Nat
  lastInc : Nat
  jtag : Nat
  deriving DecidableEq, Repr

/-- The fuse bank (Table 15.7). UID, UDS, ORDER and NPDIS are fixed; the rest only gain bits. -/
structure FuseBank where
  uid : Nat
  uds : BitVec 256
  rootKeys : List Bytes
  rootRev : BitVec 4
  order : Nat
  npdis : BitVec 16
  lc : BitVec 3
  dbgCnt : BitVec 64
  svnFloor : BitVec 64
  udsLock : BitVec 1
  deriving DecidableEq, Repr

/-- A fuse operation that Wellhead has begun (R382, R403, R441): the bits it blows. -/
inductive FuseOp where
  | lc (target : Nat)
  | svn (svn : Nat)
  deriving DecidableEq, Repr

/-- A flash operation that a command started (R376, R377, R372, R406): settings of a slot, the erasure of the log, a key slot, or a part of
    the identity certificate. -/
inductive FlashOp where
  | settings (slot fmt : Nat) (recs : List SetRec)
  | logClear
  | key (slot : Nat) (key : Option Bytes) (mask : Nat)
  | cert (off total : Nat) (data : Bytes)
  deriving DecidableEq, Repr

/-- What an accepted command waits for (R44, R46). -/
inductive Wait where
  | quiesce
  | ctxAbort (ctx deadline : Nat)
  | fnAbort (hp fn deadline ops orph pend drop : Nat)
  | deregister (hp idx : Nat)
  | invalidate (accs : List Nat)
  | commit
  | link (port : Nat)
  | lanes (port : Nat)
  | commCreate (mgid ctx : Nat)
  | psetDestroy (set : Nat)
  | psetRemove (set idx : Nat)
  | domain (swd target : Nat)
  | cage (cage : Nat)
  | cmis (cage : Nat)
  | flash (op : FlashOp)
  | verify
  | activate
  | bist (groups : List Nat) (logic memory : Bool) (recs : Bytes)
  | attest
  | lcFuse (target : Nat)
  | svnFuse (q : MbxReq)
  | lost
  deriving DecidableEq, Repr

/-- A response (Table 3.6). -/
structure Resp where
  opcode : Nat
  status : Nat
  tag : Nat
  dev : Nat
  ctx : Nat
  data : Bytes
  deriving DecidableEq, Repr

/-- An accepted command (R45): still running while `res` is none, then its result until MBX_RESULT reads it. `ctxId` is the
    context or function it names for the context-state byte; `tarn`: Tarn accepted it while the CC was away (R366). -/
structure Pend where
  who : Requester
  tag : Nat
  opcode : Nat
  ft : Nat
  wait : Wait
  res : Option Resp
  ctxId : Option Nat
  tarn : Bool := false
  deriving DecidableEq, Repr

/-- A request that waits for the CC to come back (R48): its mailbox command and its request. -/
structure Held where
  opcode : Nat
  req : MbxReq
  deriving DecidableEq, Repr

/-- The mailbox service (R45 to R48, R365). `subs` are the MCTP endpoints subscribed to admin events, `eids` the
    endpoint IDs assigned by bus, `onPcie` and `onI3c` the endpoints last heard over PCIe (R94) and over I3C (R363). -/
structure MbxSvc where
  pend : List Pend
  held : List Held
  ccUp : Bool
  subs : List Nat
  eids : Table Nat
  onPcie : List Nat
  onI3c : List Nat := []
  fuseOp : Option FuseOp
  deriving DecidableEq, Repr

/-- Pins and standby (R417, R434, R440, R442). -/
structure Pins where
  powered : Bool
  pwrOk : Bool
  resetN : Bool
  standby : Bool
  straps : Straps
  refSl : List Bool
  refHp : List Bool
  deferred : Option Nat
  deriving DecidableEq, Repr

/-- The state of the whole device but its fuses and the queue of commands. `out` is what it has driven onto its wires, in
    order, and `free` counts the free values drawn (log entry 3). Both are the model's own. -/
structure Sys where
  time : TimeSync
  dev : DevCtl
  svc : MbxSvc
  fns : Table Fn
  hps : List HPort
  ctxs : Table Ctx
  xl : Xlat
  te : Te
  me : Me
  ce : Ce
  pe : Pe
  rt : Rt
  nps : List NPrt
  start : Start
  pwr : Pwr
  flt : Flt
  cnt : Cnt
  log : Log
  upd : Upd
  sec : Sec
  pins : Pins
  out : List Out
  free : Nat
  deriving DecidableEq, Repr

end Sys2Proof.Machine
end

