-- ==== Sys2Proof/Machine/State.lean ====
section
/-!
DEFINITION. The state of the block, why a step may stop, and the state right after a power-on reset: WIPING, with every
register at the reset value the manual gives, and where it gives none at the value that log entries 4 to 8 name.
-/
namespace Sys2Proof.Machine

/-- The block's whole state: the commands that wait, first in first out; the fuse bank; and the rest of the device. -/
structure State where
  pending : List Instr
  fuse : FuseBank
  sys : Sys
  deriving DecidableEq, Repr

/-- Faults of a step. There are none: the manual gives every command of the table an effect in every state. -/
inductive Fault where
  deriving DecidableEq, Repr

/-- Why a step has no meaning. -/
inductive Refusal where
  /-- Raised by an arm of `exec` whose command is not modelled; safe, since nothing is said of what follows. -/
  | notModelled (mnemonic : String)
  deriving DecidableEq, Repr

/-- A shaper that is off (R91). -/
def Shaper.reset : Shaper := { rate := 0, burst := 0, tokens := 0, pend := none, added := 0 }

/-- A function's BAR0 registers at reset (Tables 3.2 to 3.4, 3.21, 3.22). -/
def Mbx.reset : Mbx :=
  { vector := 0, rsvdP := 0, drop := false, ovr := false, evtIe := false, rspIe := false, lastTag := 0, accepted := false,
    rspReady := false, held := false, adminHead := 0, xfHead := 0, reqBuf := [], rspBuf := [], admin := none, xfault := none }

/-- The dump registers at reset (Table 17.10). -/
def Dump.reset : Dump :=
  { period := 1, rsvdP := 0, en := false, base := 0, size := 0, head := 0, tail := 0, phase := true, sel := 0, own := false,
    dseq := 0, missed := 0, snap := none }

/-- Function `fn` of a host port at reset, under the settings hp.vf_db_pages, hp.msix_pf and hp.msix_vf (R72, R73, R100). -/
def Fn.reset (fn vfDb msixPf msixVf : Nat) : Fn :=
  { bme := false, ctxQuota := if fn = 0 then 4096 else min 192 vfDb, pdQuota := 16, tid := 0, s2En := false, s2Ad := false,
    s2Root := 0, shaper := Shaper.reset, mbx := Mbx.reset, msixSize := if fn = 0 then msixPf else msixVf, unmasked := [],
    msixPend := [], tph := false, flr := none, fnAbort := false, notifyMask := 0, notifyVec := 0, dump := Dump.reset,
    grants := 0, ctrs := List.replicate 8 0 }

/-- A host link at power-on: not trained (R325). -/
def HLink.reset : HLink :=
  { up := false, perst := true, crs := true, vfEn := false, mps := 128, mrrs := 512, ctoUs := 50000, ro := true, rate := 0, width := 0,
    flit := false, inReset := false }

/-- A host port at power-on; `bifd` is its strap (R71). -/
def HPort.reset (bifd : Bool) : HPort :=
  { bifd, a := HLink.reset, b := HLink.reset, reads := [], rdWait := [], nextTag := 0, vtime := 0,
    lastFin := [], rdy := [], reqQ := [], respQ := [], ej := [], regtab := none, windows := [], ctlb := [], dtlb := [], ownFeid := none }

/-- Fabric Time after a chip reset: 0 in FREE_RUN (Table 13.1, Table 2.1), its own root at default priority (R25, R36). -/
def TimeSync.reset : TimeSync :=
  { ft := 0, frac := 0, rate := 0, sync := .freeRun, setDone := false, upPort := none, rootPrio := 8, rootAddr := 0, dist := 0,
    conv := 0, offset := 0, prio := 8, ppsEn := false, ppsOrigin := none, ppsEdge := 0, ppsLock := false, ppsFaults := 0,
    colwin := 6, pendCfg := none, ovrFrame := 0, ovrNow := 0, epFrame := 0, epNow := 0, ovrCnt := List.replicate 11 0,
    ovrRun := List.replicate 11 0, epochDue := false, samp := none }

/-- The default pe.* settings (Table 9.8). -/
def PePol.reset : PePol :=
  { wHint := 4, wCong := 8, wFill := 8, wHops := 4, wOut := 4, rootPolicy := 0, spread := 128, refresh := 64, fnMax := 256 }

/-- Empty tables: CV is 0 and every valid bit is clear (R239). -/
def Bank.reset : Bank := { ep := [], grp := [], dv := [], cfg := 0 }

/-- The default route.* settings (Table 10.12). -/
def RtCfg.reset : RtCfg :=
  { nmEn := true, nmBias := 2048, revThresh := 1024, mgRate := 80, mgBurst := 64, dgRate := 320, dgBurst := 256 }

/-- A network port as the router sees it at reset: both buckets full (R265). -/
def RPort.reset : RPort :=
  { ripple := none, ripFrame := 0, ripNew := false, mg := 16384, dg := 65536, drr := [0, 0, 0], drrCls := 0, txq := [] }

/-- The router at power-on: Millpond mode (R258). -/
def Rt.reset : Rt :=
  { act := Bank.reset, sh := Bank.reset, mc := [], commit := none, copying := false, freeze := none, millpond := true,
    modePend := none, transfer := none, cfg := RtCfg.reset, cfgPend := none, weights := [], wPlan := [], wShadow := none, wValid := true,
    lastSlot := [], dig := [], dstart := 0, ports := List.replicate 64 RPort.reset, vcq := [], nextArr := 0, dgq := [],
    ownDg := 65536, mgq := [], ceOut := [], ccIn := [] }

/-- The INIT values of a JA64 (Table 11.7), with GOT 0 and UID 0. -/
def InitMsg.own : InitMsg :=
  { got := false, rsvD := 132, rsvH := 2, shD := 11200, shH := 4064, vmaxD := 4096, vmaxH := 2048, rord := 1536,
    window := 4096, version := 1, uid := 0 }

/-- Link-layer sequence and credit state on entering INIT (R273, R277, R288). -/
def LlSt.reset : LlSt :=
  { txseq := 0, nrx := 0, peer := InitMsg.own, gotInit := false, initMore := false, replay := [], held := [],
    named := [], retx := [], ackDue := false, sent := List.replicate 16 (0, 0), ret := List.replicate 16 (0, 0),
    cum := List.replicate 16 (0, 0), rcv := List.replicate 16 (0, 0),
    rep := List.replicate 16 (0, 0), rot := 15, hi := 0, auditBad := false }

/-- Lane settings before the wiring map gives any (R315): KR, default FEC, both lanes. -/
def SlCfg.reset : SlCfg := { chan := 0, fec := 0, train := 3, swapInv := 0, serWarn := 0 }

/-- A lane at reset: no signal (R311), SLIP 0 (R316). -/
def Lane.reset : Lane :=
  { sd := false, lock := false, snr := 0, eyeH := 0, eyeW := 0, freq := 0, txfir := 0, slip := 0, trained := false,
    lockEpoch := none }

/-- A network port at power-on: DISABLED (R272). -/
def NPrt.reset : NPrt :=
  { st := .disabled, admin := false, waitPwr := false, holdFrom := 0, attempts := 0, cause := 0, downs := 0, phase := 0,
    initAt := 0, upAt := 0, ll := LlSt.reset, lcq := [],
    tm := { rtt := none, echoTx := 0, echoRx := 0, echoV := false, offer := none, asym := 0, sentAt := none }, ctlAt := 0, losAt := none,
    lockAt := none, alignLost := false, txLanes := 0, rxLanes := 0, lreq := none, lsrv := none, lswitch := none, ltag := 0,
    hello := none, helloOk := false, helloAt := 0, helloSent := none, helloDue := false, helloTx := none, lastInc := 0, sl := SlCfg.reset,
    slNext := none, trainResult := 0, rxFec := 0, txFec := 0, aligned := false, corrUnits := 0, uncorrUnits := 0,
    corrSyms := 0, lane0 := Lane.reset, lane1 := Lane.reset,
    prbs := { lanes := 0, gen := false, check := false, pattern := 0, err0 := 0, err1 := 0, ui := 0 }, modFault := false, modMiss := false,
    addPhase := 0, serFec := 0 }

/-- Start-up state at the start of WIPING. -/
def Start.reset (cause src : Nat) : Start :=
  { cause, causeSrc := src, incarn := 0, wiped := false, flashOk := true, thermHold := false, bootHold := false, noSlot := false,
    fruRead := false, fru := none, discEpoch := 0, settle := 3072, gateOpen := false, lastUp := 0, derived := false,
    swEpoch := 0, frozen := false, lateAt := none, switched := false, oxroot := none }

/-- CAGE_CONFIG's defaults (Table 14.8). -/
def CageCfg.reset : CageCfg :=
  { slew := 10, tmax := 150, tamb := 70, inom := 8000, ilim := 12000, uv := 3000, ov := 3600, faultMs := 20, trestart := 90,
    rth := 200, tau := 500, rampMax := 50, rsense := 2000, points := [(105, 6000), (110, 1000), (120, 200), (130, 50)] }

/-- A cage at power-on: DISABLED, gate off (R349), its model at T_AMB. -/
def Cage.reset : Cage :=
  { st := .disabled, gate := false, timer := 0, acc := 0, model := 70, ramp := 0, winBad := 0, deb := 0, delay := 0,
    pg := false, lim := false, cause := 0, trips := 0, vin := 0, vout := 0, cur := 0, missed := 0, fast := false,
    back := false, fresh := false, mstate := 255, step := 0, stepAt := 0, ready := false, lowPwr := false, passive := false,
    disEpochs := 0, resetN := true, lpmode := true, cfg := CageCfg.reset }

/-- Domains that R338 keeps ON; the others are OFF (ports, quads and crossbar quads 0 to 15 follow their ports). -/
def Pwr.resetSwd : List Nat :=
  (List.range 180).map fun k => if k < 96 then 0 else if 104 ≤ k ∧ k < 120 then 0 else 2

/-- Power at power-on: the regulator starts at 0.75 V (R437), no region throttled. -/
def Pwr.reset : Pwr :=
  { swd := Pwr.resetSwd, waitUp := [], started := 0, hpOff := [], retain := [], vcore := 750,
    regions := List.replicate 9 { level := 0, trim := 0, skew := false, vrun := 0, stretch := 0 },
    lastLevels := List.replicate 9 0, temps := List.replicate 36 0, volts := List.replicate 24 0, twarn := 95, vwarn := 5, limPend := none, tHot := [],
    vHot := [], sampleFt := 0, tripped := false, cages := List.replicate 16 Cage.reset,
    quadLock := List.replicate 32 true, relockAt := [] }

/-- N, W and CEIL of a fault source at reset (Table 17.5). -/
def FSrc.defaults (k : Nat) : Nat × Nat × Nat :=
  if k < 64 then (8, 768, 2) else if k < 68 then (4, 768, 2) else if k < 95 then (4, 768, 3) else if k = 95 then (64, 768, 2)
  else if k < 112 then (4, 45777, 2) else if k < 114 then (3, 45777, 3) else if k < 116 then (4, 768, 2)
  else if k = 116 then (255, 1, 2) else (0, 1, 3)

/-- Fault source `k` at reset: not latched, FLOOR 1 (R410). -/
def FSrc.reset (k : Nat) : FSrc :=
  { cls := 0, lost := false, handling := false, floor := 1, wstart := 0, wcount := 0, last := 0, cap := none, events := 0,
    n := (FSrc.defaults k).1, w := (FSrc.defaults k).2.1, ceil := (FSrc.defaults k).2.2 }

/-- The fault collector at reset (R407, R414). -/
def Flt.reset : Flt :=
  { srcs := (List.range 128).map FSrc.reset, dcap := none, autoreset := 768, fatalAt := none, fatalSrc := 0xFFFF,
    notify := [], alive := false, wdAt := none }

/-- Counters and trace at reset (R420, R423, Table 17.10). -/
def Cnt.reset : Cnt :=
  { blks := [], bwFrames := 2048, trEn := false, trTag := false, trK := 0, trStages := 0, trSize := 0, trBase := 0, trHp := 0,
    trHead := 0, trTail := 0, trPhase := true, trLost := false, trQ := [] }

/-- An erased image slot. -/
def Slot.reset : Slot :=
  { st := .empty, mdigest := List.replicate 32 0, blen := 0, data := [], hops := none, setA := none, setB := none }

/-- Update state over erased flash, with the default settings (R397, Table 16.10). -/
def Upd.reset : Upd :=
  { slots := [Slot.reset, Slot.reset], run := 0, gen := 0, lock := none, act := none, trialEnd := none, trialStart := none, trialWin := 0, bcrGen := 0,
    lastEnd := 0, rejected := [], frEn := true, frRelay := true, frDepth := 3, frMask := 0, frMaskSet := false, pulls := [],
    offerStop := [], offerAt := [], idle := 45777, idlePend := none, vfDb := 512, vfDbNext := 512, msixPf := 256, msixPfNext := 256,
    msixVf := 28, msixVfNext := 28, settle := 3072, trialS := 600, lockEpochs := 45777 }

/-- Security state over erased flash: 16 empty key slots (R375). -/
def Sec.reset : Sec :=
  { keys := List.replicate 16 { key := none, mask := 0, fails := 0, until_ := 0 }, copies := List.replicate 2 { gen := 0, slots := [] }, sessions := [], chals := [],
    cert := [], certTotal := 0, idpk := none, meas := [], dbgLatch := false, fieldDebug := false, busyLc := false, lcNew := 0,
    lcTarget := none, reports := [], signing := none, nextHandle := 1, lastInc := 0, jtag := 0 }

/-- The device right after a reset of the given cause and source, with the given straps, over erased flash and with every
    cage off: what a power-on leaves (Table 13.1). -/
def Sys.fresh (st : Straps) (cause src : Nat) : Sys :=
  { time := TimeSync.reset, dev := { st := .wiping, prev := .wiping, ftTrans := 0, stageFrom := .ready, quiescing := false },
    svc := { pend := [], held := [], ccUp := false, subs := [], eids := [], onPcie := [], fuseOp := none }, fns := [],
    hps := (List.range 4).map fun n => HPort.reset (st.hpBif.testBit n), ctxs := [],
    xl := { pds := [], l2 := [], wc1 := [], wc2 := [], accs := [], fin := [], nextAcc := 0, holds := [], nextFault := 1, age := 0,
            agePend := none },
    te := { peers := [], ops := [], segs := [], gens := [], nextOp := 0, srcs := [], asms := [], results := [], rto := 128,
            retryLimit := 6, nackLimit := 64, peerIssue := 1024, atomQ := [] },
    me := { msgs := [], nextMsg := 0 },
    ce := { comms := [], grants := [], joinEpochs := 768, beatFrames := 1024, colIn := [] },
    pe := { sets := [], pol := PePol.reset, polPend := none, cands := [], candQ := [], rr := 0,
            plan := { sets := [], cands := [], trees := [] }, batchDone := false, links := [], digs := [] },
    rt := Rt.reset, nps := List.replicate 64 NPrt.reset, start := Start.reset cause src, pwr := Pwr.reset, flt := Flt.reset,
    cnt := Cnt.reset, log := { recs := [], nextSeq := 0, boot := 0, lostNext := false }, upd := Upd.reset, sec := Sec.reset,
    pins := { powered := true, pwrOk := true, resetN := true, standby := false, straps := st,
              refSl := List.replicate 4 true, refHp := List.replicate 4 true, deferred := none },
    out := [], free := 0 }

/-- A blank JA64-F2's fuses (Table 15.7): order code 0x01, no port fused off, nothing blown. -/
def FuseBank.blank : FuseBank :=
  { uid := 0, uds := 0, rootKeys := List.replicate 4 (List.replicate 32 0), rootRev := 0, order := 1, npdis := 0, lc := 0, dbgCnt := 0,
    svnFloor := 0, udsLock := 0 }

/-- The block right after a power-on reset (R439), with open straps and an empty queue. -/
def State.reset : State :=
  { pending := [], fuse := FuseBank.blank, sys := Sys.fresh { hpBif := 0, fltMode := false, tarnAddr := 0, bootSrc := false } 1 0xFFFF }

end Sys2Proof.Machine
end

