-- ==== Sys2Proof/Machine/Memory.lean ====
section
/-!
DEFINITION. Tables, byte strings and the addressed buffers. A buffer (a mailbox's request or response buffer) is a list of
cells in one canonical form: addresses strictly rising, no cell holding what an unlisted address reads as, which is 0 (the
SRAM is zeroised at reset, Table 13.1).
-/
namespace Sys2Proof.Machine

/-- The entry of a table at an index. -/
def tget {α : Type} : Table α → Nat → Option α
  | [], _ => none
  | (i, a) :: t, k => if i = k then some a else tget t k

/-- A table with the entry at an index replaced or put in its place. -/
def tset {α : Type} : Table α → Nat → α → Table α
  | [], k, v => [(k, v)]
  | (i, a) :: t, k, v => if k < i then (k, v) :: (i, a) :: t else if k = i then (k, v) :: t else (i, a) :: tset t k v

/-- A table without the entry at an index. -/
def tdel {α : Type} (t : Table α) (k : Nat) : Table α := t.filter fun e => e.1 ≠ k

/-- What the table's entries become under a function of index and entry. -/
def tmap {α : Type} (t : Table α) (g : Nat → α → α) : Table α := t.map fun e => (e.1, g e.1 e.2)

/-- `n` bits of a number from bit `lo` on. -/
def bits (v lo n : Nat) : Nat := v / 2 ^ lo % 2 ^ n

/-- A number as `n` bytes, least significant first (R5). -/
def le : Nat → Nat → Bytes
  | 0, _ => []
  | n + 1, v => BitVec.ofNat 8 v :: le n (v / 256)

/-- The number that bytes spell, least significant first (R5). -/
def nat : Bytes → Nat
  | [] => 0
  | b :: t => b.toNat + 256 * nat t

/-- `n` bytes of a string from `off` on. -/
def sub (b : Bytes) (off n : Nat) : Bytes := (b.drop off).take n

/-- The number in `n` bytes from `off` on. -/
def num (b : Bytes) (off n : Nat) : Nat := nat (sub b off n)

/-- `n` zero bytes. -/
def zeros (n : Nat) : Bytes := List.replicate n 0

/-- A string cut or filled with zeros to `n` bytes. -/
def fit (n : Nat) (b : Bytes) : Bytes := b.take n ++ zeros (n - b.length)

/-- Bytes combined by exclusive or. -/
def xorBytes (a b : Bytes) : Bytes := List.zipWith (fun x y => x ^^^ y) a b

/-- Cells of a buffer. -/
abbrev Memory := List Host.Cell

/-- The canonical form: addresses strictly rising, no cell holds 0. -/
def Memory.wf : Memory → Bool
  | [] => true
  | [c] => c.2 ≠ 0
  | c :: d :: m => c.2 ≠ 0 && c.1 < d.1 && Memory.wf (d :: m)

/-- The byte at an address; 0 where nothing is listed. -/
def Memory.read : Memory → Nat → Byte
  | [], _ => 0
  | c :: m, a => if c.1 = a then c.2 else Memory.read m a

/-- A cell put into its place. -/
def Memory.putCell : Memory → Nat → Byte → Memory
  | [], a, b => [(a, b)]
  | c :: m, a, b => if a < c.1 then (a, b) :: c :: m else c :: Memory.putCell m a b

/-- One byte written: the cell of the address goes, and one that does not hold 0 takes its place. -/
def Memory.write (m : Memory) (a : Nat) (b : Byte) : Memory :=
  let m := m.filter fun c => c.1 ≠ a
  if b = 0 then m else Memory.putCell m a b

/-- A byte string written from an address on. -/
def Memory.writeAll : Memory → Nat → Bytes → Memory
  | m, _, [] => m
  | m, a, b :: t => Memory.writeAll (m.write a b) (a + 1) t

/-- `n` bytes read from an address on. -/
def Memory.readAll (m : Memory) (a : Nat) : Nat → Bytes
  | 0 => []
  | n + 1 => m.read a :: Memory.readAll m (a + 1) n

end Sys2Proof.Machine
end

