-- ==== Sys2Proof/Machine/Ops.lean ====
section
/-!
DEFINITION. The named operations on the device that several chapters share: reading and updating a function, a port, a
context; the frame and epoch of Fabric Time; counting an event; a log record; a write or an interrupt to the host; an admin
event; a change of the device state; and FAULT_EVENT, the one operation by which any part raises a fault (R409 to R416).
-/
namespace Sys2Proof.Machine

/-- The frame number (R8). -/
def frame (s : Sys) : Nat := s.time.ft / 1024

/-- The epoch number (R8). -/
def epoch (s : Sys) : Nat := s.time.ft / 2097152

/-- The port is fused off (R2, NPDIS of Table 15.7). -/
def fusedOff (f : FuseBank) (p : Nat) : Bool := decide (48 ≤ p) && f.npdis.getLsbD (p - 48)

/-- NP_MASK of IDENTIFY: the enabled network ports (Table 3.14). -/
def npMask (f : FuseBank) : Nat := 2 ^ 64 - 1 - f.npdis.toNat * 2 ^ 48

/-- The key of a function in the table of functions. -/
def fnKey (hp fn : Nat) : Nat := hp * 64 + fn

/-- A function's registers and settings; one that nothing has touched is at reset. -/
def getFn (s : Sys) (hp fn : Nat) : Fn :=
  (tget s.fns (fnKey hp fn)).getD (Fn.reset fn s.upd.vfDb s.upd.msixPf s.upd.msixVf)

/-- A function replaced. -/
def setFn (s : Sys) (hp fn : Nat) (g : Fn) : Sys := { s with fns := tset s.fns (fnKey hp fn) g }

/-- A function changed. -/
def modFn (s : Sys) (hp fn : Nat) (g : Fn → Fn) : Sys := setFn s hp fn (g (getFn s hp fn))

/-- A function's mailbox changed. -/
def modMbx (s : Sys) (hp fn : Nat) (g : Mbx → Mbx) : Sys := modFn s hp fn fun x => { x with mbx := g x.mbx }

/-- A host port; one beyond the four is at reset. -/
def getHp (s : Sys) (hp : Nat) : HPort := s.hps.getD hp (HPort.reset false)

/-- A host port changed. -/
def modHp (s : Sys) (hp : Nat) (g : HPort → HPort) : Sys := { s with hps := s.hps.modify hp g }

/-- A network port; one beyond the 64 is at reset. -/
def getNp (s : Sys) (p : Nat) : NPrt := s.nps.getD p NPrt.reset

/-- A network port changed. -/
def modNp (s : Sys) (p : Nat) (g : NPrt → NPrt) : Sys := { s with nps := s.nps.modify p g }

/-- The router's side of a network port. -/
def getRp (s : Sys) (p : Nat) : RPort := s.rt.ports.getD p RPort.reset

/-- The router's side of a network port changed. -/
def modRp (s : Sys) (p : Nat) (g : RPort → RPort) : Sys := { s with rt := { s.rt with ports := s.rt.ports.modify p g } }

/-- A context that is not FREE. -/
def getCtx (s : Sys) (c : Nat) : Option Ctx := tget s.ctxs c

/-- A context changed, if it is not FREE. -/
def modCtx (s : Sys) (c : Nat) (g : Ctx → Ctx) : Sys :=
  match tget s.ctxs c with
  | none => s
  | some x => { s with ctxs := tset s.ctxs c (g x) }

/-- Whether a function belongs to link B of its port (R71). -/
def onLinkB (s : Sys) (hp fn : Nat) : Bool := (getHp s hp).bifd && decide (32 ≤ fn)

/-- The link that presents a function. -/
def linkOf (s : Sys) (hp fn : Nat) : HLink := if onLinkB s hp fn then (getHp s hp).b else (getHp s hp).a

/-- One link of a host port. -/
def getLink (s : Sys) (hp : Nat) (b : Bool) : HLink := if b then (getHp s hp).b else (getHp s hp).a

/-- One link of a host port changed. -/
def modLink (s : Sys) (hp : Nat) (b : Bool) (g : HLink → HLink) : Sys :=
  modHp s hp fun h => if b then { h with b := g h.b } else { h with a := g h.a }

/-- A function is presented: the PF always, a VF while VF Enable of its link is set (R93). -/
def fnPresent (s : Sys) (hp fn : Nat) : Bool := fn = 0 || (linkOf s hp fn).vfEn

/-- Something driven onto the device's wires. -/
def emit (s : Sys) (o : Out) : Sys := { s with out := s.out ++ [o] }

/-- The counter of free values advanced: the draw that was made used the value before. -/
def draw (s : Sys) : Sys := { s with free := s.free + 1 }

/-- A counter block with nothing counted (R420). -/
def Blk.zero : Blk :=
  { cyc := 0, ctrs := List.replicate 8 { ev := 0, thresh := 0, filter := 0, en := false, val := 0, ovf := false, pend := none },
    txRun := 0, rxRun := 0, txWin := 0, rxWin := 0, winFt := 0 }

/-- A counter block. -/
def getBlk (s : Sys) (b : Nat) : Blk := (tget s.cnt.blks b).getD Blk.zero

/-- A counter block changed. -/
def modBlk (s : Sys) (b : Nat) (g : Blk → Blk) : Sys :=
  { s with cnt := { s.cnt with blks := tset s.cnt.blks b (g (getBlk s b)) } }

/-- A programmable counter takes `n` more, wrapping at 48 bits with its OVF bit (R421). -/
def Ctr.bump (c : Ctr) (n : Nat) : Ctr :=
  { c with val := (c.val + n) % 2 ^ 48, ovf := c.ovf || decide (2 ^ 48 ≤ c.val + n) }

/-- `n` events of code `ev` in block `b` are counted by every enabled counter that selects them and whose FILTER admits them
    (R421). -/
def count (s : Sys) (b ev n : Nat) (admits : Nat → Bool := fun _ => true) : Sys :=
  modBlk s b fun k => { k with ctrs := k.ctrs.map fun c => if c.en && c.ev == ev && admits c.filter then c.bump n else c }

/-- A VC mask of a FILTER admits a VC; 0 admits all (Table 17.9). -/
def vcFilter (vc flt : Nat) : Bool := flt == 0 || flt.testBit vc

/-- Flits sent by a port on a VC, link-control packets on VC15 (R421, R423). -/
def flitsOut (s : Sys) (p vc len : Nat) : Sys :=
  modBlk (count s p 0x40 len (vcFilter vc)) p fun b => { b with txRun := b.txRun + len }

/-- Flits received by a port on a VC (R421, R423). -/
def flitsIn (s : Sys) (p vc len : Nat) : Sys :=
  modBlk (count s p 0x41 len (vcFilter vc)) p fun b => { b with rxRun := b.rxRun + len }

/-- An FN filter admits a function; without bit 15 it admits all (Table 17.9). -/
def fnFilter (fn flt : Nat) : Bool := !flt.testBit 15 || flt % 64 == fn

/-- A function counter of R424 takes `n` more; `k` counts from 0. -/
def fnCount (s : Sys) (hp fn k n : Nat) : Sys :=
  modFn s hp fn fun g => { g with ctrs := g.ctrs.modify k fun v => (v + n) % 2 ^ 48 }

/-- Fabric Time is set: by an exchange (R26), or, on a device that leaves DISCOVERY without one, as that leaves it, since time is never set
    after it (log entry 156). -/
def timeSet (s : Sys) : Bool := s.time.setDone || match s.dev.st with | .wiping | .boot | .discovery => false | _ => true

/-- The timebase and everything it clocks is off: after a thermal trip and in standby (R347, R440). -/
def dark (s : Sys) : Bool := s.pwr.tripped || s.pins.standby

/-- A log record is written to the RAM ring (R369, R370, Table 15.6). A ring of 2,048 that overwrites an uncommitted record
    makes the next record carry LOST. -/
def logW (s : Sys) (code sev src data : Nat) : Sys :=
  let ram := s.log.recs.filter (·.inRam)
  let full := decide (2048 ≤ ram.length)
  let oldest := (ram.map (·.seq)).headD 0
  let recs := if full then
      (s.log.recs.map fun r => if r.inRam && r.seq == oldest then { r with inRam := false } else r).filter
        fun r => r.inRam || r.inFlash
    else s.log.recs
  let lostNow := full && (ram.headD { seq := 0, boot := 0, sev := 0, lost := false, code := 0, src := 0, ft := 0, data := 0,
                                       inFlash := true, inRam := true }).inFlash == false
  { s with log := { s.log with
      recs := recs ++ [{ seq := s.log.nextSeq, boot := s.log.boot, sev, lost := s.log.lostNext, code, src,
                         ft := if timeSet s then s.time.ft else 0, data,
                         inFlash := false, inRam := true }],
      nextSeq := s.log.nextSeq + 1, lostNext := lostNow } }

/-- The data of a write cut to the maximum payload size (R68), within `fuel` pieces. -/
def tlps (mps : Nat) : Nat → Nat → Bytes → List (Nat × Bytes)
  | 0, _, _ => []
  | fuel + 1, addr, d =>
    if d.length ≤ mps ∨ mps = 0 then [(addr, d)] else (addr, d.take mps) :: tlps mps fuel (addr + mps) (d.drop mps)

/-- A posted write of the device (R68, R70, R74): nothing goes out while Bus Master Enable is clear or the link is down. The hint of a steered
    write is the tag that the function's steering-tag table holds at its index, and goes out with TPH Requester enabled. -/
def hostWrite (s : Sys) (hp fn addr : Nat) (data : Bytes) (ro : Bool) (steer : Option Nat) : Sys :=
  let g := getFn s hp fn
  let l := linkOf s hp fn
  if g.bme && l.up then
    let tag := if g.tph then steer.map fun i => (tget g.stTab i).getD 0 else none
    let out := (tlps l.mps (data.length + 1) addr data).map fun p => Out.write hp fn p.1 p.2 (ro && l.ro) tag
    count { s with out := s.out ++ out } (64 + hp) 0x40 data.length
  else s

/-- An interrupt on an MSI-X vector: beyond the table none, masked sets its pending bit (R73). -/
def msix (s : Sys) (hp fn vec : Nat) : Sys :=
  let g := getFn s hp fn
  if g.msixSize ≤ vec then s
  else if g.unmasked.contains vec && g.bme && (linkOf s hp fn).up then emit s (.msix hp fn vec)
  else if g.msixPend.contains vec then s
  else setFn s hp fn { g with msixPend := g.msixPend ++ [vec] }

/-- The pending messages of a function that can be sent are sent: their vectors are not masked, and the function is a bus master on a link
    that is up (R73; log entry 148). -/
def msixFlush (s : Sys) (hp fn : Nat) : Sys :=
  let g := getFn s hp fn
  let go := g.msixPend.filter g.unmasked.contains
  if g.bme && (linkOf s hp fn).up then
    go.foldl (fun s v => msix s hp fn v) (setFn s hp fn { g with msixPend := g.msixPend.filter fun v => !g.unmasked.contains v })
  else s

/-- The next entry of an admin or fault ring is taken: its index, PHASE and LOST, and the ring after it (R52). -/
def EvRing.push (r : EvRing) : Nat × Bool × Bool × EvRing :=
  let lost := decide (r.count ≤ r.unread)
  (r.widx, r.phase, lost,
   { r with widx := (r.widx + 1) % r.count, phase := if r.widx + 1 = r.count then !r.phase else r.phase,
            unread := min r.count (r.unread + 1) })

/-- A head register written: entries before it are consumed (R52, R53). A head equal to the oldest unread entry consumes
    nothing; a head that no unread entry reaches is the same as the write index (log entry 12). -/
def EvRing.headTo (r : EvRing) (head : Nat) : EvRing :=
  let left := (r.widx + r.count - head % r.count) % r.count
  let left := if left = 0 ∧ r.unread = r.count ∧ head % r.count = r.widx then r.count else left
  { r with unread := if left ≤ r.unread then left else r.unread }

/-- The bytes of an admin event (Table 3.12) but its PHASE and LOST flags. -/
structure AEv where
  type : Nat
  tag : Nat
  opcode : Nat
  status : Nat
  new : Nat
  old : Nat
  progress : Nat
  reason : Nat
  deriving DecidableEq, Repr

/-- An admin event with every field zero but its type. -/
def AEv.of (type : Nat) : AEv :=
  { type, tag := 0, opcode := 0, status := 0, new := 0, old := 0, progress := 0, reason := 0 }

/-- The 32 bytes of an admin event (Table 3.12). -/
def AEv.bytes (e : AEv) (flags ft : Nat) : Bytes :=
  le 1 e.type ++ le 1 flags ++ le 2 e.tag ++ le 2 e.opcode ++ le 2 e.status ++ le 1 e.new ++ le 1 e.old ++ le 2 e.progress ++
    le 4 e.reason ++ le 8 ft ++ zeros 8

/-- A flag as a bit. -/
def b2n (b : Bool) : Nat := if b then 1 else 0

/-- An admin event written to a function's ring, with its interrupt under EVT_IE; without a ring it is dropped (R52). -/
def adminFn (s : Sys) (hp fn : Nat) (e : AEv) : Sys :=
  match (getFn s hp fn).mbx.admin with
  | none => s
  | some r =>
    let (i, ph, lost, r') := r.push
    let s := modMbx s hp fn fun m => { m with admin := some r' }
    let s := hostWrite s hp fn (r.base + 32 * i) (e.bytes (b2n ph + 2 * b2n lost) s.time.ft) false none
    if (getFn s hp fn).mbx.evtIe then msix s hp fn (getFn s hp fn).mbx.vector.toNat else s

/-- A Korfel message to an MCTP endpoint (Table 15.2): kind, header and payload. -/
def korfelMsg (kind : Nat) (body : Bytes) : Bytes :=
  le 1 0x7F ++ [0x00, 0xF4, 0x2A, 0x91] ++ le 1 kind ++ zeros 2 ++ body

/-- MCTP reaches an endpoint: over PCIe only while HP0's link is up (R94). -/
def mctpUp (s : Sys) (eid : Nat) : Bool := !s.svc.onPcie.contains eid || (getHp s 0).a.up

/-- A message is sent to an MCTP endpoint; on I3C an in-band interrupt says that it is pending (R363). -/
def mctpOut (s : Sys) (eid : Nat) (data : Bytes) : Sys :=
  if mctpUp s eid then emit (if s.svc.onI3c.contains eid then emit s (.ibi eid) else s) (.mctp eid data) else s

/-- An endpoint is where its last message came from: bus 0 is I3C, 1 SMBus, 2 PCIe (log entry 134). -/
def heardOver (s : Sys) (eid bus : Nat) : Sys :=
  let on := fun (k : Nat) (l : List Nat) => if bus = k then (l.filter fun e => e != eid) ++ [eid] else l.filter fun e => e != eid
  { s with svc := { s.svc with onPcie := on 2 s.svc.onPcie, onI3c := on 0 s.svc.onI3c } }

/-- A Korfel message is one that Tarn takes (R364): Korfel's IANA number, a mailbox request, to the null endpoint ID or the one assigned on its
    bus; over PCIe nothing comes while HP0's link is down (R94). -/
def viaOk (s : Sys) (v : MctpVia) : Bool :=
  v.iana == 0x00F42A91 && v.kind == 1 && (v.dst == 0 || tget s.svc.eids v.bus == some v.dst) && !(v.bus == 2 && !(getHp s 0).a.up)

/-- An admin event for a requester: to the function's ring, or once to a subscribed MCTP endpoint (R52, R365). -/
def adminTo (s : Sys) (who : Requester) (e : AEv) : Sys :=
  match who with
  | .fn hp fn => adminFn s hp fn e
  | .mctp eid => if s.svc.subs.contains eid then mctpOut s eid (korfelMsg 3 (e.bytes 0 s.time.ft)) else s

/-- An admin event to every function's ring and every subscribed endpoint. -/
def adminAll (s : Sys) (e : AEv) : Sys :=
  let s := s.fns.foldl (fun s g => adminFn s (g.1 / 64) (g.1 % 64) e) s
  s.svc.subs.foldl (fun s eid => adminTo s (.mctp eid) e) s

/-- The device changes state and posts DEV_STATE to every function's admin ring (R60). -/
def setDev (s : Sys) (st : DevState) : Sys :=
  if s.dev.st = st then s
  else
    let old := s.dev.st
    let s := { s with dev := { s.dev with st := st, prev := old, ftTrans := s.time.ft } }
    adminAll s { AEv.of 0xE3 with new := st.code, old := old.code }

/-- A fault source. -/
def getSrc (s : Sys) (k : Nat) : FSrc := s.flt.srcs.getD k (FSrc.reset k)

/-- A fault source changed. -/
def modSrc (s : Sys) (k : Nat) (g : FSrc → FSrc) : Sys := { s with flt := { s.flt with srcs := s.flt.srcs.modify k g } }

/-- A DEGRADING fault is uncleared (Table 3.15 DEGR). -/
def degr (s : Sys) : Bool := s.flt.srcs.any fun x => x.cls == 2

/-- READY or DEGRADED, as the uncleared faults have it (Table 3.10). -/
def readyOr (s : Sys) : DevState := if degr s then .degraded else .ready

/-- READY and DEGRADED follow the uncleared DEGRADING faults (R60). -/
def regrade (s : Sys) : Sys :=
  match s.dev.st with
  | .ready | .degraded => setDev s (readyOr s)
  | _ => s

/-- No FSW bit is set. -/
def fswZero (s : Sys) : Bool := s.flt.srcs.all fun x => x.cls == 0

/-- The FSW as a number (R407). -/
def fsw (s : Sys) : Nat := (s.flt.srcs.mapIdx fun i x => if x.cls = 0 then 0 else 2 ^ i).sum

/-- What an event carries into a capture (R411, Table 17.4). -/
structure FEv where
  src : Nat
  cause : Nat
  cls : Nat
  detail : Nat
  addr : Nat
  access : Nat
  master : Nat
  inst : Nat
  deriving DecidableEq, Repr

/-- The requesters whose mask names a source are notified (R416). -/
def notifyFault (s : Sys) (k : Nat) : Sys :=
  let s := s.fns.foldl (fun s g => if g.2.notifyMask.testBit k then msix s (g.1 / 64) (g.1 % 64) g.2.notifyVec else s) s
  s.flt.notify.foldl (fun s e => if e.2.testBit k then emit s (.ibi e.1) else s) s

/-- A capture of an event (R411). -/
def FEv.cap (e : FEv) (ft c : Nat) : Capture :=
  { ft, addr := e.addr, src := e.src, cls := c, cause := e.cause, access := e.access, master := e.master, inst := e.inst,
    detail := e.detail, later := 0 }

/-- latch (R411). -/
def latch (s : Sys) (e : FEv) (c : Nat) : Sys :=
  let was := getSrc s e.src
  let zero := fswZero s
  let s := modSrc s e.src fun x =>
    { x with cls := max x.cls c,
             cap := if was.cls = 0 then some (e.cap s.time.ft c)
                    else x.cap.map fun k => { k with later := min (2 ^ 32 - 1) (k.later + 1) } }
  let s := { s with flt := { s.flt with
      dcap := if zero then some (e.cap s.time.ft c)
              else s.flt.dcap.map fun k => if k.src = e.src then { k with later := min (2 ^ 32 - 1) (k.later + 1) } else k } }
  if was.cls = 0 then notifyFault s e.src else s

/-- The trial's health fails: Tarn starts the revert by the steps of Table 16.9 (R402), also while the activation that began the trial still
    runs its own, whose command then ends INTERNAL; `why` is LAST_END's code. -/
def healthFail (s : Sys) (why : Nat) : Sys :=
  match s.upd.slots.findIdx? (·.st == .trial) with
  | none => s
  | some k =>
    let u : Upd := { s.upd with lastEnd := why, trialEnd := none, trialStart := none }
    match s.upd.act with
    | none => { s with upd := { u with
        act := some { slot := 1 - k, step := 1, revert := true, failed := false, owner := none, trialEpochs := 0 } } }
    | some a =>
      if a.revert then s else { s with upd := { u with act := some { a with slot := 1 - k, step := 1, revert := true, failed := true } } }

/-- The reaction of Table 17.6 to an event of class `c`. -/
def react (s : Sys) (k c : Nat) : Sys :=
  if c = 3 then
    let s := if s.dev.st = .wiping then s else setDev s .fault
    let s := { s with flt := { s.flt with fatalAt := s.flt.fatalAt.or (some (epoch s)),
                                          fatalSrc := if s.flt.fatalAt.isNone then k else s.flt.fatalSrc } }
    healthFail s 4
  else if c = 2 then regrade s
  else s

/-- FAULT_EVENT (R409 to R411, R414, R416): an event of a source is classed, latched, counted, promoted and reacted to. A
    second event while the first is being handled is lost. Handling of a class below FATAL ends at FAULT_HANDLING_END. -/
def raise (s : Sys) (e : FEv) : Sys :=
  let x := getSrc s e.src
  if 122 ≤ e.src then s
  else
    let s := modSrc s e.src fun x => { x with events := min (2 ^ 32 - 1) (x.events + 1) }
    if x.handling then modSrc s e.src fun x => { x with lost := true }
    else
      let ep := epoch s
      let fresh := decide (x.wcount = 0) || decide (x.w ≤ ep - x.wstart)
      let cnt := if x.n = 0 then x.wcount else (if fresh then 0 else x.wcount) + 1
      let prom := decide (x.n ≠ 0) && decide (x.n ≤ cnt) && decide (x.floor < x.ceil)
      let floor := if prom then min x.ceil (max x.floor e.cls + 1) else x.floor
      let s := modSrc s e.src fun x =>
        { x with handling := true, wstart := if x.n ≠ 0 ∧ fresh then ep else x.wstart,
                 wcount := if prom then 0 else cnt, floor := floor, last := ep }
      let s := if prom then notifyFault (logW s 0x0011 2 e.src floor) e.src else s
      let c := max e.cls floor
      react (latch s e c) e.src c

/-- A CORRECTABLE or other event of a source with nothing but its cause, class and detail. -/
def fault (s : Sys) (src cause cls detail master inst : Nat) : Sys :=
  raise s { src, cause, cls, detail, addr := 0, access := 0, master, inst }

end Sys2Proof.Machine
end

