-- ==== Sys2Proof/Machine/Pkt.lean ====
section
/-!
DEFINITION. The packet: CRC-32 (R129), the header flit (Tables 6.1 and 8.8), its class (Table 10.9), its length (R130), age
(R262), counting and tracing of what happens to it, and the credits its buffer returns (R289).
-/
namespace Sys2Proof.Machine

/-- One bit of the reflected CRC-32 division by 0x04C1_1DB7. -/
def crcBit (c : Nat) : Nat := if c % 2 = 1 then (c / 2) ^^^ 0xEDB88320 else c / 2

/-- One byte of the CRC-32. -/
def crcByte (c : Nat) (b : Byte) : Nat :=
  crcBit (crcBit (crcBit (crcBit (crcBit (crcBit (crcBit (crcBit (c ^^^ b.toNat))))))))

/-- The IEEE 802.3 CRC-32 of a byte string (R129). -/
def crc32 (b : Bytes) : Nat := b.foldl crcByte 0xFFFFFFFF ^^^ 0xFFFFFFFF

end Sys2Proof.Machine
namespace Sys2Proof
open Sys2Proof.Machine

/-- Bits 12:0 of bytes 56 to 59 (Table 6.1). -/
def Packet.plen (p : Packet) : Nat := p.w56 % 8192

/-- FSEG: the packet belongs to the final segment of its operation. -/
def Packet.fseg (p : Packet) : Bool := p.w56.testBit 13

/-- LUO: the low 16 bits of the lowest uncompleted OSN. -/
def Packet.luo (p : Packet) : Nat := bits p.w56 16 16

/-- An atomic OP: ATOMIC, FETCH_ATOMIC or CSWAP (Table 6.3). -/
def isAtomicOp (op : Nat) : Bool := op == 4 || op == 5 || op == 6

/-- The OPs of Table 8.9 that carry a payload. -/
def colHasPayload (op : Nat) : Bool := op == 1 || op == 2 || op == 8 || op == 9

/-- The payload length a header states: none for an atomic (R130), from OPERAND for a collective (R204). -/
def Packet.payLen (p : Packet) : Nat :=
  if p.kind = 2 then (if colHasPayload p.op then p.operand % 8192 else 0)
  else if p.kind = 0 ∧ isAtomicOp p.op then 0 else p.plen

/-- LEN of a packet whose payload has `n` bytes (R130). -/
def lenFor (n : Nat) : Nat := if n = 0 then 1 else 1 + (n + 4 + 63) / 64

/-- Bytes 0 to 59 of the header flit (Table 6.1). -/
def Packet.head60 (p : Packet) : Bytes :=
  le 4 (p.lseq % 2 ^ 16 + p.vc % 16 * 2 ^ 16 + p.len % 128 * 2 ^ 20 + p.kind % 8 * 2 ^ 27 + b2n p.trace * 2 ^ 30 + b2n p.retx * 2 ^ 31) ++
  le 8 (p.dfeid % 2 ^ 20 + p.dcoord % 2 ^ 18 * 2 ^ 20 + p.rmode % 4 * 2 ^ 38 + p.hops % 16 * 2 ^ 40 + p.ghops % 4 * 2 ^ 44 +
        p.igroup % 2 ^ 10 * 2 ^ 46 + p.age % 256 * 2 ^ 56) ++
  le 8 (p.sfeid % 2 ^ 20 + p.tid % 2 ^ 12 * 2 ^ 20 + p.osn % 2 ^ 32 * 2 ^ 32) ++
  le 4 (p.op % 256 + p.pidx % 64 * 2 ^ 8 + p.pcnt % 64 * 2 ^ 14 + p.tinc % 2 ^ 12 * 2 ^ 20) ++
  le 8 (p.dctx % 2 ^ 16 + p.sctx % 2 ^ 16 * 2 ^ 16 + p.rkey % 2 ^ 32 * 2 ^ 32) ++
  le 8 p.offset ++ le 8 p.operand ++ le 8 (p.msglen % 2 ^ 32 + p.imm % 2 ^ 32 * 2 ^ 32) ++ le 4 p.w56

/-- HCRC (R129). -/
def Packet.hcrc (p : Packet) : Nat := crc32 p.head60

/-- The payload CRC is that of the payload. -/
def Packet.payOk (p : Packet) : Bool := p.payload.isEmpty || p.pcrc == crc32 p.payload

/-- The payload CRC is the bitwise inverse of that of the payload: the packet is stomped (R286). -/
def Packet.stomped (p : Packet) : Bool := !p.payload.isEmpty && p.pcrc == crc32 p.payload ^^^ 0xFFFFFFFF

/-- A packet with its payload, its LEN and its payload CRC, computed once (R129). -/
def Packet.withPayload (p : Packet) (b : Bytes) : Packet :=
  { p with payload := b, len := lenFor b.length, pcrc := if b.isEmpty then 0 else crc32 b }

/-- The class of a packet (Table 10.9). -/
def Packet.cls (p : Packet) : PClass :=
  if p.kind = 2 then .collective else if p.kind = 3 then .mgmt else if p.kind = 0 ∧ 0x80 ≤ p.op then .response else .request

/-! ### Link-control packets (R274, Tables 11.2 to 11.10) -/

/-- CTYPE (Table 11.3). -/
def Ctl.ctype : Ctl → Nat
  | .ack _ => 1 | .nack _ => 2 | .credSync _ => 3 | .init _ => 4 | .lane _ => 5 | .time _ => 6 | .ripple _ => 7 | .linkDown _ => 8

/-- LEN (Table 11.3, Table 11.9). -/
def Ctl.len : Ctl → Nat
  | .credSync _ => 4
  | .ripple m => if m.relay.isEmpty then 1 else 1 + (12 * m.relay.length + 4 + 63) / 64
  | _ => 1

/-- Levels of four bits each, the first lowest. -/
def nibs (l : List Nat) : Nat := l.foldr (fun x a => x % 16 + 16 * a) 0

/-- Bytes 5 and on of the first flit (Tables 11.4 to 11.10). -/
def Ctl.fields : Ctl → Bytes
  | .ack m => zeros 1 ++ le 2 m.next ++ le 1 m.recs.length ++ zeros 3 ++
      (m.recs.map fun r => le 4 (r.1 % 16 + r.2.1 % 4096 * 2 ^ 4 + r.2.2 % 65536 * 2 ^ 16)).flatten
  | .nack m => zeros 1 ++ le 2 m.next ++ le 2 m.base ++ zeros 2 ++ le 32 m.mask
  | .credSync m => le 1 m.sframe ++ le 2 m.next
  | .init m => le 1 (b2n m.got) ++ le 2 m.rsvD ++ le 2 m.rsvH ++ le 2 m.shD ++ le 2 m.shH ++ le 2 m.vmaxD ++ le 2 m.vmaxH ++ le 2 m.rord ++
      le 2 m.window ++ le 1 m.version ++ zeros 1 ++ le 8 m.uid
  | .lane m => le 1 m.sub ++ le 1 m.tag ++ le 1 (m.mask % 4 + 128 * b2n m.forced)
  | .time m => le 1 (m.sync % 4 + 4 * b2n m.ev) ++ le 1 (m.prio % 16) ++ le 1 m.hops ++ le 4 (m.rootAddr % 2 ^ 18) ++ le 8 m.tx ++
      le 8 m.echoTx ++ le 8 m.echoRx
  | .ripple m => le 1 m.sframe ++ le 1 m.dstate ++ le 1 (m.relay.length % 64 + 64 * b2n m.dstart.isSome) ++ le 8 m.portup ++
      le 32 (nibs m.portq) ++ le 2 (nibs m.hostq) ++ le 2 (m.dstart.getD 0 % 2 ^ 10) ++ le 8 (nibs m.digest)
  | .linkDown c => le 1 c

/-- The bytes from 64 on, without the CRC at their end: none where LEN is 1. -/
def Ctl.tail (c : Ctl) : Bytes :=
  let body : Bytes := match c with
    | .credSync m =>
      let word := fun (e : Nat × Nat) => le 4 (e.1 % 4096 + e.2 % 65536 * 2 ^ 16)
      fit 64 (m.ret.map word).flatten ++ fit 64 (m.rcv.map word).flatten
    | .ripple m => (m.relay.map fun r => le 12 (r.1 % 2 ^ 10 + r.2.1 % 2 ^ 10 * 2 ^ 10 + nibs r.2.2 * 2 ^ 32)).flatten
    | _ => []
  fit (64 * (c.len - 1) - 4) body

/-- Bytes 0 to 59 of the first flit: the link word of Table 11.2, CTYPE and the fields. -/
def Ctl.head60 (c : Ctl) (txseq : Nat) : Bytes :=
  le 4 (txseq % 65536 + c.len % 128 * 2 ^ 20 + 2 ^ 27) ++ le 1 c.ctype ++ fit 55 c.fields

/-- The bytes of a link-control packet as it leaves, HCRC and CRC-32 among them (R129, R274). -/
def Ctl.bytes (c : Ctl) (txseq : Nat) : Bytes :=
  let h := c.head60 txseq
  h ++ le 4 (crc32 h) ++ (if c.len = 1 then [] else c.tail ++ le 4 (crc32 c.tail))

/-- Bytes with the bits of a number set in them: reserved bits that a sender has not left 0. -/
def withRsvd (b : Bytes) (rsvd : Nat) : Bytes := le b.length (nat b ||| rsvd)

/-- The blocks of a packet of `len` flits are a HEAD and BODY blocks, none errored (R280, R305, Table 12.2). -/
def marksGood (marks : List Nat) (len : Nat) : Bool := marks == 1 :: List.replicate (len - 1) 2

/-- A link-control packet passes (R274, R305): its CTYPE is that of its body, its LEN that of Table 11.3, no block is errored, and both CRCs
    are those of its bytes, reserved bits included, which are otherwise ignored. -/
def ctlOk (h : CtlHdr) (c : Ctl) : Bool :=
  h.ctype == c.ctype && h.len == c.len && marksGood h.marks c.len && h.hcrc == crc32 (withRsvd (c.head60 h.txseq) h.rsvd) &&
    (c.len == 1 || h.crc == crc32 (withRsvd c.tail h.rsvdTail))

/-- What a receiver finds of a link-control packet that arrives as it was sent. -/
def CtlHdr.sent (c : Ctl) (txseq : Nat) : CtlHdr :=
  { txseq, len := c.len, ctype := c.ctype, rsvd := 0, rsvdTail := 0, hcrc := crc32 (withRsvd (c.head60 txseq) 0),
    crc := crc32 (withRsvd c.tail 0), marks := 1 :: List.replicate (c.len - 1) 2 }

end Sys2Proof
namespace Sys2Proof.Machine

/-- The age of a packet in frames (R262). -/
def ageOf (s : Sys) (p : Packet) : Nat := (frame s % 256 + 256 - p.age % 256) % 256

/-- Older than the MPL of 50 frames (R262); management packets have no age. -/
def tooOld (s : Sys) (p : Packet) : Bool := p.kind != 3 && decide (50 < ageOf s p)

/-- Fabric Time in units of 2^-16 cycle after `n` core cycles, each of which adds 1 and the rate (R23). -/
def ftAfter (t : TimeSync) (n : Nat) : Nat := t.ft * 65536 + t.frac + n * (65536 + t.rate).toNat

/-- The stamp of a moment in the running frame, `cycle` by bits 9:0 of Fabric Time, in 1/16 cycle (R276). -/
def stampAt (s : Sys) (cycle : Nat) : Nat := ftAfter s.time (cycle - s.time.ft % 1024) / 4096 % 2 ^ 64

/-- What the block index of a header flit adds to a stamp: 1.28 ns each, or 2.56 ns on one lane, in 1/16 cycle of 0.625 ns (R307), rounded
    down (log entry 132). -/
def blockTime (lanes block : Nat) : Nat := block * (if lanes = 3 then 32768 else 65536) / 1000

/-- The stamp of a packet whose unit's first bit crosses the pins at `cycle` of the frame, with its header flit in block `block` (R307). -/
def pinStamp (s : Sys) (lanes cycle block : Nat) : Nat := (stampAt s cycle + blockTime lanes block) % 2 ^ 64

/-- The stamp of the present moment, in 1/16 cycle (R276). -/
def stamp (s : Sys) : Nat := (s.time.ft * 16 + s.time.frac / 4096) % 2 ^ 64

/-- Flits on a VC of a CX port's input. -/
def vcFlits (s : Sys) (cx vc : Nat) : Nat :=
  ((s.rt.vcq.filter fun q => q.cx == cx && q.pkt.vc == vc).map fun q => q.pkt.len).sum

/-- Flits on a VC that wait at an output of the crossbar. -/
def outFlits (s : Sys) (port vc : Nat) : Nat :=
  (((getRp s port).txq.filter fun t => t.vc == vc).map fun t => t.pkt.len).sum

/-- The occupancy that a trace record shows: of the packet's VC at the output for ALLOCATE, TRANSMIT and ESCAPE, at the CX port's input for
    the other stages (DESIGN CHOICE, log entry 147: R429 says only "of the packet's VC at the stage"). -/
def stageFlits (s : Sys) (stage port vc : Nat) : Nat :=
  if stage = 3 ∨ stage = 4 ∨ stage = 7 then outFlits s port vc else vcFlits s port vc

/-- TRACE_RECORD (R428): a tagged packet at a selected stage; a full queue drops the record (R429). -/
def trace (s : Sys) (p : Packet) (stage port detail : Nat) : Sys :=
  if s.cnt.trEn && p.trace && s.cnt.trStages.testBit (stage - 1) then
    if 512 ≤ s.cnt.trQ.length then { s with cnt := { s.cnt with trLost := true } }
    else { s with cnt := { s.cnt with
             trQ := s.cnt.trQ ++ [(stage, port, p.vc, detail + 256 * stageFlits s stage port p.vc, stamp s, p)] } }
  else s

/-- TAG of TRACE_CONFIG: a packet built here is tagged with probability 2^-K (R427), as a free value has it. -/
def tagNew (s : Sys) (p : Packet) : Sys × Packet :=
  if s.cnt.trTag then
    (draw s, { p with trace := p.trace || (if s.cnt.trK = 0 then true else Config.traceTag s.free) })
  else (s, p)

/-- Add to a VC's cumulative pair: headers modulo 4,096 and flits modulo 65,536 (R288). -/
def addCum (l : List (Nat × Nat)) (vc h d : Nat) : List (Nat × Nat) :=
  l.modify vc fun x => ((x.1 + h) % 4096, (x.2 + d) % 65536)

/-- A packet's last flit has left its VC buffer: its credits are returned (R289). Host CX ports have none. -/
def freeBuf (s : Sys) (cx vc len : Nat) : Sys :=
  if cx < 64 then modNp s cx fun n => { n with ll := { n.ll with cum := addCum n.ll.cum vc 1 len, ackDue := true } } else s

/-- PACKET_DROP (R271): a packet in an input buffer is dropped and counted in the block of its input port, and its buffer is
    freed. -/
def dropPkt (s : Sys) (cx ev : Nat) (p : Packet) : Sys :=
  freeBuf (trace (count s cx ev 1) p 8 cx ev) cx p.vc p.len

/-! ### The boot control record (R388) -/

/-- The record's bytes before its CRC. -/
def bootHead (u : Upd) : Bytes :=
  let slot := fun k => u.slots.getD k Slot.reset
  [0x4B, 0x42, 0x43, 0x52] ++ le 4 u.bcrGen ++ le 1 (slot 0).st.code ++ le 1 (slot 1).st.code ++ zeros 6 ++ fit 32 (slot 0).mdigest ++
    fit 32 (slot 1).mdigest ++ le 8 u.trialWin

/-- The boot control record of the present states. -/
def bootRecord (u : Upd) : Bytes := bootHead u ++ le 4 (crc32 (bootHead u))

/-- What the record holds beside its GEN: slot states, MDIGESTs, and the trial window. -/
def bootFields (u : Upd) : List (SlotSt × Bytes) × Nat := (u.slots.map fun x => (x.st, x.mdigest), u.trialWin)

/-- A change of what the record holds writes the other copy, with GEN + 1: odd ones copy A. `s` is the state before. -/
def bootWrite (s t : Sys) : Sys :=
  if bootFields s.upd = bootFields t.upd then t
  else
    let u : Upd := { t.upd with bcrGen := (t.upd.bcrGen + 1) % 2 ^ 32 }
    { t with upd := if u.bcrGen % 2 = 1 then { u with bcrA := bootRecord u } else { u with bcrB := bootRecord u } }

/-- A copy of the record is whole: its CRC is correct. -/
def bootCopyOk (b : Bytes) : Bool := b.length == 92 && num b 88 4 == crc32 (b.take 88)

/-- The copy that the device reads: the one with the higher GEN whose CRC is correct. -/
def bootCopy (u : Upd) : Option Bytes :=
  if bootCopyOk u.bcrA && (!bootCopyOk u.bcrB || decide (num u.bcrB 4 4 ≤ num u.bcrA 4 4)) then some u.bcrA
  else if bootCopyOk u.bcrB then some u.bcrB else none

/-- A slot state by its code (Table 16.2). -/
def SlotSt.ofCode : Nat → SlotSt
  | 0 => .empty | 1 => .staging | 2 => .staged | 3 => .trialNext | 4 => .trial | 5 => .active | 6 => .backup | _ => .invalid

/-- The states, digests and trial window as the record has them; as they stand where no copy was ever written. -/
def bootRead (s : Sys) : Sys :=
  match bootCopy s.upd with
  | none => s
  | some b =>
    { s with upd := { s.upd with
      bcrGen := num b 4 4, trialWin := num b 80 8,
      slots := s.upd.slots.mapIdx fun k x => { x with st := SlotSt.ofCode (num b (8 + k) 1), mdigest := sub b (16 + 32 * k) 32 } } }

/-! ### Copies of settings (R404, R405) -/

/-- The copy of a slot's settings with the higher GEN. -/
def Slot.newer (x : Slot) : Option SetCopy :=
  match x.setA, x.setB with
  | some a, some b => some (if a.gen < b.gen then b else a)
  | some a, none => some a
  | none, b => b

/-- The newer copy is A. -/
def Slot.newA (x : Slot) : Bool :=
  match x.setA, x.setB with
  | some a, some b => decide (b.gen ≤ a.gen)
  | some _, none => true
  | none, _ => false

/-- The slot whose settings area is written: the TRIAL slot during a trial, else the one that runs (R406). The BACKUP slot's never is (R402). -/
def saveSlot (s : Sys) : Nat := ((List.range 2).find? fun k => (s.upd.slots.getD k Slot.reset).st == .trial).getD s.upd.run

/-- A copy is written over the older one, with GEN + 1 (R406). -/
def Slot.save (x : Slot) (fmt : Nat) (recs : List SetRec) : Slot :=
  let c : SetCopy := { fmt, gen := ((x.newer.map (·.gen)).getD 0 + 1) % 2 ^ 32, recs }
  if x.newA then { x with setB := some c } else { x with setA := some c }

/-- A write of a copy failed: the older copy has no correct CRC any more, and the newer one stands (R405). -/
def Slot.spoil (x : Slot) : Slot := if x.newA then { x with setB := none } else { x with setA := none }

end Sys2Proof.Machine
end

