-- ==== Sys2Proof/Machine/Route.lean ====
section
/-!
DEFINITION. Routing: the tables' entries, which ports are routable, congestion, the adaptive choice, the Oxbow escape, the
Millpond rings, multicast, and allocation to an output under the neighbour's credits (chapter 10, R287, R288).
-/
namespace Sys2Proof.Machine

/-! ### Credits (R288) -/

/-- Credit in use beyond the reserved part. -/
def exOver (out rsv : Nat) : Nat := out - rsv

/-- Credits in use on a VC as (headers, flits): sent less returned, and what is allocated and waits to be sent. -/
def outOf (n : NPrt) (q : List TxPkt) (v : Nat) : Nat × Nat :=
  let st := n.ll.sent.getD v (0, 0)
  let rt := n.ll.ret.getD v (0, 0)
  let w := q.filter fun t => t.vc == v
  ((st.1 + 4096 - rt.1) % 4096 + w.length, (st.2 + 65536 - rt.2) % 65536 + (w.map fun t => t.pkt.len).sum)

/-- fits of R288 for one kind of credit. -/
def creditFits (v outNow add rsv vmax sh totalEx : Nat) : Bool :=
  let newEx := exOver (outNow + add) rsv
  if newEx = 0 then true
  else if v = 15 ∨ vmax < newEx then false
  else decide (totalEx - exOver outNow rsv + newEx ≤ sh)

/-- can_send of R288, for `h` headers and `d` flits. -/
def canSend (n : NPrt) (q : List TxPkt) (v h d : Nat) : Bool :=
  let o := outOf n q v
  let m := n.ll.peer
  let exD := ((List.range 15).map fun w => exOver (outOf n q w).2 m.rsvD).sum
  let exH := ((List.range 15).map fun w => exOver (outOf n q w).1 m.rsvH).sum
  creditFits v o.2 d m.rsvD m.vmaxD m.shD exD && creditFits v o.1 h m.rsvH m.vmaxH m.shH exH

/-- Free flits on a VC of an output: its reserved part and what it may still take of the shared part. -/
def freeFlits (n : NPrt) (q : List TxPkt) (v : Nat) : Nat :=
  let o := (outOf n q v).2
  let m := n.ll.peer
  let exD := ((List.range 15).map fun w => exOver (outOf n q w).2 m.rsvD).sum
  if v = 15 then m.rsvD - o else (m.rsvD - o) + min (m.vmaxD - exOver o m.rsvD) (m.shD - exD)

/-! ### Table entries (Tables 10.3 to 10.6) -/

/-- The coordinate an endpoint table holds for a FEID, if its entry is valid. -/
def epCoord (b : Bank) (feid : Nat) : Option Nat :=
  match tget b.ep feid with
  | some e => if e.testBit 23 then some (bits e 0 18) else none
  | none => none

/-- Slot `k` of a group entry: holder and port, if valid. -/
def slotOf (b : Bank) (g k : Nat) : Option (Nat × Nat) :=
  let e := bits ((tget b.grp g).getD 0) (16 * k) 16
  if e.testBit 15 then some (bits e 0 6, bits e 6 6) else none

/-- The local port to a device of the own group, if its entry is valid. -/
def devPort (b : Bank) (d : Nat) : Option Nat :=
  let e := (tget b.dv d).getD 0
  if e.testBit 7 then some (bits e 0 6) else none

/-- CV of the config entry. -/
def cvOf (b : Bank) : Bool := b.cfg.testBit 31

/-- The own coordinate: the active config entry's, else the FRU record's (R258). -/
def myCoord (s : Sys) : Nat :=
  if cvOf s.rt.act then bits s.rt.act.cfg 0 18
  else match s.start.fru with
    | some r => r.group * 256 + r.device * 4
    | none => 0

/-- The own group. -/
def myGroup (s : Sys) : Nat := myCoord s / 256

/-- The own index in its group. -/
def myDev (s : Sys) : Nat := myCoord s / 4 % 64

/-- The wiring map entry of a port. -/
def wireOf (s : Sys) (p : Nat) : Option WireE :=
  match s.start.fru with
  | some r => r.entries.find? fun e => e.port == p
  | none => none

/-- The port is a global port of the wiring map. -/
def isGlobal (s : Sys) (p : Nat) : Bool := match wireOf s p with | some e => e.role == 1 | none => false

/-! ### Ports (R267, R330) -/

/-- The device states in which a device forwards: READY, DEGRADED, QUIESCED, UPDATE_STAGING, and DISCOVERY in Millpond. -/
def forwards (millpond : Bool) (code : Nat) : Bool :=
  code == 4 || code == 5 || code == 6 || code == 7 || (millpond && code == 3)

/-- A network port is routable (R267), with a HELLO that passed at most 256 frames ago (R330). -/
def routable (s : Sys) (p : Nat) : Bool :=
  let n := getNp s p
  n.st == .up && n.losAt.isNone && n.lockAt.isNone && forwards s.rt.millpond s.dev.st.code &&
    (match (getRp s p).ripple with | some r => forwards s.rt.millpond r.dstate | none => false) &&
    n.helloOk && decide (frame s ≤ n.helloAt + 256)

/-- PORTUP of the own ripple (Table 10.10). -/
def portUp (s : Sys) : Nat := ((List.range 64).map fun p => if routable s p then 2 ^ p else 0).sum

/-! ### Congestion (R248, R250) -/

/-- Whether a packet counts in Q: request or response class. -/
def inQ (p : Packet) : Bool := p.cls == .request || p.cls == .response

/-- The port a route leads to. -/
def routePort : Option Route → Option Nat
  | some (.net p _) => some p
  | some (.escape p) => some p
  | some (.ring p _ _) => some p
  | _ => none

/-- Q of a network port: flits of request and response packets routed to it and not yet sent (R248). -/
def qOf (s : Sys) (p : Nat) : Nat :=
  ((s.rt.vcq.filter fun q => inQ q.pkt && routePort q.route == some p).map fun q => q.pkt.len).sum +
    (((getRp s p).txq.filter fun t => inQ t.pkt).map fun t => t.pkt.len).sum

/-- The level of a port (R248). -/
def lvl (s : Sys) (p : Nat) : Nat := min 15 (qOf s p / 256)

/-- A neighbour's level of one of its ports; 0 when its ripple is 4 or more frames stale (R250, R33). -/
def nbrLevel (s : Sys) (p port : Nat) : Nat :=
  let r := getRp s p
  match r.ripple with
  | some m => if frame s < r.ripFrame + 4 then m.portq.getD port 0 else 0
  | none => 0

/-- The latest digest level of group `i` toward group `d`; 15 when not refreshed for 128 frames (R250). -/
def digest (s : Sys) (i d : Nat) : Nat :=
  match tget s.rt.dig (i * 1024 + d) with
  | some (l, fr) => if frame s < fr + 128 then l else 15
  | none => 15

/-! ### Adaptive choice (R251 to R253) -/

/-- A slot is working (R251). -/
def slotWorks (s : Sys) (g k : Nat) : Bool :=
  match slotOf s.rt.act g k with
  | none => false
  | some (dev, port) =>
    if dev = myDev s then routable s port
    else match devPort s.rt.act dev with
      | none => false
      | some lp => routable s lp &&
          (match (getRp s lp).ripple with | some r => r.portup.testBit port | none => false)

/-- The own port through which slot `k` is reached: its own, or the local port to its holder. -/
def slotFirst (s : Sys) (g k : Nat) : Nat :=
  match slotOf s.rt.act g k with
  | none => 0
  | some (dev, port) => if dev = myDev s then port else (devPort s.rt.act dev).getD 0

/-- The device itself holds slot `k`. -/
def slotOwn (s : Sys) (g k : Nat) : Bool :=
  match slotOf s.rt.act g k with | some (dev, _) => dev == myDev s | none => false

/-- W of R252 as a choice reads it: 0 under the 64-overrun rule of R33. -/
def weightOf (s : Sys) (g k : Nat) : Nat := if s.rt.wValid then (tget s.rt.weights (g * 8 + k)).getD 0 else 0

/-- The cost of a slot in flits (R253). -/
def slotCost (s : Sys) (g k : Nat) : Nat := weightOf s g k + qOf s (slotFirst s g k)

/-- The cheaper of two slots, the first on a tie. -/
def cheaper (a : Option (Nat × Nat)) (k c : Nat) : Option (Nat × Nat) :=
  match a with
  | none => some (k, c)
  | some (k0, c0) => if c < c0 then some (k, c) else some (k0, c0)

/-- best of R253: the cheapest working slot toward a group, own slots only on demand; a tie goes to the first slot after the
    one last chosen for the group. -/
def bestSlot (s : Sys) (g : Nat) (ownOnly : Bool) : Option (Nat × Nat) :=
  let from_ := (tget s.rt.lastSlot g).getD 7
  ((List.range 8).map fun i => (from_ + 1 + i) % 8).foldl (fun a k =>
    if slotWorks s g k && (!ownOnly || slotOwn s g k) then cheaper a k (slotCost s g k) else a) none

/-- The candidate intermediate groups in force toward a group (R228). -/
def candsOf (s : Sys) (d : Nat) : List Nat := ((tget s.pe.cands d).map fun c => c.list.map (·.1)).getD []

/-- The non-minimal choice of R253: the candidate of least cost, ties to the lower group, with its slot. -/
def bestVia (s : Sys) (d : Nat) (ownOnly : Bool) : Option (Nat × Nat × Nat) :=
  (candsOf s d).foldl (fun a i =>
    match bestSlot s i ownOnly with
    | none => a
    | some (k, c) =>
      let cost := c + 256 * digest s i d
      match a with
      | none => some (i, k, cost)
      | some (i0, k0, c0) => if cost < c0 ∨ (cost = c0 ∧ i < i0) then some (i, k, cost) else some (i0, k0, c0)) none

/-- Non-minimal choice is permitted: NM_EN, and not under the 64-overrun rule (R33, R252). -/
def nmOn (s : Sys) : Bool := s.rt.cfg.nmEn && s.rt.wValid

/-- What routing a packet comes to: a route (and the slot chosen toward a group), a wait, or a drop with its event code. -/
inductive RouteRes where
  | go (r : Route) (chose : Option (Nat × Nat))
  | wait
  | drop (ev : Nat)
  deriving DecidableEq, Repr

/-- The escape next hop toward a coordinate (R255). -/
def escapeHop (s : Sys) (b : Bank) (dcoord : Nat) : Option Nat :=
  let ox := if dcoord / 256 = myGroup s then bits ((tget b.dv (dcoord / 4 % 64)).getD 0) 8 8
            else bits ((tget b.grp (dcoord / 256)).getD 0) 128 8
  if ox.testBit 7 then
    if bits ox 0 7 = 0x7F then (if bits b.cfg 32 7 = 0x7F then none else some (bits b.cfg 32 7))
    else some (bits ox 0 7)
  else none

/-- The bank an escape packet follows: the old one during the freeze for those already on an escape VC (R241). -/
def escapeBank (s : Sys) (onEscape : Bool) : Bank :=
  match s.rt.freeze with
  | some (_, old) => if onEscape then old else s.rt.act
  | none => s.rt.act

/-- The escape VC of a class (Table 10.9). -/
def escapeVc : PClass → Nat
  | .request => 4 | .response => 9 | .collective => 14 | .mgmt => 15

/-- The first adaptive VC of a class (Table 10.9). -/
def firstVc : PClass → Nat
  | .request => 0 | .response => 5 | .collective => 10 | .mgmt => 15

/-- A VC is an escape VC. -/
def isEscVc (v : Nat) : Bool := v == 4 || v == 9 || v == 14

/-- A VC belongs to the class's set for the mode (R243, R244). -/
def vcAllowed (millpond : Bool) (c : PClass) (v : Nat) : Bool :=
  match c with
  | .mgmt => v == 15
  | c => if millpond then v == firstVc c || v == firstVc c + 1 else decide (firstVc c ≤ v) && decide (v ≤ firstVc c + 4)

/-- The escape route of a packet, or its drop (R255, R256). -/
def escapeRoute (s : Sys) (onEscape : Bool) (p : Packet) : RouteRes :=
  match escapeHop s (escapeBank s onEscape) p.dcoord with
  | some port => if onEscape && !routable s port then .drop 0x15 else .go (.escape port) none
  | none => .drop 0x15

/-- Whether any Oxbow entry serves a coordinate. -/
def oxValid (s : Sys) (dcoord : Nat) : Bool := (escapeHop s s.rt.act dcoord).isSome

/-- Delivery at the destination device, with the DFEID check (R238). -/
def deliverRoute (s : Sys) (p : Packet) : RouteRes :=
  if p.kind = 4 then .go .cc none
  else if epCoord s.rt.act p.dfeid = some p.dcoord then
    (if p.kind = 2 then .go .ce none else .go (.host (p.dcoord % 4)) none)
  else .drop 0x14

/-- route_source of R253 toward another group. -/
def routeSource (s : Sys) (p : Packet) : RouteRes :=
  let d := p.dcoord / 256
  let mn := bestSlot s d false
  let nm := if nmOn s then bestVia s d false else none
  match mn, nm with
  | some (k, c), some (i, ki, ci) =>
    if 5 * ci + s.rt.cfg.nmBias < 3 * c then .go (.net (slotFirst s i ki) i) (some (i, ki))
    else .go (.net (slotFirst s d k) 0x3FF) (some (d, k))
  | some (k, _), none => .go (.net (slotFirst s d k) 0x3FF) (some (d, k))
  | none, some (i, ki, _) => .go (.net (slotFirst s i ki) i) (some (i, ki))
  | none, none => if oxValid s p.dcoord then .wait else .drop 0x13

/-- route_revise of R253: case 2 in the source group. -/
def routeRevise (s : Sys) (p : Packet) : RouteRes :=
  let d := p.dcoord / 256
  match bestSlot s d true with
  | none => escapeRoute s false p
  | some (k, c) =>
    let stay := RouteRes.go (.net (slotFirst s d k) 0x3FF) (some (d, k))
    if nmOn s && decide (s.rt.cfg.revThresh < qOf s (slotFirst s d k)) then
      match bestVia s d true with
      | some (i, ki, ci) => if 5 * ci + s.rt.cfg.nmBias < 3 * c then .go (.net (slotFirst s i ki) i) (some (i, ki)) else stay
      | none => stay
    else stay

/-- Routing in table mode, RMODE 00 (R251 to R256). -/
def routeTable (s : Sys) (cx : Nat) (p : Packet) : RouteRes :=
  let g := myGroup s
  let dg := p.dcoord / 256
  let tgt := if p.igroup ≠ 0x3FF ∧ p.ghops = 0 then p.igroup else dg
  let byLocal := decide (cx < 64) && !isGlobal s cx
  let here := decide (g = dg) && decide (myDev s = p.dcoord / 4 % 64)
  if cx < 64 ∧ isEscVc p.vc then (if here then deliverRoute s p else escapeRoute s true p)
  else if g ≠ tgt then
    if byLocal then
      if p.ghops = 0 ∧ p.igroup = 0x3FF then routeRevise s p
      else match bestSlot s tgt true with
        | some (k, _) => .go (.net (slotFirst s tgt k) p.igroup) (some (tgt, k))
        | none => escapeRoute s false p
    else if 64 ≤ cx ∧ p.igroup = 0x3FF then routeSource s p
    else match bestSlot s tgt false with
      | some (k, _) => .go (.net (slotFirst s tgt k) p.igroup) (some (tgt, k))
      | none => if oxValid s p.dcoord then .wait else .drop 0x13
  else if here then deliverRoute s p
  else if byLocal then .drop 0x13
  else match devPort s.rt.act (p.dcoord / 4 % 64) with
    | some lp => if routable s lp then .go (.net lp p.igroup) none else escapeRoute s false p
    | none => escapeRoute s false p

/-- The ring successor: the next higher device index, wrapping, over a routable local link (R258). -/
def ringNext (s : Sys) : Option Nat :=
  let es := ((s.start.fru.map (·.entries)).getD []).filter fun e => e.role == 0 && routable s e.port
  (es.foldl (fun a e =>
    let dist := (e.farDev + 64 - myDev s) % 64
    match a with
    | none => some (e.port, dist)
    | some (p0, d0) => if dist < d0 then some (e.port, dist) else some (p0, d0)) none).map (·.1)

/-- The lowest-numbered routable global port to a group (R258). -/
def ringExit (s : Sys) (g : Nat) : Option Nat :=
  let es := ((s.start.fru.map (·.entries)).getD []).filter fun e => e.role == 1 && e.farGroup == g && routable s e.port
  es.foldl (fun a e => match a with | none => some e.port | some p0 => some (min p0 e.port)) none

/-- Routing in Millpond mode, RMODE 01 (R258). -/
def routeRing (s : Sys) (cx : Nat) (p : Packet) : RouteRes :=
  let g := p.dcoord / 256
  let local_ := decide (cx < 64) && !isGlobal s cx
  if g = myGroup s ∧ p.dcoord / 4 % 64 = myDev s then deliverRoute s p
  else if local_ && p.igroup % 64 == myDev s then .drop 0x17
  else if g ≠ myGroup s then
    match ringExit s g with
    | some e => .go (.ring e true true) none
    | none => match ringNext s with
      | some e => .go (.ring e false (decide (64 ≤ cx))) none
      | none => .wait
  else match ringNext s with
    | some e => .go (.ring e true (decide (64 ≤ cx))) none
    | none => .wait

/-- Replication of an RMODE 10 packet by its multicast entry (R261). -/
def routeMulticast (s : Sys) (cx : Nat) (p : Packet) : RouteRes :=
  match tget s.rt.mc (p.dfeid % 65536) with
  | none => .drop 0x16
  | some m =>
    if m.tid ≠ p.tid then .drop 0x16
    else .go (.copies ((List.range 64).filter fun k => m.mask.testBit k) (m.ce && decide (cx < 64))) none

/-- Routing of a packet at the head of an input VC queue (R236, R237, R244, R254, R258, R260, R262). -/
def routeOf (s : Sys) (cx : Nat) (p : Packet) : RouteRes :=
  if tooOld s p then .drop 0x10
  else if p.rmode = 3 ∨ (p.rmode = 2 ∧ p.kind ≠ 2) then .drop 0x13
  else if 924 < p.dcoord / 256 ∨ 43 < p.dcoord / 4 % 64 then .drop 0x13
  else if cx < 64 ∧ p.rmode ≠ 1 ∧ p.hops = 15 then .drop 0x11
  else if p.rmode = 2 then routeMulticast s cx p
  else if p.rmode = 1 then (if s.rt.millpond then routeRing s cx p else .drop 0x17)
  else if s.rt.millpond then .drop 0x17
  else routeTable s cx p

/-! ### The buffers of the crossbar -/

/-- The head of an input VC queue. -/
def headOf (s : Sys) (cx vc : Nat) : Option QPkt := s.rt.vcq.find? fun q => q.cx == cx && q.pkt.vc == vc

/-- The queued packet of an arrival number changed. -/
def modQ (s : Sys) (arr : Nat) (g : QPkt → QPkt) : Sys :=
  { s with rt := { s.rt with vcq := s.rt.vcq.map fun q => if q.arr == arr then g q else q } }

/-- The queued packet of an arrival number taken away. -/
def takeQ (s : Sys) (arr : Nat) : Sys := { s with rt := { s.rt with vcq := s.rt.vcq.filter fun q => q.arr != arr } }

/-- A packet enters an input buffer of a CX port. -/
def enqueue (s : Sys) (cx : Nat) (p : Packet) : Sys :=
  { s with rt := { s.rt with vcq := s.rt.vcq ++ [{ pkt := p, cx, arr := s.rt.nextArr, route := none }],
                             nextArr := s.rt.nextArr + 1 } }

/-- The input buffer of a packet that has left its queue is freed; where copies of it still wait at outputs, under `100 +` its input
    port, the last of them frees it (R261). -/
def freeCopy (s : Sys) (cx vc len arr : Nat) : Sys :=
  if (s.rt.vcq.any fun q => q.arr == arr) || (s.rt.ports.any fun r => r.txq.any fun t => t.arr == arr) then s
  else freeBuf s cx vc len

/-- A queued packet is dropped (R271). -/
def dropQ (s : Sys) (q : QPkt) (ev : Nat) : Sys :=
  freeCopy (trace (count (takeQ s q.arr) q.cx ev 1) q.pkt 8 q.cx ev) q.cx q.pkt.vc q.pkt.len q.arr

/-- The route of a queued packet set, dropped or left open. -/
def applyRoute (s : Sys) (q : QPkt) (r : RouteRes) : Sys :=
  match r with
  | .drop ev => dropQ s q ev
  | .wait => modQ s q.arr fun x => { x with route := none }
  | .go r chose =>
    let s := modQ s q.arr fun x => { x with route := some r }
    match chose with
    | some (g, k) => { s with rt := { s.rt with lastSlot := tset s.rt.lastSlot g k } }
    | none => s

/-- The VC with the most free credit among those that have credit for the packet; a tie goes to the lower number (R244). -/
def pickVc (s : Sys) (port len : Nat) (vcs : List Nat) : Option Nat :=
  let n := getNp s port
  let q := (getRp s port).txq
  (vcs.foldl (fun a v =>
    if canSend n q v 1 len then
      match a with
      | none => some (v, freeFlits n q v)
      | some (v0, f0) => if f0 < freeFlits n q v then some (v, freeFlits n q v) else some (v0, f0)
    else a) none).map (·.1)

/-- A packet allocated to an output: it waits there for transmission, in its input buffer until then (R246). -/
def toTx (s : Sys) (port vc : Nat) (q : QPkt) (p : Packet) : Sys :=
  trace (modRp s port fun r => { r with txq := r.txq ++ [{ pkt := p, vc, arr := q.arr, cx := q.cx, ig0 := q.pkt.igroup }] }) p 3 port 0

/-- The ejection buffer of a host port has room for a packet: 8,192 flits in all (R450). -/
def ejRoom (s : Sys) (hp len : Nat) : Bool := decide (((getHp s hp).ej.map fun e => e.2.len).sum + len ≤ 8192)

/-- One copy of a multicast packet to a port that has credit for it; the ports still to be served remain (R261). -/
def sendCopy (acc : Sys × List Nat) (q : QPkt) (port : Nat) : Sys × List Nat :=
  let (s, left) := acc
  if routable s port then
    match pickVc s port q.pkt.len (if s.rt.millpond then [10, 11] else [10, 11, 12, 13]) with
    | some v => (count (toTx s port v { q with cx := 100 + q.cx } q.pkt) 88 0x04 1, left)
    | none => (s, left ++ [port])
  else (s, left)

/-- The packet stands on an escape VC (R256). -/
def QPkt.onEsc (q : QPkt) : Bool := decide (q.cx < 64) && isEscVc q.pkt.vc

/-- OUTPUT_ALLOCATE of one packet with its route (R246, R256, R259, R261, R262). -/
def allocate (s : Sys) (q : QPkt) : Sys :=
  if tooOld s q.pkt then dropQ s q 0x10
  else match q.route with
  | none => s
  | some (.net port ig) =>
    if !routable s port then modQ s q.arr fun x => { x with route := none }
    else match pickVc s port q.pkt.len ((List.range 4).map fun i => firstVc q.pkt.cls + i) with
      | none => s
      | some v =>
        let s := if ig ≠ q.pkt.igroup then count s 88 (if 64 ≤ q.cx then 0x02 else 0x03) 1 else s
        toTx (takeQ s q.arr) port v q { q.pkt with igroup := ig }
  | some (.escape port) =>
    let on := q.onEsc
    if s.rt.freeze.isSome && !on then s
    else if !routable s port then (if on then dropQ s q 0x15 else modQ s q.arr fun x => { x with route := none })
    else if canSend (getNp s port) (getRp s port).txq (escapeVc q.pkt.cls) 1 q.pkt.len then
      let s := if on then s else trace (count s 88 0x01 1) q.pkt 7 port 0
      toTx (takeQ s q.arr) port (escapeVc q.pkt.cls) q q.pkt
    else s
  | some (.ring port inb enters) =>
    let v := firstVc q.pkt.cls + b2n inb
    let n := getNp s port
    if !routable s port then modQ s q.arr fun x => { x with route := none }
    else if (if enters then decide (132 ≤ freeFlits n (getRp s port).txq v) else true) &&
            canSend n (getRp s port).txq v 1 q.pkt.len then
      let ig := if isGlobal s port then (((wireOf s port).map (·.farDev)).getD 0) else if enters then myDev s else q.pkt.igroup
      toTx (takeQ s q.arr) port v q { q.pkt with igroup := ig % 64 }
    else s
  | some (.host hp) =>
    if ejRoom s hp q.pkt.len then
      let s := modHp s hp fun h => { h with ej := h.ej ++ [(q.cx, q.pkt)] }
      freeBuf (takeQ s q.arr) q.cx q.pkt.vc q.pkt.len
    else s
  | some .ce =>
    let s := { s with ce := { s.ce with colIn := s.ce.colIn ++ [(q.cx, q.pkt)] } }
    freeBuf (takeQ s q.arr) q.cx q.pkt.vc q.pkt.len
  | some .cc =>
    let s := { s with rt := { s.rt with ccIn := s.rt.ccIn ++ [(q.cx, q.pkt)] } }
    freeBuf (takeQ s q.arr) q.cx q.pkt.vc q.pkt.len
  | some (.copies ports ce) =>
    let s := if ce then { s with ce := { s.ce with colIn := s.ce.colIn ++ [(q.cx, q.pkt)] } } else s
    let (s, left) := ports.foldl (fun a p => sendCopy a q p) (s, [])
    if left.isEmpty then freeCopy (takeQ s q.arr) q.cx q.pkt.vc q.pkt.len q.arr
    else modQ s q.arr fun x => { x with route := some (.copies left false) }

/-! ### Tables in force (R239 to R242, R452) -/

/-- The lowest FEID whose valid entry holds a coordinate (R452). -/
def ownFeidOf (b : Bank) (coord : Nat) : Option Nat :=
  (b.ep.find? fun e => e.2.testBit 23 && bits e.2 0 18 == coord).map (·.1)

/-- Every host port's own FEID found anew at a commit of the endpoint table (R452). -/
def refreshFeids (s : Sys) : Sys :=
  { s with hps := s.hps.mapIdx fun n h => { h with ownFeid := ownFeidOf s.rt.act (myCoord s / 4 * 4 + n) } }

/-- The Oxbow fields of a bank. -/
def oxFields (b : Bank) : List (Nat × Nat) × List (Nat × Nat) × Nat :=
  ((b.grp.map fun e => (e.1, bits e.2 128 8)).filter fun e => e.2 ≠ 0,
   (b.dv.map fun e => (e.1, bits e.2 8 8)).filter fun e => e.2 ≠ 0, bits b.cfg 32 7)

/-- Escape routes that rest on Oxbow entries no longer in force are computed anew (R241). -/
def clearEsc (s : Sys) (onEsc : Bool) : Sys :=
  { s with rt := { s.rt with vcq := s.rt.vcq.map fun q =>
      match q.route with | some (.escape _) => if !onEsc && q.onEsc then q else { q with route := none } | _ => q } }

/-- The shadow banks become active; the escape freeze starts where R241 has it. Packets on an escape VC keep to the old Oxbow entries;
    those that have only turned to the escape wait for the new ones. -/
def switchBanks (s : Sys) : Sys :=
  let old := s.rt.act
  let frz := decide (oxFields old ≠ oxFields s.rt.sh) && !s.rt.millpond && cvOf old
  clearEsc (refreshFeids { s with rt := { s.rt with
    act := s.rt.sh, commit := none,
    freeze := if frz then some (frame s + 64, old) else s.rt.freeze,
    copying := frz } }) false

/-- A port down leaves the router: its ripple is forgotten, and what waits to be sent there is routed again (R268). The placement engine
    finds the link gone at the next tick (R227). -/
def routerPortDown (s : Sys) (p : Nat) : Sys :=
  let back := (getRp s p).txq.filter fun t => t.cx < 100 && t.pkt.kind != 3
  let lost := (getRp s p).txq.filter fun t => 100 ≤ t.cx
  let s := modRp s p fun r => { r with txq := [], ripple := none }
  let s := lost.foldl (fun s t => freeCopy s (t.cx - 100) t.pkt.vc t.pkt.len t.arr) s
  { s with rt := { s.rt with
    vcq := (s.rt.vcq ++ back.map fun t => { pkt := { t.pkt with igroup := t.ig0 }, cx := t.cx, arr := t.arr, route := none : QPkt }).map fun q =>
      if routePort q.route == some p then { q with route := none } else q } }

end Sys2Proof.Machine
end

