-- ==== Sys2Proof/Machine/Mbx.lean ====
section
/-!
DEFINITION. The mailbox service that every command shares: status codes in check order (Table 3.8), the response and where it
goes, commands that run on after ACCEPTED and how they end (R44 to R48), sessions (R55 to R59) and the families' rules
(Tables 3.17 and 3.18).
-/
namespace Sys2Proof.Machine

/-- What is wrong with a request, or how a command ends, as a status of Table 3.8. -/
inductive Status where
  | ok | accepted | badOpcode | badLength | badParam | noSession | authFail | privilege | stateConflict | busy | noResource
  | updateBusy | timeout | internal
  deriving DecidableEq, Repr

/-- The code of a status (Table 3.8). -/
def Status.code : Status → Nat
  | .ok => 0 | .accepted => 1 | .badOpcode => 0x0101 | .badLength => 0x0102 | .badParam => 0x0103 | .noSession => 0x0201
  | .authFail => 0x0202 | .privilege => 0x0203 | .stateConflict => 0x0301 | .busy => 0x0302 | .noResource => 0x0303
  | .updateBusy => 0x0304 | .timeout => 0x0401 | .internal => 0x0F01

/-- The fuses as they are in effect: without the bits that a transition has blown since the last reset (R382). -/
def fusesNow (f : FuseBank) (s : Sys) : FuseBank :=
  { f with lc := f.lc &&& ~~~ s.sec.lcNew, dbgCnt := f.dbgCnt &&& ~~~ s.sec.dbgNew, udsLock := f.udsLock &&& ~~~ s.sec.udsNew }

/-- The lifecycle state decoded from the LC fuses and the volatile debug state (R381). -/
def lifecycle (f : FuseBank) (s : Sys) : Lifecycle :=
  let lc := (fusesNow f s).lc
  if lc.getLsbD 2 then .retired
  else if lc.getLsbD 1 then (if s.sec.fieldDebug then .fieldDebug else .field)
  else if lc.getLsbD 0 then .provisioned
  else .blank

/-- The context-state byte for what a command names (R42): a context, a function with an abort in progress, or nothing. -/
def ctxByte (s : Sys) (named : Option Nat) : Nat :=
  match named with
  | none => 0xFF
  | some c =>
    if 65536 ≤ c then
      (if (getFn s ((c - 65536) / 64) ((c - 65536) % 64)).fnAbort then 0xFE else 0xFF)
    else match tget s.ctxs c with
      | some x => x.st.code
      | none => 0

/-- A function named by a command, as `ctxByte` reads it. -/
def namedFn (hp fn : Nat) : Nat := 65536 + fnKey hp fn

/-- A response with the present device and context states (Table 3.6). -/
def mkResp (s : Sys) (opcode tag : Nat) (st : Status) (named : Option Nat) (data : Bytes) : Resp :=
  { opcode, status := st.code, tag, dev := s.dev.st.code, ctx := ctxByte s named, data }

/-- The bytes of a response: header and payload (Table 3.6). -/
def Resp.bytes (r : Resp) : Bytes :=
  le 2 r.opcode ++ le 2 r.status ++ le 2 r.tag ++ le 2 r.data.length ++ le 1 r.dev ++ le 1 r.ctx ++ zeros 6 ++ r.data

/-- A response delivered: into the function's response buffer, with LAST_TAG, RSP_READY or ACCEPTED and the interrupt under
    RSP_IE (R43), or as a message over MCTP (Table 15.2). `lastTag` is the request's own tag. -/
def respond (s : Sys) (who : Requester) (lastTag : Nat) (r : Resp) : Sys :=
  match who with
  | .fn hp fn =>
    let s := modMbx s hp fn fun m =>
      { m with rspBuf := Memory.writeAll m.rspBuf 0 r.bytes, lastTag := lastTag,
               accepted := r.status == 1, rspReady := r.status != 1, held := false }
    if (getFn s hp fn).mbx.rspIe then msix s hp fn (getFn s hp fn).mbx.vector.toNat else s
  | .mctp eid => mctpOut s eid (korfelMsg 2 r.bytes)

/-- Two requesters whose pending results and sessions are counted together: a function alone, all endpoints as one (R365). -/
def sameLimit (a b : Requester) : Bool :=
  match a, b with
  | .fn h g, .fn h' g' => h == h' && g == g'
  | .mctp _, .mctp _ => true
  | _, _ => false

/-- The CC is away: in a restart, or for good after a thermal trip (R48, R366). -/
def ccAway (s : Sys) : Bool := !s.svc.ccUp || s.pwr.tripped

/-- A tag is pending for a requester (R45). -/
def pendingTag (s : Sys) (who : Requester) (tag : Nat) : Bool := s.svc.pend.any fun p => p.who == who && p.tag == tag

/-- The accepted commands of a requester whose results have not been read (R45). -/
def pendCount (s : Sys) (who : Requester) : Nat := (s.svc.pend.filter fun p => sameLimit p.who who).length

/-- The live session of a requester under a token (R55). -/
def sessionOf (s : Sys) (who : Requester) (token : Nat) : Option Session :=
  s.sec.sessions.find? fun x => x.who == who && x.token == token

/-- In BLANK, FIELD_DEBUG and RETIRED privileged commands run with TOKEN 0 (R383, R384). -/
def openRights (f : FuseBank) (s : Sys) : Bool :=
  match lifecycle f s with | .blank | .fieldDebug | .retired => true | _ => false

/-- A virtual function (R55). -/
def isVf : Requester → Bool | .fn _ fn => fn != 0 | .mctp _ => false

/-- The session check of Table 3.8, orders 4 and 5, for a command that needs family `fam`; `outside`: it needs the session only
    because its target lies outside the requester's own reach (R97). -/
def needSession (f : FuseBank) (s : Sys) (who : Requester) (token fam : Nat) (outside : Bool) : Option Status :=
  if isVf who then some .privilege
  else if openRights f s && token == 0 then none
  else if token = 0 then some (if outside then .privilege else .noSession)
  else match sessionOf s who token with
    | none => some .noSession
    | some x => if x.families.testBit fam then none else some .privilege

/-- The command families that a device state accepts (Table 3.17); `narrow` says that QUIESCED or FAULT takes this command of
    a family it takes in part. -/
def famOk (st : DevState) (fam : Nat) (narrow : Bool) : Bool :=
  match st with
  | .wiping | .boot => fam == 0 && narrow
  | .discovery => fam == 0 || fam == 3 || fam == 6 || fam == 7 || fam == 8 || fam == 9 || fam == 10 || fam == 11
  | .ready | .degraded | .updateStaging => fam != 9 && (fam != 11 || narrow)
  | .quiesced => (fam != 1 && fam != 2 && fam != 4 && fam != 5) || narrow
  | .fault => fam == 7 || ((fam == 0 || fam == 1 || fam == 3 || fam == 6 || fam == 10 || fam == 11) && narrow)

/-- RETIRED accepts families 0x00, 0x07 and 0x0A, and LC_STATUS (R384). -/
def retiredOk (opcode : Nat) : Bool :=
  opcode / 256 == 0 || opcode / 256 == 7 || opcode / 256 == 10 || opcode == 0x0B01

/-- Response classes (R44). -/
inductive RClass where
  | fast | slow | long
  deriving DecidableEq, Repr

/-- What a command's body answers: a refusal, a final result, or that it has been taken and waits. -/
inductive Ans where
  | no (st : Status)
  | done (s : Sys) (data : Bytes)
  | doneAs (s : Sys) (st : Status) (data : Bytes)
  | wait (s : Sys) (w : Wait)

/-- A command's fixed traits: opcode, class, defined payload length (none: checked by `lenOk`), the context or function it
    names, whether FAULT or QUIESCED takes it, and its checks of orders 3 and 4 to 5. -/
structure Spec where
  opcode : Nat
  cls : RClass
  lenOk : Nat → Bool
  named : Sys → Bytes → Option Nat
  narrow : DevState → Bool
  param : FuseBank → Sys → MbxReq → Bool
  priv : FuseBank → Sys → MbxReq → Option Status

/-- Bytes of a payload that are reserved are zero (R7). -/
def rsv (b : Bytes) (off n : Nat) : Bool := num b off n == 0

/-- A session that permits the family is required (Table 3.18). -/
def sess (fam : Nat) : FuseBank → Sys → MbxReq → Option Status := fun f s q => needSession f s q.who q.token fam false

/-- No session is required. -/
def noSess : FuseBank → Sys → MbxReq → Option Status := fun _ _ _ => none

/-- A command whose payload has `n` bytes, which names no context and which QUIESCED and FAULT do not take in part. -/
def Spec.fast (opcode n : Nat) (param : FuseBank → Sys → MbxReq → Bool) (priv : FuseBank → Sys → MbxReq → Option Status) : Spec :=
  { opcode, cls := .fast, lenOk := fun l => l == n, named := fun _ _ => none, narrow := fun _ => false, param, priv }

/-- A request that is served, whatever its status, marks the session of its token as used in this epoch (R59), and its requester, where it
    holds the staging lock, as heard from (R393; both DEDUCED, log entry 55). -/
def touchSession (s : Sys) (who : Requester) (token : Nat) : Sys :=
  { s with
    upd := { s.upd with lock := s.upd.lock.map fun l => match l.holder with
      | .req w _ => if w == who then { l with lastEpoch := epoch s } else l
      | .port _ => l },
    sec := { s.sec with sessions := s.sec.sessions.map fun x =>
      if x.who == who && x.token == token then { x with lastEpoch := epoch s } else x } }

/-- The checks of Table 3.8 that precede a command's own, in order. -/
def preCheck (c : Spec) (f : FuseBank) (s : Sys) (q : MbxReq) : Option Status :=
  if 4080 < q.payload.length ∨ c.lenOk q.payload.length = false then some .badLength
  else if q.flags ≠ q.flags % 2 then some .badParam
  else if c.param f s q = false then some .badParam
  else if c.opcode ≠ 0x0004 ∧ pendingTag s q.who q.tag then some .badParam
  else match c.priv f s q with
  | some e => some e
  | none =>
    if lifecycle f s = .retired ∧ retiredOk c.opcode = false then some .stateConflict
    else if famOk s.dev.st (c.opcode / 256) (c.narrow s.dev.st) = false then some .stateConflict
    else none

/-- BUSY of order 7 that no command decides itself: BUSY_LC (R382), and a slow or long command that would be the 17th (R45). -/
def busyNow (c : Spec) (s : Sys) (q : MbxReq) : Bool :=
  (s.sec.busyLc && c.opcode / 256 == 0x0B && c.opcode != 0x0B01) || (c.cls != .fast && decide (16 ≤ pendCount s q.who))

/-- The status of a refusal by the command's own checks: BUSY of order 7 precedes a refusal of orders 7 and 8 (R49). -/
def refusal (c : Spec) (s : Sys) (q : MbxReq) (e : Status) : Status :=
  if busyNow c s q ∧ (e = .noResource ∨ e = .updateBusy) then .busy else e

/-- What a refusal may show of the context or function that the request names (R42): nothing, where the request cannot name one (its length)
    or its requester does not reach it, so that the answer reveals no state (R49, R97; DEDUCED, log entry 122). -/
def shown (c : Spec) (f : FuseBank) (s : Sys) (q : MbxReq) (e : Status) : Option Nat :=
  if c.lenOk q.payload.length ∧ c.priv f s q = none ∧ e ≠ .privilege then c.named (touchSession s q.who q.token) q.payload else none

/-- MBX_DONE of a command that has ended (Table 3.12). -/
def postDone (s : Sys) (who : Requester) (tag opcode status : Nat) : Sys :=
  adminTo s who { AEv.of 0xE0 with tag, opcode, status }

/-- A command that ends at once: its final response, and MBX_DONE where DONE_EVT asks a fast command for it (R44). -/
def finishNow (s : Sys) (q : MbxReq) (opcode : Nat) (st : Status) (named : Option Nat) (data : Bytes) (evt : Bool) : Sys :=
  let r := mkResp s opcode q.tag st named (if st = .stateConflict then [] else data)
  let s := respond s q.who q.tag r
  if evt && q.flags.testBit 0 then postDone s q.who q.tag opcode r.status else s

/-- A mailbox command taken through its checks and its body (R43, R44, R49). -/
def mbxServe (c : Spec) (body : FuseBank → Sys → MbxReq → Ans) (f : FuseBank) (s : Sys) (q : MbxReq) : Sys :=
  let named := fun (s : Sys) => c.named s q.payload
  let no := fun (e : Status) => finishNow (touchSession s q.who q.token) q c.opcode e (shown c f s q e) [] (c.cls == .fast)
  match preCheck c f s q with
  | some e => no e
  | none =>
    match body f (touchSession s q.who q.token) q with
    | .no e => no (refusal c s q e)
    | .done s' d =>
      if busyNow c s q then no .busy
      else if c.cls = .fast then finishNow s' q c.opcode .ok (named s') d true
      else
        let n := named s'
        let s' := respond s' q.who q.tag (mkResp s c.opcode q.tag .accepted n [])
        let s' := { s' with svc := { s'.svc with pend := s'.svc.pend ++
          [{ who := q.who, tag := q.tag, opcode := c.opcode, ft := s'.time.ft, wait := .commit,
             res := some (mkResp s' c.opcode q.tag .ok n d), ctxId := n, tarn := ccAway s }] } }
        postDone s' q.who q.tag c.opcode 0
    | .doneAs s' st d =>
      if busyNow c s q then no .busy else finishNow s' q c.opcode st (if st = .privilege then none else named s') d true
    | .wait s' w =>
      if busyNow c s q then no .busy
      else
        let n := named s'
        let s' := respond s' q.who q.tag (mkResp s' c.opcode q.tag .accepted n [])
        { s' with svc := { s'.svc with pend := s'.svc.pend ++
          [{ who := q.who, tag := q.tag, opcode := c.opcode, ft := s'.time.ft, wait := w, res := none, ctxId := n, tarn := ccAway s' }] } }

/-- Commands that Tarn answers itself while the CC is away or the device is tripped (R366). -/
def tarnServes (opcode : Nat) : Bool :=
  opcode == 1 || opcode == 2 || opcode == 4 || opcode == 0x07E0 || opcode == 0x07E1 || opcode == 0x07F0 || opcode / 256 == 0x0A ||
    opcode == 0x0B01

/-- Tarn answers this request itself while the CC is away: MBX_RESULT only for a result of a command that it accepted itself (R366). -/
def tarnTakes (s : Sys) (opcode : Nat) (q : MbxReq) : Bool :=
  tarnServes opcode && (opcode != 4 || s.svc.pend.any fun p => p.who == q.who && p.tag == num q.payload 0 2 && p.tarn)

/-- The device has no CC and no Tarn firmware yet: WIPING and BOOT. -/
def early (s : Sys) : Bool := match s.dev.st with | .wiping | .boot => true | _ => false

/-- The mailbox of a function is closed (R451). -/
def mbxClosed (s : Sys) (hp fn : Nat) : Bool := early s || (getFn s hp fn).flr.isSome || !fnPresent s hp fn

/-- The request cannot be taken now: a doorbell on a mailbox that is closed or holds a request is ignored and sets OVR (R43, R451); while
    the CC is away the request is held, and over MCTP Tarn or the Wellhead ROM serves what R366 lists (R48). -/
def mbxGate (s : Sys) (opcode : Nat) (q : MbxReq) (serve : Sys → Sys) : Sys :=
  match q.who with
  | .fn hp fn =>
    if mbxClosed s hp fn ∨ (getFn s hp fn).mbx.held then modMbx s hp fn fun m => { m with ovr := true }
    else if ccAway s then
      let s := modMbx s hp fn fun m => { m with held := true, accepted := false, rspReady := false }
      { s with svc := { s.svc with held := (s.svc.held.filter fun h => h.req.who != q.who) ++ [{ opcode, req := q }] } }
    else serve s
  | .mctp e =>
    let good := match q.via with | some v => viaOk s v | none => mctpUp s e
    if good = false ∨ 4080 < q.payload.length then s
    else
    let s := match q.via with | some v => heardOver s e v.bus | none => s
    if early s then (if opcode = 1 ∨ opcode = 2 then serve s else finishNow s q opcode .busy none [] false)
    else if ccAway s && !tarnTakes s opcode q then { s with svc := { s.svc with held := s.svc.held ++ [{ opcode, req := q }] } }
    else serve s

/-- A mailbox command: taken when the service can, then run. -/
def mbxRun (c : Spec) (body : FuseBank → Sys → MbxReq → Ans) (f : FuseBank) (s : Sys) (q : MbxReq) : Sys :=
  mbxGate s c.opcode q fun s => mbxServe c body f s q

/-- A mailbox command after which something else goes on at once. -/
def mbxThen (c : Spec) (body : FuseBank → Sys → MbxReq → Ans) (after : Sys → Sys) (f : FuseBank) (s : Sys) (q : MbxReq) : Sys :=
  mbxGate s c.opcode q fun s => after (mbxServe c body f s q)

/-- The accepted command of a requester and tag ends: its result is stored with the states of this moment and MBX_DONE is
    posted (R44, R54). -/
def endPend (s : Sys) (p : Pend) (st : Status) (data : Bytes) : Sys :=
  let r := mkResp s p.opcode p.tag st p.ctxId data
  let s := { s with svc := { s.svc with pend := s.svc.pend.map fun x =>
      if x.who == p.who && x.tag == p.tag then { x with res := some r } else x } }
  postDone s p.who p.tag p.opcode r.status

/-- Every running command that waits for `w` ends. -/
def endWait (s : Sys) (w : Wait → Bool) (st : Status) (data : Bytes) : Sys :=
  (s.svc.pend.filter fun p => p.res.isNone && w p.wait).foldl (fun s p => endPend s p st data) s

/-- A running command waits for `w`. -/
def waiting (s : Sys) (w : Wait → Bool) : Bool := s.svc.pend.any fun p => p.res.isNone && w p.wait

/-- The lock's slot is abandoned: INVALID, and UPDATE_STAGING is left (R393). -/
def abandon (s : Sys) : Sys :=
  match s.upd.lock with
  | none => s
  | some l =>
    let s := bootWrite s { s with upd := { s.upd with
      lock := none, pulls := [],
      slots := s.upd.slots.modify l.slot fun x => { x with st := .invalid } } }
    if s.dev.st = .updateStaging then
      setDev s (match s.dev.stageFrom with | .quiesced => .quiesced | _ => readyOr s)
    else s

/-- SESSION_END (R59): sessions end with a reason; an ending by reset of the session's own function posts nothing. A requester
    that holds the staging lock through the session abandons it (R393). -/
def endSessions (s : Sys) (which : Session → Bool) (reason : Nat) (quiet : Requester → Bool) : Sys :=
  let ends := s.sec.sessions.filter which
  let s := { s with sec := { s.sec with sessions := s.sec.sessions.filter fun x => !which x } }
  let s := ends.foldl (fun s x =>
    if quiet x.who then s else adminTo s x.who { AEv.of 0xE4 with reason := reason }) s
  match s.upd.lock with
  | some l =>
    match l.holder with
    | .req who token =>
      let st := (s.upd.slots.getD l.slot Slot.reset).st
      if ends.any (fun x => x.who == who && x.token == token) ∧ (st = .staging ∨ st = .staged) then abandon s else s
    | _ => s
  | none => s

end Sys2Proof.Machine
end

