-- ==== Sys2Proof/Machine/Xlat.lean ====
section
/-!
DEFINITION. Host accesses and their translation (R106 to R125): the walk of two stages as a machine of host reads, the TLBs and
walk caches, faults, records and holds, and the device's reads on a host port (R69, R108). An access ends in the list `fin` of the
translation unit, from which what started it goes on.
-/
namespace Sys2Proof.Machine

/-! ### Contexts' states (R63, R99) -/

/-- A context enters a state; CTX_STATE goes to its function unless a command of that function, or its reset, is the cause (R63). -/
def ctxTo (s : Sys) (c : Nat) (st : CtxSt) (post : Bool) : Sys :=
  match getCtx s c with
  | none => s
  | some x =>
    if x.st = st then s
    else
      let s := modCtx s c fun x => { x with st := st }
      if post then adminFn s x.hp x.fn { AEv.of 0xE2 with new := st.code, old := x.st.code, tag := c } else s

/-- The stall reasons of a context as bits: RING, CMD, DATA (Table 5.3). -/
def stallBits (x : Ctx) : Nat := b2n x.ringSt + 2 * b2n x.cmdSt + 4 * b2n x.dataSt

/-- A stall reason is added: an ACTIVE context enters STALLED (R87, R99, R120). -/
def stall (s : Sys) (c : Nat) (g : Ctx → Ctx) : Sys :=
  let s := modCtx s c g
  match getCtx s c with
  | some x => if x.st = .active then ctxTo s c .stalled true else s
  | none => s

/-- A context whose last stall reason has gone is ACTIVE again (R99). -/
def unstall (s : Sys) (c : Nat) (post : Bool) : Sys :=
  match getCtx s c with
  | some x => if x.st = .stalled ∧ stallBits x = 0 then ctxTo s c .active post else s
  | none => s

/-! ### Reads on a host port (R69) -/

/-- Outstanding reads a link allows by the tags enabled on it; 14-bit tags exist in flit mode only (R69, R71, Table 4.1). -/
def tagLimit (l : HLink) : Nat := if l.tagBits = 14 ∧ l.flit then 2048 else if 10 ≤ l.tagBits then 768 else 256

/-- The first free tag for a link from the next one on: the links of a port share the tags that both can carry (R69, R71). -/
def freeTag (h : HPort) (lim : Nat) : Option Nat :=
  ((List.range lim).map fun i => (h.nextTag + i) % lim).find? fun t => !(h.reads.any fun r => r.tag == t)

/-- A read may be driven: its link is up and its function a bus master (PRESUMED, log entry 146), and then the tag it takes, if one is
    free for its link (R69, R94). -/
def readTag (s : Sys) (hp : Nat) (e : ReadE) : Option Nat :=
  let l := getLink s hp e.link
  if (getFn s hp e.fn).bme && l.up then freeTag (getHp s hp) (tagLimit l) else none

/-- A read that holds a tag is driven onto the link. -/
def readGo (s : Sys) (hp : Nat) (e : ReadE) (tag : Nat) : Sys :=
  let s := modHp s hp fun h => { h with reads := h.reads ++ [{ e with tag := tag, at_ := frame s }],
                                        nextTag := (tag + 1) % tagLimit (getLink s hp e.link) }
  emit s (.read hp e.fn tag e.bus e.len (getLink s hp e.link).ro)

/-- A read is asked for: it goes out if a tag is free, else it waits (R69). -/
def readAsk (s : Sys) (hp : Nat) (e : ReadE) : Sys :=
  let wait := modHp s hp fun h => { h with rdWait := h.rdWait ++ [e] }
  if (getHp s hp).rdWait.any fun w => w.link == e.link && w.fn == e.fn then wait
  else match readTag s hp e with
    | some t => readGo s hp e t
    | none => wait

/-- The reads that serve accesses which are no more: those waiting are dropped, those out are orphaned and keep their tags
    (R66, R93). -/
def orphanReads (s : Sys) (which : Nat → Bool) : Sys :=
  { s with hps := s.hps.map fun h =>
      { h with rdWait := h.rdWait.filter fun e => !which e.acc,
               reads := h.reads.map fun e => if which e.acc then { e with orphan := true } else e } }

/-! ### Accesses in progress -/

/-- An access by number. -/
def getAcc (s : Sys) (id : Nat) : Option Acc := s.xl.accs.find? fun a => a.id == id

/-- An access replaced. -/
def putAcc (s : Sys) (a : Acc) : Sys :=
  { s with xl := { s.xl with accs := s.xl.accs.map fun x => if x.id == a.id then a else x } }

/-- An access ends: it leaves the list, its other reads are orphaned, and its end waits to be taken up. -/
def endAcc (s : Sys) (a : Acc) (e : AccEnd) : Sys :=
  let s := orphanReads s fun i => i == a.id
  { s with xl := { s.xl with accs := s.xl.accs.filter fun x => x.id != a.id, fin := s.xl.fin ++ [(a, e)] } }

/-- Accesses are given up (an abort): nothing follows from them. -/
def dropAccs (s : Sys) (which : Acc → Bool) : Sys :=
  let gone := (s.xl.accs.filter which).map fun a => a.id
  let s := orphanReads s fun i => gone.contains i
  { s with xl := { s.xl with accs := s.xl.accs.filter fun a => !which a, fin := s.xl.fin.filter fun e => !which e.1 } }

/-! ### Entries and checks (R107 to R109) -/

/-- The class of an access as a page sees it: read, write or atomic. -/
inductive PKind where
  | read | write | atomic
  deriving DecidableEq, Repr

/-- The page class of an access kind (R108). -/
def AccKind.page : AccKind → PKind
  | .fetch | .lread | .iread => .read
  | .cwrite | .lwrite | .iwrite => .write
  | .iatomic => .atomic

/-- A command-side access (FETCH, CWRITE). -/
def AccKind.cmd : AccKind → Bool | .fetch | .cwrite => true | _ => false

/-- An inbound access. -/
def AccKind.inb : AccKind → Bool | .iread | .iwrite | .iatomic => true | _ => false

/-- The code of an access kind (Table 5.8). -/
def AccKind.code : AccKind → Nat
  | .fetch => 0 | .cwrite => 1 | .lread => 2 | .lwrite => 3 | .iread => 4 | .iwrite => 5 | .iatomic => 6

/-- The code of a cause (Table 5.10). -/
def Cause.code : Cause → Nat
  | .notPresent => 1 | .permRead => 2 | .permWrite => 3 | .user => 4 | .supGuard => 5 | .aTrap => 6 | .dTrap => 7 | .rsvdBits => 8
  | .badLeaf => 9 | .addrRange => 10 | .walkDevice => 11 | .walkBus => 12 | .walkTimeout => 13 | .hostBus => 14 | .hostTimeout => 15

/-- The log2 of what a leaf maps at a level (R107). -/
def pageLog (level : Nat) : Nat := 39 - 9 * level

/-- Index of an address at a level. -/
def ptIdx (addr level : Nat) : Nat := bits addr (pageLog level) 9

/-- The ADDR field as an address. -/
def pteAddr (e : Nat) : Nat := bits e 12 40 * 4096

/-- The output address of a leaf. -/
def leafOut (e addr level : Nat) : Nat := pteAddr e / 2 ^ pageLog level * 2 ^ pageLog level + addr % 2 ^ pageLog level

/-- Check 4: the supervisor guard (R109). -/
def guardCheck (sup sug cmd : Bool) (e : Nat) : Option Cause :=
  if sup then (if e.testBit 4 && (cmd || !sug) then some .supGuard else none)
  else if e.testBit 4 then none else some .user

/-- Check 5: permissions. -/
def permCheck (k : PKind) (e : Nat) : Option Cause :=
  match k with
  | .read => if e.testBit 2 then none else some .permRead
  | .write => if e.testBit 3 then none else some .permWrite
  | .atomic => if !e.testBit 2 then some .permRead else if !e.testBit 3 then some .permWrite else none

/-- Check 6: A and D under AD_TRAP. -/
def adCheck (trap : Bool) (k : PKind) (e : Nat) : Option Cause :=
  if trap then
    (if !e.testBit 5 then some .aTrap else if k ≠ .read ∧ e.testBit 6 = false then some .dTrap else none)
  else none

/-- Checks 1 to 3 of R108, for an entry of a level; `s2` for stage 2, whose leaves reserve U. -/
def formCheck (s2 : Bool) (level e : Nat) : Option Cause :=
  let leaf := e.testBit 1
  if e.testBit 0 = false then some .notPresent
  else if bits e 52 12 ≠ 0 ∨ bits e 7 5 ≠ 0 ∨ (leaf ∧ s2 ∧ e.testBit 4) ∨
          (leaf ∧ (level = 1 ∨ level = 2) ∧ pteAddr e % 2 ^ pageLog level ≠ 0) then some .rsvdBits
  else if (leaf ∧ level = 0) ∨ (leaf = false ∧ 3 ≤ level) then some .badLeaf
  else none

/-- The protection domain of a context. -/
def pdOf (s : Sys) (c : Nat) : Option Pd := (getCtx s c).bind fun x => tget s.xl.pds x.pd

/-- The PDID of a context. -/
def pdidOf (s : Sys) (c : Nat) : Nat := ((getCtx s c).map (·.pd)).getD 0

/-- Checks 4 to 6 against the leaf of stage 1. -/
def leafCheck1 (s : Sys) (c : Nat) (k : AccKind) (e : Nat) : Option Cause :=
  let sup := ((getCtx s c).map (·.sup)).getD false
  let pd := pdOf s c
  (guardCheck sup ((pd.map (·.sug)).getD false) k.cmd e).or
    ((permCheck k.page e).or (adCheck ((pd.map (·.adTrap)).getD false) k.page e))

/-- Checks 5 and 6 against the leaf of stage 2. -/
def leafCheck2 (s : Sys) (hp fn : Nat) (k : PKind) (e : Nat) : Option Cause :=
  (permCheck k e).or (adCheck (getFn s hp fn).s2Ad k e)

/-! ### TLBs and walk caches (R111, R112, R125) -/

/-- An entry installed at an epoch is too old under XLAT_AGE (R125). -/
def aged (s : Sys) (ep : Nat) : Bool := s.xl.age != 0 && decide (ep + s.xl.age ≤ epoch s)

/-- A combined entry maps an address of a PD. -/
def TlbE.maps (e : TlbE) (pd va : Nat) : Bool := e.pd == pd && va / 2 ^ e.size == e.page

/-- The combined entry for an address of a PD. -/
def tlbFind (s : Sys) (l : List TlbE) (pd va : Nat) : Option TlbE := l.find? fun e => e.maps pd va && !aged s e.epoch

/-- A lookup drops an entry for the address that is too old (R125). -/
def tlbAge (s : Sys) (l : List TlbE) (pd va : Nat) : List TlbE :=
  if s.xl.age = 0 then l else l.filter fun e => !(e.maps pd va && aged s e.epoch)

/-- The combined entries of the L2 TLB. -/
def l2Comb (l : List L2E) : List TlbE := l.filterMap fun e => match e with | .comb x => some x | .reg _ _ _ => none

/-- The combined entries of the L2 TLB that satisfy a test stay, and every region entry does. -/
def l2Keep (l : List L2E) (p : TlbE → Bool) : List L2E := l.filter fun e => match e with | .comb x => p x | .reg _ _ _ => true

/-- The checks made on a hit (R112). -/
def hitOk (s : Sys) (a : Acc) (e : TlbE) : Bool :=
  (match e.perm1 with | some p => (leafCheck1 s a.ctx a.kind p).isNone | none => true) &&
  (match e.perm2 with | some p => (leafCheck2 s a.hp a.fn a.kind.page p).isNone | none => true)

/-- The L1 TLB that serves an access. -/
def l1Of (s : Sys) (a : Acc) : List TlbE := if a.kind.cmd then (getHp s a.hp).ctlb else (getHp s a.hp).dtlb

/-- The L1 TLB of an access changed. -/
def modL1 (s : Sys) (a : Acc) (g : List TlbE → List TlbE) : Sys :=
  modHp s a.hp fun h => if a.kind.cmd then { h with ctlb := g h.ctlb } else { h with dtlb := g h.dtlb }

/-- An entry put into a structure of `ways` ways, where its set has room or else in place of the oldest entry of its set (log entry 22). -/
def setPut {α : Type} [DecidableEq α] (ways : Nat) (set : α → Nat) (l : List α) (e : α) : List α :=
  if l.length < ways then l ++ [e]
  else
    let same := l.filter fun x => set x == set e
    if same.length < ways then l ++ [e]
    else match same with
    | old :: _ => l.erase old ++ [e]
    | [] => l ++ [e]

/-- The set of a combined entry in the DTLB: 64 sets of 4 ways (Table 5.7). -/
def dtlbSet (e : TlbE) : Nat := Config.tlbSet 0 e.pd e.page e.size % 64

/-- The set of an entry in the L2 TLB: 65,536 sets of 16 ways. -/
def l2Set (e : L2E) : Nat :=
  match e with
  | .comb x => Config.tlbSet 1 x.pd x.page x.size % 65536
  | .reg hp idx _ => Config.tlbSet 2 hp idx 0 % 65536

/-- The set of a walk-cache entry: 256 sets of 8 ways. -/
def wcSet (e : WalkE) : Nat := Config.tlbSet 3 e.owner e.pfx e.level % 256

/-- A combined entry put into the CTLB (fully associative) or the DTLB. -/
def l1Put (cmd : Bool) (l : List TlbE) (e : TlbE) : List TlbE :=
  let l := l.filter fun x => !(x.pd == e.pd && x.page == e.page && x.size == e.size)
  if cmd then setPut 64 (fun _ => 0) l e else setPut 4 dtlbSet l e

/-- An entry put into the L2 TLB. -/
def l2Put (l : List L2E) (e : L2E) : List L2E :=
  setPut 16 l2Set (l.filter fun x => match x, e with
    | .comb a, .comb b => !(a.pd == b.pd && a.page == b.page && a.size == b.size)
    | .reg h i _, .reg h' i' _ => !(h == h' && i == i')
    | _, _ => true) e

/-- A combined entry installed in the L1 TLB of an access and, where asked, in the L2 TLB (Table 5.7). -/
def tlbInstall (s : Sys) (a : Acc) (e : TlbE) (l2 : Bool) : Sys :=
  let s := modL1 s a fun l => l1Put a.kind.cmd l e
  if l2 then { s with xl := { s.xl with l2 := l2Put s.xl.l2 (.comb e) } } else s

/-- The region entry of a port that the L2 TLB holds (R102). -/
def regionCached (s : Sys) (hp idx : Nat) : Option Region :=
  s.xl.l2.findSome? fun e => match e with | .reg h i r => if h == hp && i == idx then some r else none | .comb _ => none

/-- A region entry put into the L2 TLB (R102). -/
def regionPut (s : Sys) (hp idx : Nat) (r : Region) : Sys := { s with xl := { s.xl with l2 := l2Put s.xl.l2 (.reg hp idx r) } }

/-- Non-leaf entries put into a walk cache. -/
def walkPut (l : List WalkE) (es : List WalkE) : List WalkE :=
  es.foldl (fun l e => setPut 8 wcSet (l.filter fun x => !(x.owner == e.owner && x.pfx == e.pfx && x.level == e.level)) e) l

/-- A walk-cache entry serves an address of an owner. -/
def WalkE.serves (e : WalkE) (owner addr : Nat) : Bool := e.owner == owner && addr / 2 ^ pageLog e.level == e.pfx

/-- A lookup drops a walk-cache entry for the address that is too old (R125). -/
def walkAge (s : Sys) (l : List WalkE) (owner addr : Nat) : List WalkE :=
  if s.xl.age = 0 then l else l.filter fun e => !(e.serves owner addr && aged s e.epoch)

/-- Where a walk of an address starts: the deepest cached level and the table below it, else level 0 and the root. -/
def walkStart (s : Sys) (l : List WalkE) (owner addr root : Nat) : Nat × Nat :=
  let at_ := fun lv => l.find? fun e => e.level == lv && e.serves owner addr && !aged s e.epoch
  match at_ 2, at_ 1, at_ 0 with
  | some e, _, _ => (3, e.next)
  | none, some e, _ => (2, e.next)
  | none, none, some e => (1, e.next)
  | none, none, none => (0, root)

/-- A bus address lies in a DEVICE window of a port (R114, R115). -/
def inDevice (s : Sys) (hp bus : Nat) : Bool :=
  (getHp s hp).windows.any fun w => w.2.en && w.2.device && decide (w.2.base ≤ bus) && decide (bus / 4096 ≤ w.2.last / 4096)

/-! ### Faults (R116 to R120) -/

/-- Where and why an access faulted: stage, level, stage-2 level, WALK, cause, IPA, entry. -/
structure XF where
  stage : Nat
  level : Nat
  s2level : Nat
  walk : Bool
  cause : Cause
  ipa : Nat
  pte : Nat
  deriving DecidableEq, Repr

/-- The next fault identifier: not 0 and not held (R117). -/
def nextFaultId (s : Sys) : Nat :=
  let ok := fun i => i != 0 && !(s.xl.holds.any fun h => h.id == i)
  (((List.range (s.xl.holds.length + 2)).map fun i => (s.xl.nextFault + i) % 2 ^ 32).find? ok).getD 1

/-- The function on whose ring a fault is recorded (R116). -/
def faultFn (a : Acc) (x : XF) : Nat := if x.stage = 2 then 0 else a.fn

/-- A fault record written to the responsible ring, with its interrupt (R116, R117, Table 5.8). -/
def faultRecord (s : Sys) (a : Acc) (x : XF) (id va : Nat) (resumable : Bool) : Sys :=
  let fn := faultFn a x
  match (getFn s a.hp fn).mbx.xfault with
  | none => s
  | some r =>
    let (i, ph, lost, r') := r.push
    let s := modMbx s a.hp fn fun m => { m with xfault := some r' }
    let rec_ := le 1 0xF0 ++ le 1 (b2n ph + 2 * b2n lost + 4 * b2n resumable + 8 * b2n x.walk) ++
      le 1 (x.stage + 4 * x.level + 16 * x.s2level) ++ le 1 x.cause.code ++ le 1 a.kind.code ++ le 1 a.hp ++ le 1 a.fn ++ zeros 1 ++
      le 2 a.ctx ++ le 2 (pdidOf s a.ctx) ++ le 4 id ++ le 8 va ++ le 8 x.ipa ++ le 8 x.pte ++ le 8 s.time.ft ++
      le 4 (if a.kind.inb then a.sfeid else 0) ++ zeros 12
    let s := fnCount s a.hp fn 7 1
    msix (hostWrite s a.hp fn (r.base + 64 * i) rec_ false none) a.hp fn r.vector

/-- An inbound hold marks the page of an address (R120). -/
def inboundMark (s : Sys) (a : Acc) (x : XF) (va : Nat) : HoldKind :=
  if x.stage = 2 then .inbound2 (fnKey a.hp a.fn) (x.ipa / 4096) else .inbound1 (pdidOf s a.ctx) (va / 4096)

/-- The number of inbound holds. -/
def inboundHolds (s : Sys) : Nat :=
  (s.xl.holds.filter fun h => match h.kind with | .inbound1 _ _ | .inbound2 _ _ => true | _ => false).length

/-- Causes that an inbound access or a DATA_STALL read may outlive (Table 5.11, first column). -/
def Cause.soft : Cause → Bool | .notPresent | .aTrap | .dTrap => true | _ => false

/-- An access that DATA_STALL does not hold although it reads: the overflow area's data coming back (R168). -/
def noStall (a : Acc) : Bool := match a.cont with | .ovfRead _ _ => true | _ => false

/-- TRANSLATION_FAULT (R120, Table 5.11): the access is held, refused for now, or ends. `va` is the context address. Every fault takes a
    FAULT_ID, one without a record and without a hold too (DESIGN CHOICE, log entry 106: R117 counts across the device and does not say what
    is counted). -/
def xfaultNow (s : Sys) (a : Acc) (x : XF) (va : Nat) : Sys :=
  let id := nextFaultId s
  let s0 := { s with xl := { s.xl with nextFault := (id + 1) % 2 ^ 32 } }
  let hold := fun (s : Sys) (k : HoldKind) (acc : Nat) =>
    { s with xl := { s.xl with holds := s.xl.holds ++
      [{ id, kind := k, ctx := a.ctx, fnKey := fnKey a.hp a.fn, stage := x.stage, addr := va, ipa := x.ipa, acc }] } }
  if a.kind.inb then
    let mark := inboundMark s a x va
    if s.xl.holds.any fun h => h.kind == mark then endAcc s a .retry
    else if x.cause.soft && (getFn s a.hp (faultFn a x)).mbx.xfault.isSome && decide (inboundHolds s < 1024) then
      endAcc (hold (faultRecord s0 a x id va true) mark a.id) a .retry
    else endAcc (faultRecord s0 a x id va false) a .xfault
  else
    let keep := fun (s : Sys) =>
      orphanReads (putAcc s { a with held := true, walk := none, bus := [], got := [], want := 0, used := [] }) fun i => i == a.id
    if a.kind.cmd then
      let s := hold (keep (faultRecord s0 a x id va true)) .cmd a.id
      stall s a.ctx fun c => { c with cmdSt := true }
    else if a.kind == .lread && !noStall a && x.cause.soft && ((pdOf s a.ctx).map (·.dataStall)).getD false then
      let s := hold (keep (faultRecord s0 a x id va true)) .data a.id
      stall s a.ctx fun c => { c with dataSt := true }
    else endAcc (faultRecord s0 a x id va false) a .xfault

/-! ### The walk (R108, R119) -/

/-- Bytes of an access already translated. -/
def doneLen (a : Acc) : Nat := (a.bus.map (·.2)).sum

/-- The context address being translated. -/
def accVa (a : Acc) : Nat := (a.addr + doneLen a) % 2 ^ 64

/-- The walk of an access would read an entry in a DEVICE window: it faults at the stage and level of that entry (R115, R119). -/
def deviceFault (s : Sys) (a : Acc) (w : Walk) : Sys :=
  let x : XF := match w.s2lvl, w.s1lvl with
    | some j, some l => { stage := 2, level := l, s2level := j, walk := true, cause := .walkDevice, ipa := w.ipa, pte := 0 }
    | some j, none => { stage := 2, level := j, s2level := 0, walk := false, cause := .walkDevice, ipa := w.ipa, pte := 0 }
    | none, l => { stage := 1, level := l.getD 0, s2level := 0, walk := false, cause := .walkDevice, ipa := 0, pte := 0 }
  xfaultNow (putAcc s { a with walk := none }) { a with walk := none } x (accVa a)

/-- An entry read is issued, unless it would fall in a DEVICE window (R115). -/
def walkRead (s : Sys) (a : Acc) (w : Walk) (bus : Nat) : Sys :=
  if inDevice s a.hp bus then deviceFault s a w
  else
    let s := putAcc (count s 85 0x04 1) { a with walk := some w }
    readAsk s a.hp { tag := 0, link := onLinkB s a.hp a.fn, fn := a.fn, ctx := a.ctx, acc := a.id, walk := true, off := 0, len := 8,
                     bus := bus, orphan := false }

/-- The longest-waiting read of a port that can go, with its tag. -/
def nextRead (s : Sys) (hp : Nat) : Option (ReadE × Nat) :=
  (getHp s hp).rdWait.findSome? fun e => (readTag s hp e).map fun t => (e, t)

/-- Reads that wait take the tags that are free, the longest-waiting first, within `n` of them; an entry read is compared with the map that
    is in force when it would be issued (R69, R114, R115). -/
def readsGo : Nat → Sys → Nat → Sys
  | 0, s, _ => s
  | n + 1, s, hp =>
    match nextRead s hp with
    | some (e, t) =>
      let s := modHp s hp fun h => { h with rdWait := h.rdWait.erase e }
      if e.walk && inDevice s hp e.bus then
        match getAcc s e.acc with
        | some a => readsGo n (match a.walk with | some w => deviceFault s a w | none => s) hp
        | none => readsGo n s hp
      else readsGo n (readGo s hp e t) hp
    | none => s

/-- The reads of a port that can go do. -/
def readNext (s : Sys) (hp : Nat) : Sys := readsGo (getHp s hp).rdWait.length s hp

/-- A fault of stage 2 at a level, seen from a walk (R119). -/
def xf2 (w : Walk) (j : Nat) (cause : Cause) (pte : Nat) : XF :=
  match w.s1lvl with
  | some l => { stage := 2, level := l, s2level := j, walk := true, cause, ipa := w.ipa, pte }
  | none => { stage := 2, level := j, s2level := 0, walk := false, cause, ipa := w.ipa, pte }

/-- Stage 2 of an IPA begins (R106). -/
def beginS2 (s : Sys) (a : Acc) (w : Walk) (ipa : Nat) : Sys :=
  let w := { w with ipa := ipa }
  if 2 ^ 48 ≤ ipa then xfaultNow s { a with walk := none } (xf2 w 0 .addrRange 0) (accVa a)
  else
    let s := { s with xl := { s.xl with wc2 := walkAge s s.xl.wc2 (fnKey a.hp a.fn) ipa } }
    let (j, t) := walkStart s s.xl.wc2 (fnKey a.hp a.fn) ipa (getFn s a.hp a.fn).s2Root
    walkRead s a { w with s2lvl := some j, table := t } (t + 8 * ptIdx ipa j)

/-- Stage 1 at a level, in a table at an IPA. -/
def beginS1 (s : Sys) (a : Acc) (w : Walk) (level table : Nat) : Sys :=
  let w := { w with s1lvl := some level, s2lvl := none, table := table }
  let e := table + 8 * ptIdx w.va level
  if (getFn s a.hp a.fn).s2En then beginS2 s a w e else walkRead s a { w with ipa := e } e

/-- What a finished translation gives: bus address, page size, the leaf bits of both stages. -/
structure Xd where
  bus : Nat
  size : Nat
  perm1 : Option Nat
  perm2 : Option Nat
  deriving DecidableEq, Repr

/-- What a walk has found is installed, unless a matching invalidation was accepted meanwhile (R111, R113). -/
def walkInstall (s : Sys) (a : Acc) (d : Xd) (w : Walk) : Sys :=
  if w.dirty then s
  else
    let va := accVa a
    let s := { s with xl := { s.xl with wc1 := walkPut s.xl.wc1 w.got1, wc2 := walkPut s.xl.wc2 w.got2 } }
    tlbInstall s a { pd := pdidOf s a.ctx, page := va / 2 ^ d.size, size := d.size, bus := d.bus / 2 ^ d.size * 2 ^ d.size,
                     perm1 := d.perm1, perm2 := d.perm2, epoch := epoch s } true

/-- A page of an access is translated, by the walk given if by one, and taken up by the access. -/
def pageDone (s : Sys) (a : Acc) (d : Xd) (walk : Option Walk) : Sys × Acc :=
  let va := accVa a
  let n := min (a.len - doneLen a) (4096 - va % 4096)
  let a' := { a with bus := a.bus ++ [(d.bus, n)], walk := none, used := a.used ++ [(va / 2 ^ d.size, d.size)] }
  let s := match walk with | some w => walkInstall s a d w | none => s
  (putAcc s a', a')

/-- The pieces of a read by offset: page by page, at most `n` bytes each, within `fuel` pieces. -/
def pieces (n : Nat) : Nat → Nat → List (Nat × Nat) → List (Nat × Nat × Nat)
  | 0, _, _ => []
  | _, _, [] => []
  | fuel + 1, off, (b, l) :: t =>
    if l ≤ n then (off, b, l) :: pieces n fuel (off + l) t else (off, b, n) :: pieces n fuel (off + n) ((b + n, l - n) :: t)

/-- The data of a write cut to the pages it goes to. -/
def writePieces : Bytes → List (Nat × Nat) → List (Nat × Bytes)
  | _, [] => []
  | d, (b, l) :: t => (b, d.take l) :: writePieces (d.drop l) t

/-- An access that asks for the translation only. -/
def admits (a : Acc) : Bool := match a.cont with | .checkIn _ => true | _ => false

/-- An access that reads a region table entry (R102). -/
def readsRegion (a : Acc) : Bool := match a.cont with | .region _ => true | _ => false

/-- Every page is translated: writes are sent, reads are issued (R70, R74). A read of the region table is the PF's and no context's. -/
def perform (s : Sys) (a : Acc) : Sys :=
  if admits a then endAcc s a (.ok [])
  else match a.kind with
  | .cwrite | .lwrite | .iwrite =>
    let ro := a.kind != .cwrite
    let s := (writePieces a.data a.bus).foldl (fun s p => hostWrite s a.hp a.fn p.1 p.2 ro a.steer) s
    let s := if ro then fnCount s a.hp a.fn 3 a.data.length else s
    endAcc s a (.ok [])
  | _ =>
    let lim := min 512 (linkOf s a.hp a.fn).mrrs
    let ps := pieces lim (a.len + 1) 0 a.bus
    let s := putAcc s { a with want := ps.length }
    ps.foldl (fun s p => readAsk s a.hp
      { tag := 0, link := onLinkB s a.hp a.fn, fn := a.fn, ctx := if readsRegion a then 65536 else a.ctx, acc := a.id, walk := false, off := p.1, len := p.2.2,
        bus := p.2.1, orphan := false }) s

/-- The translation of an access goes on until it needs an entry from memory, faults, or is complete. -/
def accGo : Nat → Sys → Acc → Sys
  | 0, s, _ => s
  | fuel + 1, s, a =>
    if a.len ≤ doneLen a then perform s a
    else
      let va := accVa a
      let pd := pdOf s a.ctx
      let s1 := (pd.map (·.s1En)).getD false
      let f := getFn s a.hp a.fn
      if 2 ^ 48 ≤ va then
        xfaultNow s a { stage := 1, level := 0, s2level := 0, walk := false, cause := .addrRange, ipa := 0, pte := 0 } va
      else if s1 = false ∧ f.s2En = false then
        let (s, a) := pageDone s a { bus := va, size := 12, perm1 := none, perm2 := none } none
        accGo fuel s a
      else
        let pdid := pdidOf s a.ctx
        let start := fun (s : Sys) =>
          let w : Walk := { va := va, s1lvl := none, s2lvl := none, table := 0, ipa := 0, leaf := none, dirty := false }
          if s1 then
            let s := { s with xl := { s.xl with wc1 := walkAge s s.xl.wc1 pdid va } }
            let (l, t) := walkStart s s.xl.wc1 pdid va ((pd.map (·.root)).getD 0)
            beginS1 s a w l t
          else beginS2 s a w va
        let use := fun (s : Sys) (e : TlbE) (l1 : Bool) =>
          let d : Xd := { bus := e.bus + va % 2 ^ e.size, size := e.size, perm1 := e.perm1, perm2 := e.perm2 }
          let s := if l1 then s else tlbInstall s a e false
          pageDone s a d none
        let s := if s.xl.age = 0 then s else modL1 s a fun l => tlbAge s l pdid va
        match tlbFind s (l1Of s a) pdid va with
        | some e =>
          if hitOk s a e then (let r := use s e true; accGo fuel r.1 r.2)
          else start (modL1 s a fun l => l.erase e)
        | none =>
          let s := count s 85 (if a.kind.cmd then 0x01 else 0x02) 1
          let s := if s.xl.age = 0 then s
            else { s with xl := { s.xl with l2 := l2Keep s.xl.l2 fun e => !(e.maps pdid va && aged s e.epoch) } }
          match tlbFind s (l2Comb s.xl.l2) pdid va with
          | some e =>
            if hitOk s a e then (let r := use s e false; accGo fuel r.1 r.2)
            else start { s with xl := { s.xl with l2 := s.xl.l2.erase (.comb e) } }
          | none => start (count s 85 0x03 1)

/-- Steps an access of a length can need without reading memory. -/
def accFuel (a : Acc) : Nat := a.len / 4096 + 3

/-- An entry of stage 2 has been read. -/
def walkData2 (s : Sys) (a : Acc) (w : Walk) (j pte : Nat) : Sys :=
  let k := if w.s1lvl.isSome then PKind.read else a.kind.page
  let a0 := { a with walk := none }
  match formCheck true j pte with
  | some c => xfaultNow s a0 (xf2 w j c pte) (accVa a)
  | none =>
    if pte.testBit 1 = false then
      let e : WalkE := { owner := fnKey a.hp a.fn, pfx := w.ipa / 2 ^ pageLog j, level := j, next := pteAddr pte, epoch := epoch s }
      walkRead s a { w with s2lvl := some (j + 1), table := pteAddr pte, got2 := w.got2 ++ [e] } (pteAddr pte + 8 * ptIdx w.ipa (j + 1))
    else match leafCheck2 s a.hp a.fn k pte with
    | some c => xfaultNow s a0 (xf2 w j c pte) (accVa a)
    | none =>
      let bus := leafOut pte w.ipa j
      match w.s1lvl with
      | some _ => walkRead s a { w with s2lvl := none } bus
      | none =>
        let sz1 := match w.leaf with | some (_, l) => pageLog l | none => 48
        let r := pageDone s a0 { bus, size := min sz1 (pageLog j), perm1 := w.leaf.map fun e => e.1 % 128, perm2 := some (pte % 128) }
          (some w)
        accGo (accFuel a) r.1 r.2

/-- An entry of stage 1 has been read. -/
def walkData1 (s : Sys) (a : Acc) (w : Walk) (l pte : Nat) : Sys :=
  let a0 := { a with walk := none }
  let bad := fun c => xfaultNow s a0 { stage := 1, level := l, s2level := 0, walk := false, cause := c, ipa := 0, pte } (accVa a)
  match formCheck false l pte with
  | some c => bad c
  | none =>
    if pte.testBit 1 = false then
      let e : WalkE := { owner := pdidOf s a.ctx, pfx := w.va / 2 ^ pageLog l, level := l, next := pteAddr pte, epoch := epoch s }
      beginS1 s a { w with got1 := w.got1 ++ [e] } (l + 1) (pteAddr pte)
    else match leafCheck1 s a.ctx a.kind pte with
    | some c => bad c
    | none =>
      let ipa := leafOut pte w.va l
      if (getFn s a.hp a.fn).s2En then beginS2 s a { w with s1lvl := none, leaf := some (pte, l) } ipa
      else
        let r := pageDone s a0 { bus := ipa, size := pageLog l, perm1 := some (pte % 128), perm2 := none } (some w)
        accGo (accFuel a) r.1 r.2

/-- A walk read has failed: WALK_BUS_ERROR or WALK_TIMEOUT at the entry being read (R108). -/
def walkFail (s : Sys) (a : Acc) (w : Walk) (c : Cause) : Sys :=
  let a0 := { a with walk := none }
  match w.s2lvl with
  | some j => xfaultNow s a0 (xf2 w j c 0) (accVa a)
  | none => xfaultNow s a0 { stage := 1, level := w.s1lvl.getD 0, s2level := 0, walk := false, cause := c, ipa := 0, pte := 0 } (accVa a)

/-- A new host access (R108). The caller settles what has ended afterwards. -/
def startAcc (s : Sys) (ctx : Nat) (kind : AccKind) (addr len : Nat) (data : Bytes) (sfeid : Nat) (cont : Cont)
    (steer : Option Nat) : Sys :=
  match getCtx s ctx with
  | none => s
  | some x =>
    let a : Acc := { id := s.xl.nextAcc, ctx, hp := x.hp, fn := x.fn, kind, addr, len, data, sfeid, cont, bus := [], walk := none,
                     got := [], want := 0, steer, held := false, retry := none }
    accGo (accFuel a) { s with xl := { s.xl with accs := s.xl.accs ++ [a], nextAcc := s.xl.nextAcc + 1 } } a

/-- Gathered read data in order of offset. -/
def gather (got : List (Nat × Bytes)) : Bytes := ((got.mergeSort fun x y => decide (x.1 ≤ y.1)).map (·.2)).flatten

/-- A read brings payload: it fetches no descriptor, no table entry and no member list (R424). -/
def readsPayload (a : Acc) : Bool :=
  match a.cont with
  | .fetchDesc _ _ | .region _ | .colList _ _ _ => false
  | _ => true

/-- Data of one read of an access; the last one completes it. -/
def readData (s : Sys) (a : Acc) (off : Nat) (data : Bytes) : Sys :=
  let a := { a with got := a.got ++ [(off, data)] }
  if a.want ≤ a.got.length then endAcc (if readsPayload a then fnCount s a.hp a.fn 4 a.len else s) a (.ok (gather a.got))
  else putAcc s a

/-- A read has ended, with data or a failure: its tag is free, and what it served goes on (R66, R108). -/
def readEnd (s : Sys) (hp tag : Nat) (res : Cause ⊕ Bytes) : Sys :=
  match (getHp s hp).reads.find? fun r => r.tag == tag with
  | none => s
  | some r =>
    let s := modHp s hp fun h => { h with reads := h.reads.filter fun x => x.tag != tag }
    let s := readNext s hp
    if r.orphan then s
    else match getAcc s r.acc with
    | none => s
    | some a =>
      match res, a.walk with
      | .inr d, some w =>
        if r.walk then
          let pte := num (fit 8 d) 0 8
          match w.s2lvl, w.s1lvl with
          | some j, _ => walkData2 s a w j pte
          | none, some l => walkData1 s a w l pte
          | none, none => s
        else s
      | .inr d, none => readData s a r.off (fit r.len d)
      | .inl c, some w => walkFail s a w (if c = .hostTimeout then .walkTimeout else .walkBus)
      | .inl c, none =>
        if readsRegion a then endAcc s a .xfault
        else xfaultNow s a { stage := 0, level := 0, s2level := 0, walk := false, cause := c, ipa := 0, pte := 0 } a.addr

/-! ### Invalidation (R113, R121, R122) -/

/-- A walk at an address may find or use an entry that overlaps a range: both lie under one entry of level 0 (R107, R113). -/
def walkNear (w : Walk) (lo hi : Nat) : Bool :=
  decide (lo / 2 ^ pageLog 0 ≤ w.va / 2 ^ pageLog 0) && decide (w.va / 2 ^ pageLog 0 ≤ (hi - 1) / 2 ^ pageLog 0)

/-- Combined entries and stage-1 walk entries of a PD that overlap a range leave every structure; walks of it are marked. -/
def invalPd (s : Sys) (which : Nat → Bool) (lo hi : Nat) : Sys :=
  let keepT := fun (e : TlbE) => !(which e.pd && decide (e.page * 2 ^ e.size < hi) && decide (lo < (e.page + 1) * 2 ^ e.size))
  let keepW := fun (e : WalkE) => !(which e.owner && decide (e.pfx * 2 ^ pageLog e.level < hi) &&
    decide (lo < (e.pfx + 1) * 2 ^ pageLog e.level))
  { s with
    hps := s.hps.map fun h => { h with ctlb := h.ctlb.filter keepT, dtlb := h.dtlb.filter keepT },
    xl := { s.xl with
      l2 := l2Keep s.xl.l2 keepT, wc1 := s.xl.wc1.filter keepW,
      accs := s.xl.accs.map fun a =>
        if which (pdidOf s a.ctx) then
          { a with walk := a.walk.map fun w => if walkNear w lo hi then { w with dirty := true } else w }
        else a } }

/-- Stage-2 walk entries of functions that overlap a range of IPAs leave the cache; walks of those functions are marked. -/
def invalFn (s : Sys) (which : Nat → Bool) (lo hi : Nat) : Sys :=
  { s with xl := { s.xl with
      wc2 := s.xl.wc2.filter fun e => !(which e.owner && decide (e.pfx * 2 ^ pageLog e.level < hi) &&
        decide (lo < (e.pfx + 1) * 2 ^ pageLog e.level)),
      accs := s.xl.accs.map fun a =>
        if which (fnKey a.hp a.fn) then { a with walk := a.walk.map fun w => { w with dirty := true } } else a } }

/-- The PDs of functions. -/
def pdsOf (s : Sys) (which : Nat → Bool) (pd : Nat) : Bool :=
  match tget s.xl.pds pd with | some x => which (fnKey x.hp x.fn) | none => false

/-- An XLAT_INVALIDATE of scope 0 or 1 on a PD. -/
def invalRange (s : Sys) (pd lo hi : Nat) : Sys := invalPd s (· == pd) lo hi

/-- An invalidation of everything of some functions (scopes 2 to 4): all combined entries of their PDs (R122). -/
def invalFns (s : Sys) (which : Nat → Bool) (lo hi : Nat) (s1 : Bool) : Sys :=
  let s' := invalFn s which lo hi
  let keepT := fun (e : TlbE) => !pdsOf s which e.pd
  { s' with
    hps := s'.hps.map fun h => { h with ctlb := h.ctlb.filter keepT, dtlb := h.dtlb.filter keepT },
    xl := { s'.xl with l2 := l2Keep s'.xl.l2 keepT,
                       wc1 := if s1 then s'.xl.wc1.filter fun e => !pdsOf s which e.owner else s'.xl.wc1 } }

/-- A PD's translations removed from every structure (R101). -/
def invalPdAll (s : Sys) (pd : Nat) : Sys := invalRange s pd 0 (2 ^ 64)

/-- An access of a PD has used an entry that overlaps a range, or a walk of it is in progress that an invalidation of the range covers
    (R113, R122). -/
def usesRange (s : Sys) (a : Acc) (pd lo hi : Nat) : Bool :=
  pdidOf s a.ctx == pd &&
    ((a.used.any fun u => decide (u.1 * 2 ^ u.2 < hi) && decide (lo < (u.1 + 1) * 2 ^ u.2)) ||
      (match a.walk with | some w => walkNear w lo hi | none => false))

/-- The accesses in progress that match and that an invalidation waits for (R122). -/
def invalWaits (s : Sys) (which : Acc → Bool) : List Nat := (s.xl.accs.filter fun a => which a && !a.held).map fun a => a.id

/-- The waits of an invalidation are over. -/
def invalOver (s : Sys) (ids : List Nat) : Bool := !(s.xl.accs.any fun a => ids.contains a.id && !a.held)

/-- Holds of a context are retired (R121). -/
def dropHolds (s : Sys) (which : Hold → Bool) : Sys := { s with xl := { s.xl with holds := s.xl.holds.filter fun h => !which h } }

end Sys2Proof.Machine
end

