-- ==== Sys2Proof/Machine/Events.lean ====
section
/-!
DEFINITION. Completion events (R83 to R88): when one is due, a full ring, writing in completion order, interrupt moderation; and
the end of a descriptor.
-/
namespace Sys2Proof.Machine

/-- An event with every field zero. -/
def Ev.zero (ctx : Nat) : Ev := { type := 0, status := 0, ctx, len := 0, cookie := 0, w16 := 0, imm := 0, w28 := 0 }

/-- The 32 bytes of an event with its PHASE (Table 4.9). -/
def Ev.bytes (e : Ev) (phase : Bool) : Bytes :=
  le 1 e.type ++ le 1 e.status ++ le 2 e.ctx ++ le 4 e.len ++ le 8 e.cookie ++ le 8 e.w16 ++ le 4 e.imm ++
    le 4 (e.w28 + 2 ^ 23 * b2n phase)

/-- Bytes 28 to 31 of an event but PHASE: IMM_V, the source endpoint and the member, where valid. -/
def evW28 (immV : Bool) (sfeid : Option Nat) (member : Option Nat) : Nat :=
  2 ^ 24 * b2n immV + (match sfeid with | some f => f % 2 ^ 20 + 2 ^ 25 | none => 0) +
    (match member with | some m => m % 8 * 2 ^ 20 + 2 ^ 26 | none => 0)

/-- The event ring is full (R87; log entry 23). -/
def eqFull (x : Ctx) : Bool := x.eqUsed == 2 ^ x.eqLog

/-- The first waiting event is being written. -/
def evBusy (s : Sys) (c : Nat) : Bool :=
  (s.xl.accs.any fun a => a.ctx == c && a.cont == .event) || (s.xl.fin.any fun e => e.1.ctx == c && e.1.cont == .event)

/-- The first waiting event is written to the ring, or the full ring stalls the context; an aborting context drops what does
    not fit (R65, R85, R87), and all of it where its function's reset aborts it (R93). A stalled context writes nothing. -/
def evPump (s : Sys) (c : Nat) : Sys :=
  if evBusy s c then s
  else match getCtx s c with
  | none => s
  | some x =>
    match x.waitEv with
    | [] => s
    | (e, _) :: _ =>
      let write := startAcc s c .cwrite ((x.eqBase + 32 * x.eqTail) % 2 ^ 64) 32 (e.bytes x.eqPhase) 0 .event
        (if x.stV then some x.stIdx else none)
      match x.st with
      | .active => if eqFull x then stall s c fun y => { y with ringSt := true } else write
      | .aborting =>
        if eqFull x || (getFn s x.hp x.fn).flr.isSome then modCtx s c fun y => { y with waitEv := [], abortDrop := y.abortDrop + y.waitEv.length } else write
      | _ => s

/-- An event is due (R83, R87); `link` is a segment whose completion waits for it (R148, R170). -/
def eventDue (s : Sys) (c : Nat) (e : Ev) (link : Option (Nat × Nat)) : Sys :=
  match getCtx s c with
  | none => s
  | some x =>
    if x.st = .active ∨ x.st = .stalled ∨ x.st = .aborting then
      evPump (modCtx s c fun y => { y with waitEv := y.waitEv ++ [(e, link)] }) c
    else s

/-- The interrupt of a context's event ring is sent and ARMED cleared (R88). -/
def evInterrupt (s : Sys) (c : Nat) : Sys :=
  match getCtx s c with
  | none => s
  | some x => msix (modCtx s c fun y => { y with armed := false, unsig := [] }) x.hp x.fn x.modVec

/-- The count condition of R88 holds. -/
def modByCount (x : Ctx) : Bool := x.armed && x.modCount != 0 && decide (x.modCount ≤ x.unsig.length)

/-- The time condition of R88 holds. -/
def modByTime (s : Sys) (x : Ctx) : Bool :=
  x.armed && x.modCount != 0 && x.modTime != 0 && (match x.unsig with | f :: _ => decide (f + x.modTime ≤ frame s) | [] => false)

/-- The event being written has gone out: index, PHASE and moderation follow (R85, R88). -/
def evWritten (s : Sys) (c : Nat) : Sys :=
  match getCtx s c with
  | none => s
  | some x =>
    let n := 2 ^ x.eqLog
    let s := modCtx s c fun y =>
      { y with waitEv := y.waitEv.drop 1, eqTail := (y.eqTail + 1) % n, eqPhase := if y.eqTail + 1 = n then !y.eqPhase else y.eqPhase,
               eqUsed := min n (y.eqUsed + 1), unsig := y.unsig ++ [frame s] }
    let s := fnCount s x.hp x.fn 5 1
    match getCtx s c with
    | some y => if modByCount y then evInterrupt s c else s
    | none => s

/-- A descriptor's operation ends (R83): it leaves the live ones, and its event is due if it asked for one or failed. -/
def endDesc (s : Sys) (c seq : Nat) (event : Bool) (e : Ev) : Sys :=
  let s := modCtx s c fun y => { y with live := y.live.filter fun q => q != seq }
  if event ∨ e.status ≠ 0 then eventDue s c e none else s

/-- MODERATION_TIMER_EXPIRY (R88): at a frame tick the oldest unsignalled event is TIME frames old. -/
def runModerationTimerExpiry (_f : FuseBank) (s : Sys) (ctx : Nat) : Sys :=
  match getCtx s ctx with
  | some x => if modByTime s x then evInterrupt s ctx else s
  | none => s

/-! ### Stall reasons that a retried access clears (R99, R121) -/

/-- A retried access has ended: its stall reason clears if nothing else of the context keeps it. So it does where the retry of a DATA hold ends
    with a new fault of the "Other causes" column, which ends the operation and holds nothing (DESIGN CHOICE, log entry 127: R121 says only
    that a new fault keeps the reason, with a new FAULT_ID to resume). -/
def clearReason (s : Sys) (a : Acc) : Sys :=
  match a.retry with
  | none => s
  | some own =>
    let c := a.ctx
    let more := fun (cmd : Bool) => s.xl.accs.any fun b => b.ctx == c && b.kind.cmd == cmd && (b.held || b.retry.isSome)
    let s := modCtx s c fun y =>
      { y with cmdSt := y.cmdSt && (!a.kind.cmd || more true), dataSt := y.dataSt && (a.kind.cmd || more false) }
    unstall s c (!own)

end Sys2Proof.Machine
end

