-- ==== Sys2Proof/Machine/Sync.lean ====
section
/-!
DEFINITION. Time synchronisation: the election, the sync states, the one set of Fabric Time and the rate law (R24 to R28, R331).
Offsets are in 1/16 cycle; the rate is in units of 2^-16 cycle per cycle, in which R26's law is 65 times the offset.
-/
namespace Sys2Proof.Machine

/-- A 64-bit difference of stamps taken as signed. -/
def sdiff (a b : Nat) : Int :=
  let d : Nat := (a + 2 ^ 64 - b % 2 ^ 64) % 2 ^ 64
  if d < 2 ^ 63 then d else (d : Int) - 2 ^ 64

/-- The offset of R24 from four stamps, less the asymmetry; the halving rounds down (log entry 16). -/
def offsetOf (t1 t2 t3 t4 : Nat) (asym : Int) : Int := (sdiff t2 t1 - sdiff t4 t3) / 2 - asym

/-- The round-trip time of R276 in cycles. -/
def rttOf (t1 t2 t3 t4 : Nat) : Nat := ((sdiff t4 t1 - sdiff t3 t2) / 16).toNat

/-- The rate law of R26, clamped to 1/4096 either way. -/
def rateNext (rate off : Int) : Int := max (-16) (min 16 (rate + 65 * off))

/-- What a port in UP offers: priority, root, hops, sync state. -/
def offerOf (s : Sys) (p : Nat) : Option (Nat × Nat × Nat × Nat) :=
  if (getNp s p).st = .up then (getNp s p).tm.offer else none

/-- Offer `a` on a lower port number is no worse than `b` (R25). -/
def offerLe (a b : Nat × Nat × Nat × Nat) : Bool :=
  decide (a.1 < b.1) || (a.1 == b.1 && (decide (a.2.1 < b.2.1) || (a.2.1 == b.2.1 && decide (a.2.2.1 ≤ b.2.2.1))))

/-- The port with the best offer: best key, fewest hops, lowest port (R25). -/
def bestOffer (s : Sys) : Option (Nat × (Nat × Nat × Nat × Nat)) :=
  (List.range 64).foldl (fun a p =>
    match offerOf s p, a with
    | none, a => a
    | some o, none => some (p, o)
    | some o, some (p0, o0) => if offerLe o0 o then some (p0, o0) else some (p, o)) none

/-- The key `(prio, root)` beats the device's own (R25). -/
def beatsOwn (s : Sys) (prio root : Nat) : Bool :=
  decide (prio < s.time.prio) || (prio == s.time.prio && decide (root < myCoord s))

/-- The device is its own root and advertises its own key at distance 0; FREE_RUN begins at rate 0 (R25, Table 2.1). In HOLDOVER too no
    upstream is left, so TIME_STATUS shows ROOT, no UPPORT and the own key (log entry 118). -/
def ownRoot (s : Sys) (sync : SyncSt) : Sys :=
  { s with time := { s.time with
      sync := sync, upPort := none, rootPrio := s.time.prio, rootAddr := myCoord s, dist := 0, conv := 0,
      rate := if sync = .freeRun ∧ s.time.sync ≠ .freeRun then 0 else s.time.rate } }

/-- The device follows port `p` (R25): a new upstream starts in ACQUIRE (Table 2.1). -/
def follow (s : Sys) (p : Nat) (o : Nat × Nat × Nat × Nat) : Sys :=
  let new := s.time.upPort != some p
  { s with time := { s.time with
      upPort := some p, rootPrio := o.1, rootAddr := o.2.1, dist := min 255 (o.2.2.1 + 1),
      sync := if new then .acquire else s.time.sync, conv := if new then 0 else s.time.conv } }

/-- The election (R25). A device in HOLDOVER leaves it for ACQUIRE as soon as any port offers a key, and stays there while none does
    (Table 2.1, log entry 17). -/
def elect (s : Sys) : Sys :=
  match bestOffer s with
  | some (p, o) => if s.time.sync = .holdover ∨ beatsOwn s o.1 o.2.1 = true then follow s p o else ownRoot s .freeRun
  | none => ownRoot s (if s.time.sync = .holdover then .holdover else .freeRun)

/-- TIME_HOLDOVER (R28): the upstream port is gone. Another port that offers the same root key is taken; without one the device
    holds its last rate. -/
def upstreamLost (s : Sys) (p : Nat) : Sys :=
  if s.time.upPort = some p then
    match bestOffer s with
    | some (q, o) =>
      if o.1 = s.time.rootPrio ∧ o.2.1 = s.time.rootAddr then follow s q o
      else ownRoot s .holdover
    | none => ownRoot s .holdover
  else s

/-- The frames and epochs that a port's timers count from, moved with a set of Fabric Time. -/
def NPrt.shift (n : NPrt) (g c e : Nat → Nat) : NPrt :=
  { n with lane0 := { n.lane0 with lockEpoch := n.lane0.lockEpoch.map e }, lane1 := { n.lane1 with lockEpoch := n.lane1.lockEpoch.map e },
           ll := { n.ll with named := n.ll.named.map fun x => (x.1, c x.2), replay := n.ll.replay.map fun r => { r with ended := c r.ended } },
           holdFrom := g n.holdFrom, initAt := g n.initAt, upAt := g n.upAt, ctlAt := g n.ctlAt, losAt := n.losAt.map g,
           lockAt := n.lockAt.map g, helloAt := g n.helloAt, helloSent := n.helloSent.map g,
           lreq := n.lreq.map fun q => { q with since := g q.since }, tm := { n.tm with sentAt := n.tm.sentAt.map g } }

/-- The one set of Fabric Time (R26), by an offset in 1/16 cycle. What counts frames since a moment keeps its count; an epoch number that
    changes calls for its tick (R23). -/
def setTime (s : Sys) (off : Int) : Sys :=
  let raw := ((s.time.ft * 65536 + s.time.frac : Nat) : Int) + off * 4096
  let raw := raw.toNat % 2 ^ 80
  let f0 := frame s
  let t0 := s.time.ft
  let e0 := epoch s
  let s := { s with time := { s.time with ft := raw / 65536, frac := raw % 65536, setDone := true, conv := 0 } }
  let s := { s with time := { s.time with epochDue := s.time.epochDue || epoch s != e0 } }
  let g := fun x => x + frame s - f0
  { s with nps := s.nps.map fun n => n.shift g (fun x => x + s.time.ft - t0) fun x => x + epoch s - e0,
           rt := { s.rt with ports := s.rt.ports.map fun r => { r with ripFrame := g r.ripFrame } },
           pwr := { s.pwr with cages := s.pwr.cages.map fun c => { c with stepAt := g c.stepAt } },
           start := { s.start with discEpoch := s.start.discEpoch + epoch s - e0, lastUp := g s.start.lastUp } }

/-- One exchange with the upstream port (R26 to R28, Table 2.1, R331). `valid`: R331 admits it for the single set. -/
def exchange (s : Sys) (off : Int) (valid : Bool) : Sys :=
  let within := decide (-32 ≤ off) && decide (off ≤ 32)
  let s := { s with time := { s.time with offset := off } }
  let early := s.dev.st == .boot || s.dev.st == .discovery
  if s.time.sync = .acquire ∧ early = true ∧ s.time.setDone = false then (if valid then setTime s off else s)
  else
    let conv := if within then min 64 (s.time.conv + 1) else 0
    let was := s.time.sync
    let s := { s with time := { s.time with
      rate := rateNext s.time.rate off, conv := conv,
      sync := if was = .acquire ∧ conv = 64 then .track else was } }
    if was = .track ∧ (off < -1024 ∨ 1024 < off) then fault s 114 0x01 2 (off % 2 ^ 64).toNat 0 0 else s

end Sys2Proof.Machine
end

