-- ==== Sys2Proof/Machine/Link.lean ====
section
/-!
DEFINITION. The link layer of the network ports (chapter 11): link states, INIT, link-control packets, receiving in LSEQ order,
ACK and NACK, replay, credits, lane changes, link down, and what a port sends next.
-/
namespace Sys2Proof.Machine

/-! ### Domains a port needs (R338, R340) -/

/-- A port is not DISABLED, or waits for its domains to leave DISABLED. -/
def portLive (s : Sys) (p : Nat) : Bool := (getNp s p).st != .disabled || (getNp s p).waitPwr

/-- Table 14.1: a switched domain is to be ON (or in RETAIN, which is not OFF). -/
def swdWant (s : Sys) (k : Nat) : Bool :=
  if k < 32 then portLive s (2 * k) || portLive s (2 * k + 1)
  else if k < 96 then portLive s (k - 32)
  else if k < 104 then !s.pwr.hpOff.contains ((k - 96) % 4)
  else if k < 120 then (List.range 4).any fun i => portLive s (4 * (k - 104) + i)
  else true

/-- The state of a switched domain (Table 14.2). -/
def swdState (s : Sys) (k : Nat) : Nat := s.pwr.swd.getD k 0

/-- A domain joins those that wait to power up, in SWD order. -/
def swdRequest (s : Sys) (k : Nat) : Sys :=
  if swdState s k = 0 ∧ s.pwr.waitUp.contains k = false then
    { s with pwr := { s.pwr with
        waitUp := (s.pwr.waitUp.filter fun x => decide (x < k)) ++ [k] ++ s.pwr.waitUp.filter fun x => decide (k < x) } }
  else s

/-- The quad and port domains of a port are ON (R340). -/
def portPowered (s : Sys) (p : Nat) : Bool := swdState s (p / 2) == 2 && swdState s (32 + p) == 2

/-- A port in DOWN whose holdoff starts now with no failed attempt; a LINK_CONTROL UP that waits for it ends (R299). -/
def portToDown (s : Sys) (p : Nat) : Sys :=
  let s := modNp s p fun n => { n with st := .down, waitPwr := false, holdFrom := frame s, attempts := 0 }
  endWait s (fun w => w == .link p) .ok []

/-- A cage. -/
def getCage (s : Sys) (c : Nat) : Cage := s.pwr.cages.getD c Cage.reset

/-- A cage changed. -/
def modCage (s : Sys) (c : Nat) (g : Cage → Cage) : Sys := { s with pwr := { s.pwr with cages := s.pwr.cages.modify c g } }

/-- The ports that the wiring map places in a cage. -/
def cagePorts (s : Sys) (c : Nat) : List Nat :=
  match s.start.fru with
  | some r => (r.entries.filter fun e => e.cageV && e.cage == c).map (·.port)
  | none => []

/-- A module leaves low power by steps 4 and 5 of R358 (R359); one that asks for too much power stays (R358 step 3). -/
def moduleHigh (s : Sys) (c : Nat) : Sys :=
  let g := getCage s c
  if g.st = .powered ∧ g.lowPwr = true ∧ g.step = 0 then
    modCage s c fun g => { g with lowPwr := false, lpmode := false, ready := g.passive, mstate := if g.passive then 1 else 2,
                                  step := if g.passive then 0 else 5, stepAt := frame s }
  else s

/-- The module of a port's cage leaves low power as the port leaves DISABLED, and the epoch that would bring it there starts anew (R359). -/
def wakeModule (s : Sys) (p : Nat) : Sys :=
  match wireOf s p with
  | some e => if e.cageV then moduleHigh (modCage s e.cage fun g => { g with disEpochs := 0 }) e.cage else s
  | none => s

/-- A port leaves DISABLED: it asks for its domains and enters DOWN when its quad and port domains are ON (R272, R340). -/
def portEnable (s : Sys) (p : Nat) : Sys :=
  let s := modNp (wakeModule s p) p fun n => { n with admin := false, waitPwr := true }
  let s := swdRequest (swdRequest (swdRequest s (p / 2)) (32 + p)) (104 + p / 4)
  if portPowered s p then portToDown s p else s

/-! ### Link down (R296 to R298) -/

/-- The PLL of a quad is locked. -/
def quadLocked (s : Sys) (q : Nat) : Bool := s.pwr.quadLock.getD q false

/-- A link-control packet goes out on a port's lanes (R274), which are in electrical idle while its quad's PLL is out of lock (R302). -/
def sendOut (s : Sys) (p : Nat) (c : Ctl) : Sys :=
  let seq := (getNp s p).ll.txseq
  if quadLocked s (p / 2) then emit (flitsOut s p 15 c.len) (.ctl p seq c (c.bytes seq)) else s

/-- LINK_DOWN is sent three times (R297). -/
def sendLinkDown (s : Sys) (p cause : Nat) : Sys :=
  sendOut (sendOut (sendOut s p (.linkDown cause)) p (.linkDown cause)) p (.linkDown cause)

/-- A port whose lanes are off or idle: its link state is void, no lane is active, nothing is aligned and no lane change is in progress
    (Table 11.1, R298). -/
def NPrt.idle (n : NPrt) : NPrt :=
  { n with ll := LlSt.reset, lcq := [], losAt := none, lockAt := none, alignLost := false, txLanes := 0, rxLanes := 0, aligned := false,
           rxFec := 0, lreq := none, lsrv := none, lswitch := none, addPhase := 0, phase := 0 }

/-- PORT_DOWN (R297, R298): a port in UP, or in INIT at its timeout, goes down for a cause. -/
def portDown (s : Sys) (p cause : Nat) : Sys :=
  let n := getNp s p
  let s := if n.st = .up ∧ cause ≠ 1 ∧ cause ≠ 2 ∧ cause ≠ 8 then sendLinkDown s p cause else s
  let s := count s p 0x0A (n.ll.replay.length + n.ll.held.length + ((getRp s p).txq.filter fun t => t.pkt.kind == 3).length)
  let s := modNp s p fun n =>
    { n.idle with st := .down, holdFrom := frame s, attempts := if cause = 9 then n.attempts + 1 else n.attempts, cause := cause,
                  downs := (n.downs + 1) % 2 ^ 32, tm := { n.tm with rtt := none, echoV := false, offer := none, sentAt := none },
                  helloSent := none }
  let s := routerPortDown s p
  let s := endWait s (fun w => w == .lanes p) .timeout []
  let s := if cause = 7 then s else fault s p cause 1 0 1 p
  upstreamLost s p

/-- A port is taken to DISABLED (LINK_CONTROL DOWN, R272): from UP by PORT_DOWN with cause ADMIN. -/
def portDisable (s : Sys) (p : Nat) : Sys :=
  let s := if (getNp s p).st = .up then portDown s p 7 else s
  let s := modNp s p fun n => { n.idle with st := .disabled, waitPwr := false, admin := true }
  { s with pwr := { s.pwr with waitUp := s.pwr.waitUp.filter fun k => swdWant s k } }

/-! ### Link-control packets (R274, R281, R291) -/

/-- T_REPLAY in cycles (R284); RTT is 3,200 before the first exchange (R276). -/
def tReplay (n : NPrt) : Nat := n.tm.rtt.getD 3200 + 256

/-- d of R279. -/
def seqD (lseq nrx : Nat) : Nat := (lseq + 65536 - nrx % 65536) % 65536

/-- A link-control packet joins those to be sent. -/
def ctlSend (s : Sys) (p : Nat) (c : Ctl) : Sys := modNp s p fun n => { n with lcq := n.lcq ++ [c] }

/-- The LSEQs from NRX up to `hi` that are not held and that no NACK has named within T_REPLAY (R281). -/
def nameable (n : NPrt) (ft : Nat) : List Nat :=
  let d := seqD n.ll.hi n.ll.nrx
  ((List.range (if 4096 < d then 0 else d)).map fun i => (n.ll.nrx + i) % 65536).filter fun q =>
    !(n.ll.held.any fun h => h.lseq == q) && !(n.ll.named.any fun e => e.1 == q && decide (ft < e.2 + tReplay n))

/-- The 256-bit mask of those of a list that lie within 256 of `base`. -/
def maskOf (base : Nat) (l : List Nat) : Nat := (l.map fun q => if seqD q base < 256 then 2 ^ seqD q base else 0).sum

/-- LL_NACK_SEND (R281): the nameable missing LSEQs within 256 of BASE are named. BASE is NRX, or the first of them where they
    all lie beyond the mask (log entry 19). -/
def nackMissing (s : Sys) (p : Nat) : Sys :=
  let n := getNp s p
  match nameable n s.time.ft with
  | [] => s
  | q :: l =>
    let base := if seqD q n.ll.nrx < 256 then n.ll.nrx else q
    let names := (q :: l).filter fun x => decide (seqD x base < 256)
    let s := modNp s p fun n =>
      { n with ll := { n.ll with
          named := (n.ll.named.filter fun e => !names.contains e.1) ++ names.map fun x => (x, s.time.ft) } }
    ctlSend s p (.nack { next := n.ll.nrx, base, mask := maskOf base names })

/-- Every LSEQ below `hi` is known to have been sent (R281). -/
def seenTo (s : Sys) (p hi : Nat) : Sys :=
  modNp s p fun n =>
    if seqD hi n.ll.nrx ≤ 4096 ∧ (4096 < seqD n.ll.hi n.ll.nrx ∨ seqD n.ll.hi n.ll.nrx < seqD hi n.ll.nrx) then
      { n with ll := { n.ll with hi := hi } }
    else n

/-- What every link-control packet does on arrival (R273, R274, R281, R296): a bad one is discarded and counted, one other than
    INIT is discarded in INIT. The answer says whether the packet is to be acted on. -/
def ctlIn (s : Sys) (p : Nat) (h : CtlHdr) (c : Ctl) : Sys × Bool :=
  let n := getNp s p
  let isInit := match c with | .init _ => true | _ => false
  if n.st ≠ .up ∧ n.st ≠ .init then (s, false)
  else
  let s := flitsIn s p 15 h.marks.length
  if ctlOk h c = false ∨ (n.st = .init ∧ isInit = false) then (count s p 0x08 1, false)
  else
    let s := modNp s p fun n => { n with ctlAt := frame s, ll := { n.ll with initMore := n.ll.initMore && isInit } }
    if n.st = .up ∧ 1 ≤ seqD h.txseq n.ll.nrx ∧ seqD h.txseq n.ll.nrx ≤ 4096 then
      (nackMissing (seenTo s p h.txseq) p, true)
    else (s, true)

/-! ### Entering INIT and UP (R273, R275) -/

/-- The INIT that this device sends (Table 11.7). -/
def ownInit (f : FuseBank) (got : Bool) : Ctl := .init { InitMsg.own with got := got, uid := f.uid }

/-- A port enters INIT with its link state reset. -/
def enterInit (s : Sys) (p : Nat) : Sys :=
  modNp s p fun n => { n with st := .init, initAt := frame s, phase := 0, trainResult := 1, aligned := true, ll := LlSt.reset,
                              lcq := [], txLanes := n.sl.train, rxLanes := n.sl.train }

/-- An INIT that R275 discards. -/
def initBad (m : InitMsg) : Bool :=
  m.version != 1 || m.window == 0 || decide (4096 < m.window) || m.rord == 0 || decide (m.rsvD < 66) || decide (m.vmaxD < 66) ||
    m.rsvH == 0

/-- A port enters UP: one INIT with GOT 1 first, policers full, a HELLO due, no failed attempts (R272, R273, R265, R329). -/
def enterUp (f : FuseBank) (s : Sys) (p : Nat) : Sys :=
  let s := modNp s p fun n =>
    { n with st := .up, upAt := frame s, attempts := 0, ctlAt := frame s, lcq := [ownInit f true], helloDue := true,
             ll := { n.ll with initMore := true } }
  let s := modRp s p fun r => { r with mg := s.rt.cfg.mgBurst * 256, dg := s.rt.cfg.dgBurst * 256, ripple := none }
  { s with start := { s.start with lastUp := frame s } }

/-! ### Arrival at the device (R128, R244, R262, R263, R265) -/

/-- A sequenced packet that has been delivered into the buffer of a network port. -/
def arrive (s : Sys) (p : Nat) (k : Packet) : Sys :=
  let cost := k.len * 64
  let r := getRp s p
  if 4 < k.kind ∨ vcAllowed s.rt.millpond k.cls k.vc = false then dropPkt s p 0x12 k
  else if k.kind = 3 then
    if r.mg < cost ∨ s.rt.cfg.mgRate = 0 then dropPkt s p 0x18 k
    else
      let s := modRp s p fun r => { r with mg := r.mg - cost }
      if k.op = 0 ∨ 0x13 < k.op ∨ 64 ≤ s.rt.mgq.length then dropPkt s p 0x18 k
      else freeBuf { s with rt := { s.rt with mgq := s.rt.mgq ++ [(p, k)] } } p k.vc k.len
  else if tooOld s k then dropPkt s p 0x10 k
  else if k.kind = 4 then
    if r.dg < cost ∨ s.rt.cfg.dgRate = 0 then dropPkt s p 0x19 k
    else enqueue (modRp s p fun r => { r with dg := r.dg - cost }) p k
  else enqueue s p k

/-- deliver of R281: the packet counts as received on its VC; a stomped one is freed at once and reaches no one (R286). -/
def deliver (s : Sys) (p : Nat) (k : Packet) : Sys :=
  let s := modNp s p fun n =>
    { n with ll := { n.ll with nrx := (n.ll.nrx + 1) % 65536, rcv := addCum n.ll.rcv k.vc 1 k.len,
                               named := n.ll.named.filter fun e => e.1 != k.lseq } }
  if k.stomped then freeBuf (count s p 0x02 1) p k.vc k.len else arrive s p k

/-- Held packets that NRX has reached leave the reorder store in LSEQ order (R282). -/
def releaseHeld (s : Sys) (p : Nat) : Nat → Sys
  | 0 => s
  | fuel + 1 =>
    match (getNp s p).ll.held.find? fun h => h.lseq == (getNp s p).ll.nrx with
    | none => s
    | some k =>
      let s := modNp s p fun n => { n with ll := { n.ll with held := n.ll.held.filter fun h => h.lseq != k.lseq } }
      releaseHeld (deliver s p k) p fuel

/-- An ACK is scheduled. -/
def ackDue (s : Sys) (p : Nat) : Sys := modNp s p fun n => { n with ll := { n.ll with ackDue := true } }

/-- A packet that passed R280, by the pseudocode of R281. -/
def llReceive (s : Sys) (p : Nat) (k : Packet) : Sys :=
  let n := getNp s p
  let d := seqD k.lseq n.ll.nrx
  if 61440 ≤ d then ackDue (count s p 0x04 1) p
  else if 4096 ≤ d then portDown s p 5
  else if d = 0 then ackDue (releaseHeld (deliver s p k) p n.ll.held.length) p
  else if n.ll.held.any fun h => h.lseq == k.lseq then count s p 0x04 1
  else
    let s := modNp s p fun n => { n with ll := { n.ll with held := n.ll.held ++ [k] } }
    nackMissing (seenTo s p ((k.lseq + 1) % 65536)) p

/-! ### Acknowledgement and replay (R283 to R285) -/

/-- The VCs with returns not yet reported, in rotation after the last one reported. -/
def creditDue (n : NPrt) : List Nat :=
  ((List.range 16).map fun i => (n.ll.rot + 1 + i) % 16).filter fun v => n.ll.cum.getD v (0, 0) != n.ll.rep.getD v (0, 0)

/-- LL_ACK_SEND (R283): an ACK with up to 12 credit records, or a NACK in its place when missing LSEQs are to be named. -/
def runLlAckSend (_f : FuseBank) (s : Sys) (port : Nat) : Sys :=
  let n := getNp s port
  if n.st ≠ .up ∨ n.ll.ackDue = false then s
  else if nameable n s.time.ft ≠ [] then nackMissing s port
  else
    let due := creditDue n
    let now := due.take 12
    let recs := now.map fun v => (v, n.ll.cum.getD v (0, 0))
    let s := modNp s port fun n =>
      { n with ll := { n.ll with rep := n.ll.rep.mapIdx fun v x => if now.contains v then n.ll.cum.getD v (0, 0) else x,
                                 rot := now.getLastD n.ll.rot, ackDue := decide (12 < due.length) } }
    ctlSend s port (.ack { next := n.ll.nrx, recs })

/-- The LSEQ of the oldest unacknowledged packet, or the next to be given. -/
def oldestSeq (n : NPrt) : Nat := ((n.ll.replay.map fun r => r.pkt.lseq).head?).getD n.ll.txseq

/-- A NEXT is applied (R285): entries below it are freed; one above TXSEQ takes the port down, one not above the present value
    is ignored. -/
def applyNext (s : Sys) (p next : Nat) : Sys :=
  let n := getNp s p
  let adv := seqD next (oldestSeq n)
  if adv = 0 then s
  else if adv ≤ n.ll.replay.length then
    modNp s p fun n =>
      let gone := n.ll.replay.take adv
      { n with ll := { n.ll with
          replay := n.ll.replay.drop adv,
          retx := n.ll.retx.filter fun q => !(gone.any fun r => r.pkt.lseq == q) } }
  else if adv < 32768 then portDown s p 5
  else s

/-- A return record is applied (R288): one beyond what is outstanding, as one behind the last applied is modulo the counters, takes the
    port down (log entry 20). -/
def applyRet (s : Sys) (p vc h d : Nat) : Sys :=
  let n := getNp s p
  let r := n.ll.ret.getD vc (0, 0)
  let st := n.ll.sent.getD vc (0, 0)
  let dd := (d + 65536 - r.2) % 65536
  let dh := (h + 4096 - r.1) % 4096
  if n.st ≠ .up then s
  else if (st.2 + 65536 - r.2) % 65536 < dd ∨ (st.1 + 4096 - r.1) % 4096 < dh then portDown s p 6
  else modNp s p fun n => { n with ll := { n.ll with ret := n.ll.ret.set vc (h, d) } }

/-- LL_ACK_RECEIVE (R283 to R285, R288). -/
def runLlAckReceive (_f : FuseBank) (s : Sys) (port : Nat) (hdr : CtlHdr) (m : AckMsg) : Sys :=
  let (s, ok) := ctlIn s port hdr (.ack m)
  if ok then
    let s := applyNext s port m.next
    m.recs.foldl (fun s r => applyRet s port r.1 r.2.1 r.2.2) s
  else s

/-- One retransmission is scheduled (R284); a ninth takes the port down. -/
def scheduleRetx (s : Sys) (p q : Nat) : Sys :=
  let n := getNp s p
  match n.ll.replay.find? fun r => r.pkt.lseq == q with
  | none => s
  | some r =>
    if n.st ≠ .up ∨ n.ll.retx.contains q then s
    else if 8 ≤ r.count then portDown s p 4
    else modNp s p fun n => { n with ll := { n.ll with
           retx := (n.ll.retx.filter fun x => decide (seqD x (oldestSeq n) < seqD q (oldestSeq n))) ++ [q] ++
                   n.ll.retx.filter fun x => decide (seqD q (oldestSeq n) < seqD x (oldestSeq n)) } }

/-- LL_NACK_RECEIVE (R284, R285): NEXT is applied, and the named packets still held are retransmitted. -/
def runLlNackReceive (_f : FuseBank) (s : Sys) (port : Nat) (hdr : CtlHdr) (m : NackMsg) : Sys :=
  let (s, ok) := ctlIn s port hdr (.nack m)
  if ok then
    let s := applyNext s port m.next
    ((List.range 256).filter fun i => m.mask.testBit i).foldl (fun s i => scheduleRetx s port ((m.base + i) % 65536)) s
  else s

/-- T_REPLAY has passed, by the end of the running frame, since the latest transmission of the oldest unacknowledged packet ended (R284). -/
def replayDue (s : Sys) (n : NPrt) : Bool :=
  match n.ll.replay with
  | r :: _ => decide (r.ended + tReplay n < (frame s + 1) * 1024)
  | [] => false

/-- REPLAY_TIMER_EXPIRY (R284): the oldest unacknowledged packet is retransmitted alone. -/
def runReplayTimerExpiry (_f : FuseBank) (s : Sys) (port : Nat) : Sys :=
  let n := getNp s port
  if n.st = .up ∧ replayDue s n = true then scheduleRetx s port (oldestSeq n) else s

/-- The charges of the unacknowledged packets on a VC with LSEQ at or above a NEXT, as (headers, flits) (R290). -/
def chargesFrom (n : NPrt) (next v : Nat) : Nat × Nat :=
  let l := n.ll.replay.filter fun r => r.pkt.vc == v && decide (seqD r.pkt.lseq next < seqD n.ll.txseq next)
  (l.length, (l.map fun r => r.pkt.len).sum)

/-- The sender's half of the audit of R290: RCV is SENT less the charges at or above NEXT (log entry 105). -/
def auditOk (n : NPrt) (m : CredMsg) : Bool :=
  (List.range 16).all fun v =>
    let st := n.ll.sent.getD v (0, 0)
    let c := chargesFrom n m.next v
    let r := m.rcv.getD v (0, 0)
    (st.1 + 4096 - c.1 % 4096) % 4096 == r.1 && (st.2 + 65536 - c.2 % 65536) % 65536 == r.2

/-- CRED_SYNC_RECEIVE (R290). -/
def runCredSyncReceive (_f : FuseBank) (s : Sys) (port : Nat) (hdr : CtlHdr) (m : CredMsg) : Sys :=
  let (s, ok) := ctlIn s port hdr (.credSync m)
  if ok then
    let s := applyNext s port m.next
    let s := (List.range 16).foldl (fun s v => applyRet s port v (m.ret.getD v (0, 0)).1 (m.ret.getD v (0, 0)).2) s
    if (getNp s port).st = .up ∧ auditOk (getNp s port) m = false then portDown s port 6 else s
  else s

/-! ### INIT, silence, LINK_DOWN -/

/-- INIT_RECEIVE (R273, R275). -/
def runInitReceive (f : FuseBank) (s : Sys) (port : Nat) (hdr : CtlHdr) (m : InitMsg) : Sys :=
  let (s, ok) := ctlIn s port hdr (.init m)
  if ok then
    if initBad m then count s port 0x08 1
    else if (getNp s port).st = .init then
      let s := modNp s port fun n => { n with ll := { n.ll with peer := m, gotInit := true } }
      if m.got then enterUp f s port else s
    else if m.got then s else portDown s port 0x0B
  else s

/-- INIT_TIMEOUT (R272): 16 frames in INIT. -/
def runInitTimeout (_f : FuseBank) (s : Sys) (port : Nat) : Sys :=
  let n := getNp s port
  if n.st = .init ∧ n.initAt + 16 ≤ frame s then portDown s port 9 else s

/-- SILENT_TIMEOUT (R296): 4 frames without a valid link-control packet. -/
def runSilentTimeout (_f : FuseBank) (s : Sys) (port : Nat) : Sys :=
  let n := getNp s port
  if n.st = .up ∧ n.ctlAt + 4 ≤ frame s then portDown s port 3 else s

/-- LINK_DOWN_RECEIVE (R296, R297): the port is down with cause PEER. -/
def runLinkDownReceive (_f : FuseBank) (s : Sys) (port : Nat) (hdr : CtlHdr) (cause : Nat) : Sys :=
  let (s, ok) := ctlIn s port hdr (.linkDown cause)
  if ok then portDown s port 8 else s

/-- RIPPLE_RECEIVE (R249, R250, R267): the latest ripple of the neighbour, and the digests it brings. -/
def runRippleReceive (_f : FuseBank) (s : Sys) (port : Nat) (hdr : CtlHdr) (m : Ripple) : Sys :=
  let (s, ok) := ctlIn s port hdr (.ripple m)
  if ok then
    let s := modRp s port fun r => { r with ripple := some m, ripFrame := frame s, ripNew := true }
    let put := fun (s : Sys) (g d0 : Nat) (lv : List Nat) =>
      { s with rt := { s.rt with
          dig := ((List.range 16).filter fun j => decide (d0 + j < 925)).foldl
            (fun t j => tset t (g * 1024 + d0 + j) (lv.getD j 0, frame s)) s.rt.dig } }
    let s := match m.dstart, wireOf s port with
      | some d0, some e => put s e.farGroup d0 m.digest
      | _, _ => s
    m.relay.foldl (fun s r => put s r.1 r.2.1 r.2.2) s
  else s

/-! ### Lane changes (R292 to R295) -/

/-- Lane k of a port is trained and locked. -/
def laneGood (n : NPrt) (k : Nat) : Bool := let l := if k = 0 then n.lane0 else n.lane1; l.trained && l.lock

/-- The active lanes of a receive mask that meet a condition are all of them, and there is one (R296). -/
def allActive (n : NPrt) (c : Lane → Bool) : Bool :=
  n.rxLanes != 0 && (!n.rxLanes.testBit 0 || c n.lane0) && (!n.rxLanes.testBit 1 || c n.lane1)

/-- The detectors of an UP port are looked at again: LOS or LOCK on every active lane runs from the frame it was found in
    (R296, R312). -/
def reDetect (s : Sys) (p : Nat) : Sys :=
  modNp s p fun n =>
    { n with losAt := if n.st = .up ∧ allActive n (fun l => !l.sd) = true then n.losAt.or (some (frame s)) else none,
             lockAt := if n.st = .up ∧ (n.alignLost = true ∨ allActive n (fun l => !l.lock) = true) then n.lockAt.or (some (frame s)) else none }

/-- The receive mask changes at the neighbour's SWITCH, or at alignment on the mask of a FORCED request (R294). A lane that is dropped has to
    complete training and alignment alone before it is trained again (R292; log entry 81). -/
def rxSwitch (s : Sys) (p mask : Nat) : Sys :=
  let drop := fun (n : NPrt) (k : Nat) (l : Lane) =>
    if mask.testBit k then { l with lockEpoch := none } else if n.rxLanes.testBit k then { l with trained := false, lockEpoch := none } else l
  reDetect (modNp s p fun n =>
    { n with rxLanes := mask, lane0 := drop n 0 n.lane0, lane1 := drop n 1 n.lane1,
             addPhase := if mask = 3 then 0 else if n.rxLanes &&& (3 - mask) ≠ 0 then 1 else n.addPhase }) p

/-- A request for a lane change starts (R294). -/
def laneRequest (s : Sys) (p mask : Nat) (forced : Bool) (owner : Option (Requester × Nat)) : Sys :=
  let n := getNp s p
  let s := modNp s p fun n =>
    { n with ltag := (n.ltag + 1) % 256,
             lreq := some { tag := n.ltag, mask, forced, tries := 0, since := frame s, owner, acked := false } }
  ctlSend s p (.lane { sub := 1, tag := n.ltag, mask, forced })

/-- A lane request ends without a change (R295, R299): FORCED takes the port down with cause LANE. -/
def laneAbandon (s : Sys) (p : Nat) (st : Status) : Sys :=
  match (getNp s p).lreq with
  | none => s
  | some q =>
    let s := modNp s p fun n => { n with lreq := none }
    let s := endWait s (fun w => w == .lanes p) st []
    if q.forced then portDown s p 0x0A else s

/-- The switch of the own transmit side is due, with the TAG of the request (R294 step 2 or 4). -/
def switchTx (s : Sys) (p tag mask : Nat) : Sys := modNp s p fun n => { n with lswitch := some (tag, mask) }

/-- A lane change is complete at the requester when both directions have switched (R299). -/
def laneDone (s : Sys) (p : Nat) : Sys :=
  let n := getNp s p
  match n.lreq with
  | some q =>
    if q.acked && n.lswitch.isNone && n.txLanes == q.mask && n.rxLanes == q.mask then
      let s := count (modNp s p fun n => { n with lreq := none }) p 0x09 1
      endWait s (fun w => w == .lanes p) .ok []
    else s
  | none => s

/-- This side can transmit on lane k: it does so now, or the lane is trained (R293). -/
def canTx (n : NPrt) (k : Nat) : Bool := n.txLanes.testBit k || (if k = 0 then n.lane0 else n.lane1).trained

/-- The REQ of the neighbour beats the own pending one (R293). -/
def reqWins (f : FuseBank) (n : NPrt) (forced : Bool) : Bool :=
  match n.lreq with
  | none => true
  | some q => if forced != q.forced then forced else decide (n.ll.peer.uid < f.uid)

/-- LANE_RECEIVE (R293 to R295). -/
def runLaneReceive (f : FuseBank) (s : Sys) (port : Nat) (hdr : CtlHdr) (m : LaneMsg) : Sys :=
  let (s, ok) := ctlIn s port hdr (.lane m)
  let n := getNp s port
  if ok = false then s
  else if m.sub = 1 then
    if n.lsrv = some m.tag then ctlSend s port (.lane { sub := 2, tag := m.tag, mask := m.mask, forced := m.forced })
    else if reqWins f n m.forced = false then s
    else
      let s := if n.lreq.isSome then
          endWait (modNp s port fun n => { n with lreq := none }) (fun w => w == .lanes port) .stateConflict []
        else s
      let bad := (List.range 2).any fun k => m.mask.testBit k && !laneGood n k
      let some_ := (List.range 2).any fun k => m.mask.testBit k && canTx n k
      if m.mask = 0 ∨ (bad ∧ ¬ (m.forced ∧ some_)) then
        ctlSend s port (.lane { sub := 3, tag := m.tag, mask := m.mask, forced := m.forced })
      else
        let s := modNp s port fun n => { n with lsrv := some m.tag }
        ctlSend (switchTx s port m.tag m.mask) port (.lane { sub := 2, tag := m.tag, mask := m.mask, forced := m.forced })
  else match n.lreq, m.sub with
  | some q, 2 =>
    if q.tag = m.tag ∧ q.acked = false then
      laneDone (switchTx (modNp s port fun n => { n with lreq := some { q with acked := true } }) port q.tag q.mask) port
    else s
  | some q, 3 => if q.tag = m.tag then laneAbandon s port .stateConflict else s
  | some _, 4 => laneDone (rxSwitch s port m.mask) port
  | none, 4 =>
    let s := rxSwitch s port m.mask
    if n.lsrv = some m.tag ∧ (getNp s port).txLanes = m.mask then count s port 0x09 1 else s
  | _, _ => s

/-- LANE_REQ_TIMEOUT (R295): 16 frames after a REQ, a FORCED one whose mask the receiver has not aligned on takes the port down with cause
    LANE; one without an ACK is repeated up to 3 times, then abandoned. -/
def runLaneReqTimeout (_f : FuseBank) (s : Sys) (port : Nat) : Sys :=
  match (getNp s port).lreq with
  | none => s
  | some q =>
    if q.since + 16 ≤ frame s then
      if q.forced = true ∧ (getNp s port).rxLanes ≠ q.mask then laneAbandon s port .timeout
      else if q.acked then s
      else if q.tries < 3 then
        let s := modNp s port fun n => { n with lreq := some { q with tries := q.tries + 1, since := frame s } }
        ctlSend s port (.lane { sub := 1, tag := q.tag, mask := q.mask, forced := q.forced })
      else laneAbandon s port .timeout
    else s

/-- LANE_ADD_REQUEST (R292): a dropped lane that has stayed trained and locked for one whole epoch is asked for again. -/
def runLaneAddRequest (_f : FuseBank) (s : Sys) (port : Nat) : Sys :=
  let n := getNp s port
  let k := if n.rxLanes.testBit 0 then 1 else 0
  let l := if k = 0 then n.lane0 else n.lane1
  match l.lockEpoch with
  | some e =>
    if n.st = .up ∧ n.lreq = none ∧ (n.rxLanes = 1 ∨ n.rxLanes = 2) ∧ laneGood n k ∧ e + 1 < epoch s then
      laneRequest s port 3 false none
    else s
  | none => s

/-! ### What a port sends next (R35, R37, R247, R278, R291) -/

/-- The place of a link-control packet in R291's order. -/
def ctlRank : Ctl → Nat
  | .linkDown _ => 0 | .init _ => 1 | .nack _ => 2 | .ack _ => 3 | .time _ => 4 | .ripple _ => 5 | .credSync _ => 6 | .lane _ => 7

/-- The first link-control packet to send, and the rest. -/
def nextCtl (l : List Ctl) : Option (Ctl × List Ctl) :=
  match (List.range 8).filterMap fun r => l.find? fun c => ctlRank c == r with
  | [] => none
  | c :: _ => some (c, l.erase c)

/-- A link-control packet leaves with the present TXSEQ; a TIME carries the stamp of the moment at which its unit crosses the pins (R276,
    R307), a NACK is counted. -/
def sendCtl (s : Sys) (p : Nat) (c : Ctl) (rest : List Ctl) (cycle block : Nat) : Sys :=
  let s := modNp s p fun n => { n with lcq := rest }
  let c := match c with | .time m => Ctl.time { m with tx := pinStamp s (getNp s p).txLanes cycle block } | c => c
  let s := match c with | .nack _ => count s p 0x05 1 | _ => s
  sendOut s p c

/-- R278 admits one more packet of `len` flits. -/
def windowOk (n : NPrt) (len : Nat) : Bool :=
  decide (n.ll.replay.length + 1 ≤ n.ll.peer.window) &&
    decide ((n.ll.replay.map fun r => r.pkt.len).sum + len ≤ min 1536 n.ll.peer.rord)

/-- The packet of a class that has waited longest at this device; on a tie the lower input port (R247). -/
def oldestOf (q : List TxPkt) (c : PClass) : Option TxPkt :=
  (q.filter fun t => t.pkt.cls == c).foldl (fun a t =>
    match a with
    | none => some t
    | some b => if t.arr < b.arr ∨ (t.arr = b.arr ∧ t.cx < b.cx) then some t else some b) none

/-- The class of a deficit counter. -/
def drrClass : Nat → PClass | 0 => .request | 1 => .response | _ => .collective

/-- A collective packet may start at `cycle` of the frame inside the window (R37), in 1/125 cycle; lanes halve the rate. -/
def fitsWindow (colwin lanes cycle len : Nat) : Bool :=
  decide (cycle * 125 + len * 256 * (if lanes = 3 then 1 else 2) + 3200 ≤ colwin * 32 * 125)

/-- Deficit round robin (R247): the class visited takes its quantum of 66 as it is entered; the answer is the packet to send, with the
    counters and the class to visit next. Packets that are not `ok` wait without losing their class its turn's deficit. -/
def drrPick (q : List TxPkt) (ok : TxPkt → Bool) : Nat → List Nat → Nat → Option (TxPkt × List Nat × Nat)
  | 0, _, _ => none
  | fuel + 1, def_, c =>
    match oldestOf (q.filter ok) (drrClass c) with
    | none =>
      let d := def_.set ((c + 1) % 3) (def_.getD ((c + 1) % 3) 0 + 66)
      drrPick q ok fuel (d.set c (if (oldestOf q (drrClass c)).isSome then def_.getD c 0 else 0)) ((c + 1) % 3)
    | some t =>
      if t.pkt.len ≤ def_.getD c 0 then some (t, def_.set c (def_.getD c 0 - t.pkt.len), c)
      else drrPick q ok fuel (def_.set ((c + 1) % 3) (def_.getD ((c + 1) % 3) 0 + 66)) ((c + 1) % 3)

/-- When a transmission of `len` flits that starts at `cycle` of the frame has ended, in cycles of Fabric Time: 1.28 ns per flit, 2.56 ns on
    one lane (R284). -/
def txEnd (s : Sys) (n : NPrt) (cycle len : Nat) : Nat :=
  frame s * 1024 + cycle + (len * (if n.txLanes = 3 then 2048 else 4096) + 999) / 1000

/-- A new packet leaves: LSEQ, HOPS and GHOPS are written (R254, R277), its charge is made (R287), it is kept for replay
    (R284), and the buffer it waited in is freed (R289). -/
def sendNew (s : Sys) (p : Nat) (t : TxPkt) (cycle : Nat) : Sys :=
  let n := getNp s p
  let k := { t.pkt with
    lseq := n.ll.txseq, vc := t.vc,
    hops := if t.pkt.kind = 3 then t.pkt.hops else min 15 (t.pkt.hops + 1),
    ghops := if t.pkt.kind = 3 then t.pkt.ghops else if isGlobal s p then min 3 (t.pkt.ghops + 1) else t.pkt.ghops }
  let s := modRp s p fun r => { r with txq := r.txq.erase t }
  let s := modNp s p fun n =>
    { n with ll := { n.ll with txseq := (n.ll.txseq + 1) % 65536, sent := addCum n.ll.sent k.vc 1 k.len,
                               replay := n.ll.replay ++ [{ pkt := k, count := 0, ended := txEnd s n cycle k.len }] } }
  let s := flitsOut s p k.vc k.len
  let s := trace (emit s (.pkt p k)) k 4 p 0
  if 100 ≤ t.cx then freeCopy s (t.cx - 100) t.pkt.vc t.pkt.len t.arr else freeBuf s t.cx t.pkt.vc t.pkt.len

/-- A retransmission leaves (R284): the same packet, uncharged. -/
def sendRetx (s : Sys) (p q : Nat) (rest : List Nat) (cycle : Nat) : Sys :=
  match (getNp s p).ll.replay.find? fun r => r.pkt.lseq == q with
  | none => modNp s p fun n => { n with ll := { n.ll with retx := rest } }
  | some r =>
    let s := modNp s p fun n =>
      { n with ll := { n.ll with
          retx := rest, replay := n.ll.replay.map fun x =>
            if x.pkt.lseq == q then { x with count := x.count + 1, ended := txEnd s n cycle x.pkt.len } else x } }
    let s := flitsOut s p r.pkt.vc r.pkt.len
    trace (emit (count s p 0x03 1) (.pkt p r.pkt)) r.pkt 4 p 0

/-- A VC15 packet of this device is admitted by R288: it uses reserved credits only. -/
def mgmtFits (n : NPrt) (len : Nat) : Bool :=
  let o := outOf n [] 15
  creditFits 15 o.2 len n.ll.peer.rsvD n.ll.peer.vmaxD n.ll.peer.shD 0 && creditFits 15 o.1 1 n.ll.peer.rsvH n.ll.peer.vmaxH n.ll.peer.shH 0

/-- The new packet to send at `cycle` of the frame, among those that R278 and R288 allow: VC15 first, then, where the port is routable
    (R267), the collective window (R35, R37), then the round robin. -/
def pickNew (s : Sys) (p cycle : Nat) : Option (TxPkt × List Nat × Nat) :=
  let n := getNp s p
  let r := getRp s p
  let ok := fun (t : TxPkt) => windowOk n t.pkt.len
  match r.txq.find? fun t => t.vc == 15 && ok t && mgmtFits n t.pkt.len with
  | some t => some (t, r.drr, r.drrCls)
  | none =>
    if routable s p = false then none
    else
      let win := decide (cycle < s.time.colwin * 32)
      let fits := r.txq.filter fun t => ok t && fitsWindow s.time.colwin n.txLanes cycle t.pkt.len
      match if win then oldestOf fits .collective else none with
      | some t => some (t, r.drr, r.drrCls)
      | none => drrPick r.txq (fun t => ok t && !(win && t.pkt.cls == .collective)) 7 r.drr r.drrCls

/-- The retransmission to send: the first in LSEQ order, of VC15 only on a port that is not routable (R267, R284). -/
def pickRetx (s : Sys) (p : Nat) : Option Nat :=
  let n := getNp s p
  n.ll.retx.find? fun q => routable s p || n.ll.replay.all fun r => r.pkt.lseq != q || r.pkt.vc == 15

/-- PACKET_TRANSMIT (R291): at a packet boundary at `cycle` of the frame, the first eligible item starts, its first flit in block `block` of
    its unit. Nothing leaves while the quad's PLL is out of lock (R302); a port whose snapshot failed the audit goes down (R290). -/
def runPacketTransmit (_f : FuseBank) (s : Sys) (port cycle block : Nat) : Sys :=
  let n := getNp s port
  if n.st ≠ .up ∧ n.st ≠ .init then s
  else if n.ll.auditBad then portDown s port 6
  else if quadLocked s (port / 2) = false then s
  else match if n.st = .up then n.lswitch else none with
  | some (tag, mask) =>
    let s := sendOut s port (.lane { sub := 4, tag, mask, forced := false })
    laneDone (modNp s port fun n => { n with lswitch := none, txLanes := mask }) port
  | none =>
  match nextCtl n.lcq with
  | some (c, rest) => sendCtl s port c rest cycle block
  | none =>
  if n.st ≠ .up ∨ n.losAt.isSome ∨ n.lockAt.isSome then s
  else match pickRetx s port with
  | some q => sendRetx s port q (n.ll.retx.erase q) cycle
  | none =>
    match pickNew s port cycle with
    | none => s
    | some (t, d, c) => sendNew (modRp s port fun r => { r with drr := d, drrCls := c }) port t cycle

/-! ### Reception, with cut-through (R280, R286) -/

/-- STOMP (R286): `cut` is the cycle at which the receiver began to forward a packet with d = 0 whose tail then failed, or that was stomped.
    Where its route was found, its output granted and its copy started at once (R246), that copy goes out ended by the inverse of the
    payload's CRC (log entry 143); otherwise none had started. The input's flits are freed as the reception says, not here. -/
def stompCopy (f : FuseBank) (s : Sys) (port : Nat) (p : Packet) (cut : Option Nat) : Sys :=
  match cut with
  | none => s
  | some cycle =>
    let n := getNp s port
    if p.lseq ≠ n.ll.nrx ∨ p.kind = 3 ∨ 4 < p.kind ∨ p.rmode = 2 ∨ p.payload.isEmpty ∨ (headOf s port p.vc).isSome then s
    else
      let s1 := arrive s port { p with pcrc := crc32 p.payload ^^^ 0xFFFFFFFF }
      match headOf s1 port p.vc with
      | none => s
      | some q =>
        let s2 := applyRoute s1 q (routeOf s1 port q.pkt)
        match headOf s2 port p.vc with
        | none => s
        | some q =>
          let s3 := allocate s2 q
          match (List.range 64).find? fun o => (getRp s3 o).txq.any fun t => t.arr == q.arr with
          | none => s
          | some o =>
            let s4 := runPacketTransmit f s3 o cycle 0
            if (getRp s4 o).txq.any fun t => t.arr == q.arr then s
            else modNp s4 port fun x => { x with ll := { x.ll with cum := n.ll.cum, ackDue := n.ll.ackDue } }

/-- LL_PACKET_RECEIVE (R280, R281, R286, R305): a sequenced packet on a port. `hcrc` is the header CRC it carries and `marks` the MARK of each
    block from its HEAD up to the next HEAD or IDLE that is not errored, 3 for an errored block: an errored first block fails HCRC, any other
    the payload CRC, and such a packet is never taken as stomped. `cut`: when its cut-through copy had begun, if one had. -/
def runLlPacketReceive (f : FuseBank) (s : Sys) (port hcrc : Nat) (marks : List Nat) (p : Packet) (cut : Option Nat) : Sys :=
  let n := getNp s port
  if n.st ≠ .up then s
  else
    let s := flitsIn s port p.vc marks.length
    if marks.head? ≠ some 1 ∨ hcrc ≠ p.hcrc then count s port 0x01 1
    else
      let s := trace s p 2 port 0
      if marksGood marks p.len = false ∨ (p.payOk = false ∧ p.stomped = false) then
        let s := stompCopy f (count s port 0x01 1) port p cut
        if seqD p.lseq n.ll.nrx < 4096 then nackMissing (seenTo s port ((p.lseq + 1) % 65536)) port else s
      else llReceive (if p.stomped then stompCopy f s port p cut else s) port p

/-! ### The tick's work on a port: ripple, credit audit, INIT (R30, R249, R273, R290) -/

/-- INIT_SEND (R273): one INIT each frame tick while in INIT, and in UP until another link-control packet comes. -/
def tickInit (f : FuseBank) (s : Sys) (p : Nat) : Sys :=
  let n := getNp s p
  if n.st = .init then ctlSend s p (ownInit f n.ll.gotInit)
  else if n.st = .up ∧ n.ll.initMore then ctlSend s p (ownInit f true)
  else s

/-- What stands in the buffer of a port on a VC: headers and flits (R290). The copies of a multicast packet hold one place. -/
def occupancy (s : Sys) (p v : Nat) : Nat × Nat :=
  let a := (s.rt.vcq.filter fun q => q.cx == p && q.pkt.vc == v).map fun q => (q.arr, q.pkt.len)
  let b := ((s.rt.ports.flatMap fun r => r.txq).filter fun t => t.cx % 100 == p && t.pkt.vc == v).map fun t => (t.arr, t.pkt.len)
  let l := (a ++ b).eraseDups
  (l.length, (l.map (·.2)).sum)

/-- CREDIT_AUDIT (R290): the snapshot; where RCV less RET is what the buffer holds on every VC, CRED_SYNC, otherwise the port goes down,
    unless task 4 overruns and there is no audit this frame (R33). It goes down at its next packet boundary or at the next tick (log entry
    133). -/
def tickAudit (s : Sys) (p : Nat) : Sys :=
  let n := getNp s p
  if n.st ≠ .up then s
  else if n.ll.auditBad then portDown s p 6
  else
    let good := (List.range 16).all fun v =>
      let r := n.ll.rcv.getD v (0, 0)
      let c := n.ll.cum.getD v (0, 0)
      let o := occupancy s p v
      (r.1 + 4096 - c.1) % 4096 == o.1 % 4096 && (r.2 + 65536 - c.2) % 65536 == o.2 % 65536
    if good then ctlSend s p (.credSync { sframe := frame s % 256, next := n.ll.nrx, ret := n.ll.cum, rcv := n.ll.rcv })
    else modNp s p fun n => { n with ll := { n.ll with auditBad := true } }

/-- The digest level of the own group toward group `d` (R249): the least level of a working global link of the group to `d`;
    15 without one. -/
def ownDigest (s : Sys) (d : Nat) : Nat :=
  ((List.range 8).filter fun k => slotWorks s d k).foldl (fun a k =>
    match slotOf s.rt.act d k with
    | some (dev, port) => min a (if dev = myDev s then lvl s port else nbrLevel s ((devPort s.rt.act dev).getD 0) port)
    | none => a) 15

/-- HOSTQ: each ejection buffer in sixteenths of 8,192 flits (Table 10.10). -/
def hostq (s : Sys) : List Nat := s.hps.map fun h => min 15 ((h.ej.map fun e => e.2.len).sum / 512)

/-- The relay records: what the own global ports have heard since the last tick (Table 10.10). -/
def relays (s : Sys) : List (Nat × Nat × List Nat) :=
  ((List.range 64).filter fun p => isGlobal s p && (getRp s p).ripNew).filterMap fun p =>
    match wireOf s p, (getRp s p).ripple with
    | some e, some r => r.dstart.map fun d0 => (e.farGroup, d0, r.digest)
    | _, _ => none

/-- The ripple of this tick for a port (R249). -/
def ownRipple (s : Sys) (p : Nat) : Ripple :=
  { sframe := frame s % 256, dstate := s.dev.st.code, portup := portUp s, portq := (List.range 64).map (lvl s),
    hostq := hostq s,
    dstart := if isGlobal s p then some s.rt.dstart else none,
    digest := if isGlobal s p then (List.range 16).map fun j => if s.rt.dstart + j < 925 then ownDigest s (s.rt.dstart + j) else 0
              else [],
    relay := if isGlobal s p then [] else relays s }

/-- RIPPLE_SEND on every port in UP; DSTART then advances (R249). -/
def tickRipple (s : Sys) : Sys :=
  let s1 := (List.range 64).foldl (fun a p => if (getNp s p).st = .up then ctlSend a p (.ripple (ownRipple s p)) else a) s
  { s1 with rt := { s1.rt with
      dstart := if 924 < s1.rt.dstart + 16 then 0 else s1.rt.dstart + 16,
      ports := s1.rt.ports.map fun r => { r with ripNew := false } } }

end Sys2Proof.Machine
end

