-- ==== Sys2Proof/Machine/Fabric.lean ====
section
/-!
DEFINITION. The crossbar's commands (chapter 10): routing, allocation, the escape move, the age sweep, table and mode changes,
datagrams, the weights of task 1, and the mailbox commands of Tables 10.8 and 11.13.
-/
namespace Sys2Proof.Machine

/-! ### The data path -/

/-- PACKET_ROUTE (R236, R237, R244, R251 to R262): the packet at the head of an input VC queue gets its route. -/
def runPacketRoute (_f : FuseBank) (s : Sys) (cx vc : Nat) : Sys :=
  match headOf s cx vc with
  | some q => if q.route.isNone then applyRoute s q (routeOf s cx q.pkt) else s
  | none => s

/-- ROUTE_RECOMPUTE (R253): the route of a waiting head is computed again, unless it is a set of copies. A packet that has turned to the
    escape stays with it, over the Oxbow entries now in force (R241, R256). -/
def runRouteRecompute (_f : FuseBank) (s : Sys) (cx vc : Nat) : Sys :=
  match headOf s cx vc with
  | some q =>
    match q.route with
    | some (.copies _ _) => s
    | some (.escape _) => applyRoute s q (if q.onEsc then routeOf s cx q.pkt else escapeRoute s false q.pkt)
    | _ => applyRoute s q (routeOf s cx q.pkt)
  | none => s

/-- OUTPUT_ALLOCATE (R246): the head with a route takes an output VC, if the next device has credit for it. -/
def runOutputAllocate (_f : FuseBank) (s : Sys) (cx vc : Nat) : Sys :=
  match headOf s cx vc with
  | some q => allocate s q
  | none => s

/-- The packet is for this device itself. -/
def isHere (s : Sys) (p : Packet) : Bool := decide (p.dcoord / 4 = myCoord s / 4)

/-- ESCAPE_MOVE (R256): a packet that has waited 256 cycles on an adaptive VC turns to the escape. One that has reached its destination
    device waits for its consumer and never leaves again. -/
def runEscapeMove (_f : FuseBank) (s : Sys) (cx vc : Nat) : Sys :=
  match headOf s cx vc with
  | some q =>
    let done := match q.route with | some (.escape _) => true | _ => false
    if s.rt.millpond ∨ done = true ∨ q.pkt.rmode ≠ 0 ∨ q.onEsc ∨ isHere s q.pkt then s
    else applyRoute s q (escapeRoute s false q.pkt)
  | none => s

/-- Packets beyond the MPL that have left the crossbar and wait for a consumer are dropped and counted (R262). -/
def sweepWaiting (s : Sys) : Sys :=
  let old := fun (e : Nat × Packet) => tooOld s e.2
  let gone := (s.hps.flatMap fun h => h.ej.filter old) ++ s.ce.colIn.filter old ++ s.rt.ccIn.filter old
  let keep := fun (l : List (Nat × Packet)) => l.filter fun e => !old e
  gone.foldl (fun s e => trace (count s e.1 0x10 1) e.2 8 e.1 0x10)
    { s with
      hps := s.hps.map fun h => { h with ej := keep h.ej }, ce := { s.ce with colIn := keep s.ce.colIn },
      rt := { s.rt with ccIn := keep s.rt.ccIn } }

/-- AGE_SWEEP (R262): every buffered packet beyond the MPL is dropped. -/
def runAgeSweep (_f : FuseBank) (s : Sys) : Sys :=
  let s := (s.rt.vcq.filter fun q => tooOld s q.pkt).foldl (fun s q => dropQ s q 0x10) (sweepWaiting s)
  (List.range 64).foldl (fun s p =>
    ((getRp s p).txq.filter fun t => tooOld s t.pkt).foldl (fun s t =>
      let s := modRp s p fun r => { r with txq := r.txq.erase t }
      let s := trace (count s (t.cx % 100) 0x10 1) t.pkt 8 (t.cx % 100) 0x10
      if 100 ≤ t.cx then freeCopy s (t.cx - 100) t.pkt.vc t.pkt.len t.arr else freeBuf s t.cx t.pkt.vc t.pkt.len) s) s

/-- A packet that the CC or the CE builds enters the crossbar at CX port 64 (log entry 21), with the present AGE and the RMODE
    of the mode in force. During a mode transfer it waits (R260). -/
def enterCx (s : Sys) (p : Packet) : Sys :=
  if s.rt.transfer.isSome then { s with rt := { s.rt with ceOut := s.rt.ceOut ++ [p] } }
  else
    let p := { p with age := frame s % 256, rmode := if p.rmode = 2 then 2 else b2n s.rt.millpond, vc := firstVc p.cls,
                      igroup := if p.kind = 4 then (if s.rt.millpond then 0 else 0x3FF) else p.igroup }
    let (s, p) := tagNew s p
    enqueue (trace s p 1 64 0) 64 p

/-! ### Tables (R240 to R242) -/

/-- Bytes of an entry and number of entries of a table (Table 10.2). -/
def tblShape : Nat → Nat × Nat
  | 0 => (3, 1048576) | 1 => (20, 925) | 2 => (4, 44) | 3 => (8, 1) | _ => (16, 65536)

/-- The reserved bits of an entry are 0 (Tables 10.3 to 10.6). -/
def entryRsvOk (t e : Nat) : Bool :=
  match t with
  | 0 => bits e 18 5 == 0
  | 1 => ((List.range 8).all fun k => bits e (16 * k + 12) 3 == 0) && bits e 136 24 == 0
  | 2 => bits e 6 1 == 0 && bits e 16 16 == 0
  | _ => bits e 18 13 == 0 && bits e 39 25 == 0

/-- The entries of a TBL_WRITE as (index, word). -/
def tblEntries (t : Nat) (b : Bytes) : List (Nat × Nat) :=
  let sz := (tblShape t).1
  (List.range (num b 2 2)).map fun i => (num b 4 4 + i, num b (8 + sz * i) sz)

/-- An entry put into a table; an all-zero entry is an absent one. -/
def putEntry (t : Table Nat) (i e : Nat) : Table Nat := if e = 0 then tdel t i else tset t i e

/-- Entries written into a bank. -/
def bankWrite (b : Bank) (t : Nat) (es : List (Nat × Nat)) : Bank :=
  match t with
  | 0 => { b with ep := es.foldl (fun x e => putEntry x e.1 e.2) b.ep }
  | 1 => { b with grp := es.foldl (fun x e => putEntry x e.1 e.2) b.grp }
  | 2 => { b with dv := es.foldl (fun x e => putEntry x e.1 e.2) b.dv }
  | _ => { b with cfg := (es.map (·.2)).getLastD b.cfg }

/-- One entry of a table as its word (Tables 10.3 to 10.7). -/
def bankRead (s : Sys) (b : Bank) (t i : Nat) : Nat :=
  match t with
  | 0 => (tget b.ep i).getD 0
  | 1 => (tget b.grp i).getD 0
  | 2 => (tget b.dv i).getD 0
  | 3 => b.cfg
  | _ => match tget s.rt.mc i with
    | some m => m.mask + 2 ^ 64 * (1 + 2 * b2n m.ce) + 2 ^ 80 * m.tid
    | none => 0

/-- A port field names an enabled port. -/
def portEnabled (f : FuseBank) (p : Nat) : Bool := decide (p < 64) && !fusedOff f p

/-- An entry names a port that is fused off: a slot or an entry with V = 1, an Oxbow port with OXV = 1, or OXUP (R2). The own device's
    entry names none (R241). -/
def namesFused (f : FuseBank) (own t i e : Nat) : Bool :=
  let ox := fun x => Nat.testBit x 7 && fusedOff f (x % 128)
  match t with
  | 0 => false
  | 1 => ((List.range 8).any fun k => e.testBit (16 * k + 15) && fusedOff f (bits e (16 * k + 6) 6)) || ox (bits e 128 8)
  | 2 => (i != own && e.testBit 7 && fusedOff f (e % 64)) || ox (bits e 8 8)
  | _ => fusedOff f (bits e 32 7)

/-- TBL_WRITE's traits. -/
def specTblWrite : Spec :=
  { Spec.fast 0x0301 0 (fun f s q =>
      let t := num q.payload 0 1
      decide (t ≤ 3) && rsv q.payload 1 1 && decide (num q.payload 4 4 + num q.payload 2 2 ≤ (tblShape t).2) &&
        q.payload.length == 8 + num q.payload 2 2 * (tblShape t).1 &&
        (tblEntries t q.payload).all fun e => entryRsvOk t e.2 && !namesFused f (bits s.rt.sh.cfg 2 6) t e.1 e.2) (sess 3) with
    lenOk := fun l => decide (8 ≤ l) }

/-- TBL_WRITE's effect: entries into the shadow bank (R239, R240). -/
def bodyTblWrite (_f : FuseBank) (s : Sys) (q : MbxReq) : Ans :=
  if s.rt.commit.isSome || s.rt.copying then .no .busy
  else
    let t := num q.payload 0 1
    .done { s with rt := { s.rt with sh := bankWrite s.rt.sh t (tblEntries t q.payload) } } []

/-- TBL_WRITE's traits for a request: a LENGTH that does not fit COUNT is found before any other fault of the payload. -/
def specTblWriteOf (q : MbxReq) : Spec :=
  { specTblWrite with
    lenOk := fun l => decide (8 ≤ l) &&
      (decide (3 < num q.payload 0 1) || l == 8 + num q.payload 2 2 * (tblShape (num q.payload 0 1)).1) }

/-- TBL_WRITE (R240). -/
def runTblWrite (f : FuseBank) (s : Sys) (q : MbxReq) : Sys := mbxRun (specTblWriteOf q) bodyTblWrite f s q

/-- An Oxbow field is not valid, is up, or names an enabled port. -/
def oxOk (f : FuseBank) (ox : Nat) : Bool := !ox.testBit 7 || ox % 128 == 0x7F || portEnabled f (ox % 128)

/-- The shadow banks meet the requirements of R241. -/
def banksOk (f : FuseBank) (b : Bank) : Bool :=
  let own := bits b.cfg 0 18
  cvOf b && ((List.range 8).all fun k => (slotOf b (own / 256) k).isNone) && (devPort b (own / 4 % 64)).isSome &&
  (b.grp.all fun e => ((List.range 8).all fun k => match slotOf b e.1 k with | some (_, p) => portEnabled f p | none => true) &&
                      oxOk f (bits e.2 128 8)) &&
  (b.dv.all fun e => (e.1 == own / 4 % 64 || !e.2.testBit 7 || portEnabled f (e.2 % 64)) && oxOk f (bits e.2 8 8)) &&
  (bits b.cfg 32 7 == 0x7F || portEnabled f (bits b.cfg 32 7))

/-- TBL_COMMIT's traits. -/
def specTblCommit : Spec :=
  { Spec.fast 0x0302 12 (fun f s q =>
      let e := num q.payload 0 8
      rsv q.payload 8 4 && (e == 0 || (decide (epoch s + 1 ≤ e) && decide (e ≤ epoch s + 4))) && banksOk f s.rt.sh) (sess 3) with
    cls := .slow }

/-- TBL_COMMIT's effect: the commit waits for its tick (R241). -/
def bodyTblCommit (_f : FuseBank) (s : Sys) (q : MbxReq) : Ans :=
  let e := num q.payload 0 8
  if s.rt.commit.isSome || s.rt.copying then .no .busy
  else .wait { s with rt := { s.rt with commit := some { frame := if e = 0 then frame s + 1 else e * 2048 } } } .commit

/-- TBL_COMMIT (R241). -/
def runTblCommit (f : FuseBank) (s : Sys) (q : MbxReq) : Sys := mbxRun specTblCommit bodyTblCommit f s q

/-- The active banks are copied into the shadow banks and the command ends (R241). -/
def copyBanks (s : Sys) : Sys :=
  endWait { s with rt := { s.rt with sh := s.rt.act, copying := false } } (fun w => w == .commit) .ok []

/-- TABLE_SWITCH (R241, R452): at the named tick the shadow banks become active. -/
def runTableSwitch (_f : FuseBank) (s : Sys) : Sys :=
  match s.rt.commit with
  | some c =>
    if c.frame ≤ frame s then
      let s := switchBanks s
      if s.rt.freeze.isSome then s else copyBanks s
    else s
  | none => s

/-- ESCAPE_FREEZE_END (R241): 64 frames after the switch the old Oxbow entries are discarded. -/
def runEscapeFreezeEnd (_f : FuseBank) (s : Sys) : Sys :=
  match s.rt.freeze with
  | some (fr, _) => if fr ≤ frame s then copyBanks (clearEsc { s with rt := { s.rt with freeze := none } } true) else s
  | none => s

/-- TBL_READ (R242). -/
def specTblRead : Spec :=
  Spec.fast 0x0303 8 (fun _ _ q =>
    let t := num q.payload 0 1
    decide (t ≤ 4) && decide (num q.payload 1 1 < 2) && decide (num q.payload 4 4 + num q.payload 2 2 ≤ (tblShape t).2) &&
      decide (num q.payload 2 2 * (tblShape t).1 ≤ 4080)) (sess 3)

/-- TBL_READ's answer: the entries packed. -/
def bodyTblRead (_f : FuseBank) (s : Sys) (q : MbxReq) : Ans :=
  let t := num q.payload 0 1
  let b := if num q.payload 1 1 = 1 then s.rt.sh else s.rt.act
  .done s ((List.range (num q.payload 2 2)).flatMap fun i => le (tblShape t).1 (bankRead s b t (num q.payload 4 4 + i)))

/-- TBL_READ (R242). -/
def runTblRead (f : FuseBank) (s : Sys) (q : MbxReq) : Sys := mbxRun specTblRead bodyTblRead f s q

/-! ### Modes and settings (R260, R266) -/

/-- ROUTE_CONFIG's traits (Table 10.12). -/
def specRouteConfig : Spec :=
  Spec.fast 0x0304 24 (fun _ s q =>
    let b := q.payload
    (num b 0 8 == 0 || decide (epoch s < num b 0 8)) && decide (num b 8 1 < 4) && rsv b 9 1 && rsv b 14 2 &&
      decide (num b 12 2 ≤ 13312) && decide (17 ≤ num b 18 2) && decide (17 ≤ num b 22 2)) (sess 3)

/-- ROUTE_CONFIG's effect (R260, R266). -/
def bodyRouteConfig (_f : FuseBank) (s : Sys) (q : MbxReq) : Ans :=
  let b := q.payload
  let want := (num b 8 1).testBit 0
  let e := if num b 0 8 = 0 then epoch s + 1 else num b 0 8
  let cfg : RtCfg := { nmEn := (num b 8 1).testBit 1, nmBias := num b 10 2, revThresh := num b 12 2, mgRate := num b 16 2,
                       mgBurst := num b 18 2, dgRate := num b 20 2, dgBurst := num b 22 2 }
  if want = false ∧ cvOf s.rt.act = false then .no .stateConflict
  else match s.rt.transfer with
  | some (_, m) => if m = want then .done { s with rt := { s.rt with cfgPend := some cfg } } [] else .no .busy
  | none =>
    .done { s with rt := { s.rt with
      cfgPend := some cfg, modePend := if want = s.rt.millpond then none else some (e * 2048, want) } } []

/-- ROUTE_CONFIG (R260, R266). -/
def runRouteConfig (f : FuseBank) (s : Sys) (q : MbxReq) : Sys := mbxRun specRouteConfig bodyRouteConfig f s q

/-- A change to a mode begins: nothing is injected for 64 frames (R260). -/
def startTransfer (s : Sys) (m : Bool) : Sys :=
  { s with rt := { s.rt with modePend := none, transfer := some (frame s + 64, m) } }

/-- MODE_CHANGE_START (R260): the tick of APPLY_EPOCH. -/
def runModeChangeStart (_f : FuseBank) (s : Sys) : Sys :=
  match s.rt.modePend with
  | some (fr, m) => if fr ≤ frame s then startTransfer s m else s
  | none => s

/-- MODE_TRANSFER_END (R260): the new mode is in force, and what waited for injection goes in. -/
def runModeTransferEnd (_f : FuseBank) (s : Sys) : Sys :=
  match s.rt.transfer with
  | some (fr, m) =>
    if fr ≤ frame s then
      let held := s.rt.ceOut
      held.foldl enterCx { s with rt := { s.rt with
        millpond := m, transfer := none, ceOut := [], vcq := s.rt.vcq.map fun q =>
          match q.route with | some (.copies _ _) => q | _ => { q with route := none } } }
    else s
  | none => s

/-- W of R252 from what stands at this moment; a slot that this device holds has weight 0. -/
def weightsNow (s : Sys) : Table Nat :=
  let w := s.rt.act.grp.flatMap fun e =>
    ((List.range 8).filter fun k => slotWorks s e.1 k && !slotOwn s e.1 k).map fun k =>
      (e.1 * 8 + k, 256 * nbrLevel s (slotFirst s e.1 k) (((slotOf s.rt.act e.1 k).map (·.2)).getD 0))
  w.filter fun e => e.2 ≠ 0

/-- A frame task has been stopped for the running frame (R32). -/
def stopped (s : Sys) (task : Nat) : Bool := s.time.ovrNow.testBit task

/-- ROUTE_WEIGHT_RECOMPUTE (R30, R252): task 1 completes. Its result, from the inputs of the frame's tick, stands in the shadow. -/
def runRouteWeightRecompute (_f : FuseBank) (s : Sys) : Sys :=
  if stopped s 1 then s else { s with rt := { s.rt with wShadow := some s.rt.wPlan } }

/-! ### Datagrams (R264, R265) -/

/-- The datagram packet for a payload (R264). IGROUP is 0x3FF in table mode, where no other value says that no intermediate group is
    chosen (log entry 117). -/
def dgram (s : Sys) (dcoord : Nat) (data : Bytes) : Packet :=
  Packet.withPayload { Packet.zero with
    kind := 4, dcoord := dcoord / 4 * 4, sfeid := myCoord s, op := 1, igroup := if s.rt.millpond then 0 else 0x3FF, w56 := data.length,
    rmode := b2n s.rt.millpond, age := frame s % 256 } data

/-- DGRAM_SEND's traits. -/
def specDgramSend : Spec :=
  { Spec.fast 0x0330 0 (fun _ _ q => decide (num q.payload 0 4 < 2 ^ 18) && rsv q.payload 4 4) (sess 3) with
    lenOk := fun l => decide (8 ≤ l) && decide (l ≤ 4080) }

/-- DGRAM_SEND's effect: sent, policed, or no route (R264, R265, R270). -/
def bodyDgramSend (_f : FuseBank) (s : Sys) (q : MbxReq) : Ans :=
  let p := dgram s (num q.payload 0 4) (q.payload.drop 8)
  match routeOf s 64 p with
  | .drop _ => .done s (le 1 0x08 ++ zeros 3)
  | _ =>
    if s.rt.ownDg < p.len * 64 ∨ s.rt.cfg.dgRate = 0 then .done s (le 1 0x07 ++ zeros 3)
    else .done (enterCx { s with rt := { s.rt with ownDg := s.rt.ownDg - p.len * 64 } } p) (zeros 4)

/-- DGRAM_SEND (R264). -/
def runDgramSend (f : FuseBank) (s : Sys) (q : MbxReq) : Sys := mbxRun specDgramSend bodyDgramSend f s q

/-- DGRAM_RECV's answer: the oldest datagram, or nothing (R264). -/
def bodyDgramRecv (_f : FuseBank) (s : Sys) (_q : MbxReq) : Ans :=
  match s.rt.dgq with
  | [] => .done s []
  | (c, d) :: rest => .done { s with rt := { s.rt with dgq := rest } } (le 4 c ++ le 2 d.length ++ zeros 2 ++ d)

/-- DGRAM_RECV's traits. -/
def specDgramRecv : Spec :=
  Spec.fast 0x0331 0 (fun _ _ _ => true) (sess 3)

/-- DGRAM_RECV (R264). -/
def runDgramRecv (f : FuseBank) (s : Sys) (q : MbxReq) : Sys :=
  mbxRun specDgramRecv bodyDgramRecv f s q

/-- DATAGRAM_RECEIVE (R264): a delivered datagram joins the CC's queue of 64, or is dropped and counted. -/
def runDatagramReceive (_f : FuseBank) (s : Sys) : Sys :=
  match s.rt.ccIn with
  | [] => s
  | (cx, p) :: rest =>
    let s := { s with rt := { s.rt with ccIn := rest } }
    let drop := fun ev => trace (count s cx ev 1) p 8 cx ev
    if tooOld s p then drop 0x10
    else if 64 ≤ s.rt.dgq.length then drop 0x19
    else
      let s := trace s p 5 cx 0
      { s with rt := { s.rt with dgq := s.rt.dgq ++ [(p.sfeid % 2 ^ 18, p.payload)] } }

/-! ### Link commands (R299, Tables 11.13 and 11.14) -/

/-- LINK_STATUS's answer (Table 11.14). -/
def bodyLinkStatus (_f : FuseBank) (s : Sys) (q : MbxReq) : Ans :=
  let p := num q.payload 0 1
  let n := getNp s p
  .done s (le 1 n.st.code ++ le 1 (n.txLanes + 4 * n.rxLanes + 16 * b2n (routable s p)) ++ le 1 n.cause ++ le 1 n.attempts ++
    le 2 n.ll.txseq ++ le 2 n.ll.nrx ++ le 2 n.ll.replay.length ++ le 2 (n.ll.replay.map fun r => r.pkt.len).sum ++
    le 2 (n.ll.held.map fun k => k.len).sum ++ le 2 (n.tm.rtt.getD 3200) ++ le 4 n.downs ++ zeros 4)

/-- LINK_STATUS's traits. -/
def specLinkStatus : Spec :=
  Spec.fast 0x0340 4 (fun f _ q => portEnabled f (num q.payload 0 1) && rsv q.payload 1 3) (sess 3)

/-- LINK_STATUS (Table 11.14); a port that does not exist or is fused off is refused (R2). -/
def runLinkStatus (f : FuseBank) (s : Sys) (q : MbxReq) : Sys :=
  mbxRun specLinkStatus bodyLinkStatus f s q

/-- LINK_CONTROL's traits (R299). -/
def specLinkControl : Spec :=
  { Spec.fast 0x0341 4 (fun f s q =>
      let b := q.payload
      portEnabled f (num b 0 1) && (wireOf s (num b 0 1)).isSome && decide (num b 1 1 ≤ 2) && decide (num b 2 1 < 4) && rsv b 3 1 &&
        !(num b 1 1 == 2 && num b 2 1 == 0)) (sess 3) with
    cls := .slow }

/-- LINK_CONTROL's effect (R299). -/
def bodyLinkControl (_f : FuseBank) (s : Sys) (q : MbxReq) : Ans :=
  let p := num q.payload 0 1
  let n := getNp s p
  match num q.payload 1 1 with
  | 0 => .done (portDisable s p) []
  | 1 =>
    if n.st = .disabled then
      let s := portEnable s p
      if (getNp s p).st = .down then .done s [] else .wait s (.link p)
    else if n.st = .down ∧ 8 ≤ n.attempts then .done (portToDown s p) []
    else .done s []
  | _ =>
    if n.st ≠ .up then .no .stateConflict
    else if n.lreq.isSome then .no .busy
    else if (List.range 2).any (fun k => (num q.payload 2 1).testBit k && !n.rxLanes.testBit k && !laneGood n k) then .no .stateConflict
    else .wait (laneRequest s p (num q.payload 2 1) false (some (q.who, q.tag))) (.lanes p)

/-- LINK_CONTROL (R299). -/
def runLinkControl (f : FuseBank) (s : Sys) (q : MbxReq) : Sys := mbxRun specLinkControl bodyLinkControl f s q

end Sys2Proof.Machine
end

