-- ==== Sys2Proof/Machine/Operands.lean ====
section
/-!
DEFINITION. The operand types of atomics and collectives (Tables 6.5 and 8.5): exact floating-point values, rounding to nearest with
ties to even, and the operators on integers and floating point (R137, R200). A floating-point format is its exponent and fraction
widths; E4M3 has no infinity and its largest finite value is 448.
-/
namespace Sys2Proof.Machine

/-- A binary floating-point format. -/
structure Fmt where
  ebits : Nat
  mbits : Nat
  hasInf : Bool
  deriving DecidableEq, Repr

/-- binary64. -/
def Fmt.b64 : Fmt := { ebits := 11, mbits := 52, hasInf := true }
/-- binary32. -/
def Fmt.b32 : Fmt := { ebits := 8, mbits := 23, hasInf := true }
/-- binary16. -/
def Fmt.b16 : Fmt := { ebits := 5, mbits := 10, hasInf := true }
/-- bfloat16. -/
def Fmt.bf16 : Fmt := { ebits := 8, mbits := 7, hasInf := true }
/-- OCP FP8 E4M3. -/
def Fmt.e4m3 : Fmt := { ebits := 4, mbits := 3, hasInf := false }
/-- OCP FP8 E5M2. -/
def Fmt.e5m2 : Fmt := { ebits := 5, mbits := 2, hasInf := true }

/-- Bits of a format. -/
def Fmt.width (f : Fmt) : Nat := 1 + f.ebits + f.mbits

/-- The exponent bias. -/
def Fmt.bias (f : Fmt) : Int := 2 ^ (f.ebits - 1) - 1

/-- A value: not a number, an infinity, or a sign with an exact magnitude `m * 2 ^ e`. -/
inductive FVal where
  | nan (neg : Bool)
  | inf (neg : Bool)
  | fin (neg : Bool) (m : Nat) (e : Int)
  deriving DecidableEq, Repr

/-- The value that bits spell. -/
def Fmt.decode (f : Fmt) (v : Nat) : FVal :=
  let neg := v.testBit (f.ebits + f.mbits)
  let x := bits v f.mbits f.ebits
  let m := v % 2 ^ f.mbits
  if x = 2 ^ f.ebits - 1 ∧ (f.hasInf ∨ m = 2 ^ f.mbits - 1) then (if m = 0 ∧ f.hasInf then .inf neg else .nan neg)
  else if x = 0 then .fin neg m (1 - f.bias - f.mbits)
  else .fin neg (2 ^ f.mbits + m) ((x : Int) - f.bias - f.mbits)

/-- The sign bit of a format, set for a negative value. -/
def Fmt.sign (f : Fmt) (neg : Bool) : Nat := if neg then 2 ^ (f.ebits + f.mbits) else 0

/-- The default quiet NaN (R137, R200). -/
def Fmt.qnan (f : Fmt) : Nat :=
  if f.hasInf then (2 ^ f.ebits - 1) * 2 ^ f.mbits + 2 ^ (f.mbits - 1) else 2 ^ (f.ebits + f.mbits) - 1

/-- The magnitude bits above which a format is past its largest finite value. -/
def Fmt.maxFin (f : Fmt) : Nat := if f.hasInf then (2 ^ f.ebits - 1) * 2 ^ f.mbits - 1 else 2 ^ (f.ebits + f.mbits) - 2

/-- `m / 2 ^ k` rounded to nearest, ties to even. -/
def rne (m k : Nat) : Nat :=
  let q := m / 2 ^ k
  let r := m % 2 ^ k
  if 2 * r > 2 ^ k ∨ (2 * r = 2 ^ k ∧ q % 2 = 1) then q + 1 else q

/-- `m * 2 ^ e` rounded to a whole number, to nearest, ties to even. -/
def roundInt (m : Nat) (e : Int) : Nat := if 0 ≤ e then m * 2 ^ e.toNat else rne m (-e).toNat

/-- A magnitude rounded to the format: overflow gives infinity, or the largest finite value where there is none. -/
def Fmt.round (f : Fmt) (neg : Bool) (m : Nat) (e : Int) : Nat :=
  if m = 0 then f.sign neg
  else
    let low : Int := 1 - f.bias - f.mbits
    let q := max ((Nat.log2 m : Int) + e - f.mbits) low
    let n := roundInt m (e - q)
    let b := (q - low).toNat * 2 ^ f.mbits + n
    f.sign neg + (if b ≤ f.maxFin then b else if f.hasInf then (2 ^ f.ebits - 1) * 2 ^ f.mbits else f.maxFin)

/-- The bits of a value; a NaN becomes the default one, whose sign only E4M3 keeps (R200). -/
def Fmt.encode (f : Fmt) (v : FVal) : Nat :=
  match v with
  | .nan neg => if f.hasInf then f.qnan else f.sign neg + f.qnan
  | .inf neg => f.sign neg + (if f.hasInf then (2 ^ f.ebits - 1) * 2 ^ f.mbits else f.maxFin)
  | .fin neg m e => f.round neg m e

/-- A signed whole number at the scale of an exponent. -/
def scaled (neg : Bool) (m : Nat) (e k : Int) : Int := let x : Int := m * 2 ^ (e - k).toNat; if neg then -x else x

/-- The exact sum, as a value. A zero sum is -0 only of two negative zeros. -/
def FVal.add (a b : FVal) : FVal :=
  match a, b with
  | .nan _, _ => .nan false
  | _, .nan _ => .nan false
  | .inf x, .inf y => if x = y then .inf x else .nan false
  | .inf x, _ => .inf x
  | _, .inf y => .inf y
  | .fin x m e, .fin y n g =>
    let k := min e g
    let t := scaled x m e k + scaled y n g k
    if t = 0 then .fin (x && y) 0 k else .fin (decide (t < 0)) t.natAbs k

/-- `a` is below `b`, with -0 below +0. -/
def FVal.lt (a b : FVal) : Bool :=
  match a, b with
  | .inf x, .inf y => x && !y
  | .inf x, _ => x
  | _, .inf y => !y
  | .fin x m e, .fin y n g =>
    let k := min e g
    let p := scaled x m e k
    let q := scaled y n g k
    decide (p < q) || (decide (p = q) && x && !y && decide (m = 0))
  | _, _ => false

/-- minimumNumber, or maximumNumber. -/
def FVal.pick (least : Bool) (a b : FVal) : FVal :=
  match a, b with
  | .nan _, .nan _ => .nan false
  | .nan _, b => b
  | a, .nan _ => a
  | a, b => if (if least then b.lt a else a.lt b) then b else a

/-- The operators of Tables 6.5 and 8.6. -/
inductive AOp where
  | add | and | or | xor | min | max | swap
  deriving DecidableEq, Repr

/-- A floating-point operator on bits: one rounding; the default NaN. -/
def Fmt.op (f : Fmt) (o : AOp) (a b : Nat) : Nat :=
  match o with
  | .add => f.encode ((f.decode a).add (f.decode b))
  | .min => f.encode ((f.decode a).pick true (f.decode b))
  | .max => f.encode ((f.decode a).pick false (f.decode b))
  | .swap => b
  | _ => a

/-- A word of `w` bits as a signed number. -/
def signed (w v : Nat) : Int := if v.testBit (w - 1) then (v : Int) - 2 ^ w else v

/-- An integer operator on words of `w` bits; ADD wraps. -/
def intOp (w : Nat) (sgn : Bool) (o : AOp) (a b : Nat) : Nat :=
  let lt := if sgn then decide (signed w a < signed w b) else decide (a < b)
  match o with
  | .add => (a + b) % 2 ^ w
  | .and => a &&& b
  | .or => a ||| b
  | .xor => a ^^^ b
  | .min => if lt then a else b
  | .max => if lt then b else a
  | .swap => b

/-- The operator of an AOP code (Table 6.5). -/
def aopOf : Nat → Option AOp
  | 0 => some .add | 1 => some .and | 2 => some .or | 3 => some .xor | 4 => some .min | 5 => some .max | 6 => some .swap | _ => none

/-- AND, OR and XOR. -/
def AOp.bitwise : AOp → Bool | .and | .or | .xor => true | _ => false

/-- The new word of an atomic (R137): operator and type of Table 6.5. -/
def atomicNew (atype : Nat) (o : AOp) (old arg : Nat) : Nat :=
  match atype with
  | 0 => intOp 64 false o old arg
  | 1 => intOp 64 true o old arg
  | 2 => intOp 32 false o old (arg % 2 ^ 32)
  | 3 => intOp 32 true o old (arg % 2 ^ 32)
  | 4 => Fmt.b64.op o old arg
  | _ => Fmt.b32.op o old (arg % 2 ^ 32)

/-- What R137 requires of AOP, ATYPE, the opcode and the offset's alignment. -/
def atomicOk (op aop atype off : Nat) : Bool :=
  decide (atype ≤ 5) && off % (if atype = 2 ∨ atype = 3 ∨ atype = 5 then 4 else 8) == 0 &&
    (op == 6 || match aopOf aop with
      | none => false
      | some o => !(o.bitwise && (atype == 4 || atype == 5)) && !(o == .swap && op == 4))

end Sys2Proof.Machine
end

