-- ==== Sys2Proof/Machine/Flags.lean ====
section
/-!
DEFINITION. The block has no condition flags. What stands here are the flag-like facts of collective arithmetic (R201 to R203): the
exponent records of grid mode with their masks, the grid integers, and the conversions between element and wire formats (Table 8.5).
-/
namespace Sys2Proof.Machine

/-- The format of a floating-point ETYPE (Table 8.5). -/
def etypeFmt : Nat → Option Fmt
  | 4 => some .b64 | 5 => some .b32 | 6 => some .b16 | 7 => some .bf16 | 8 => some .e4m3 | 9 => some .e5m2 | _ => none

/-- The format a floating-point ETYPE is combined in. -/
def upFmt (etype : Nat) : Fmt := if etype = 4 then .b64 else .b32

/-- Bytes of an element. -/
def elemSize : Nat → Nat
  | 0 => 4 | 1 => 4 | 2 => 8 | 3 => 8 | 4 => 8 | 5 => 4 | 6 => 2 | 7 => 2 | _ => 1

/-- Bytes of an element on the way up; `grid`: the data pass of grid mode. -/
def upSize (etype : Nat) (grid : Bool) : Nat :=
  if etype < 4 then elemSize etype else if grid then (if etype = 4 then 16 else 8) else if etype = 4 then 8 else 4

/-- The operator of a ROP code (Table 8.6). -/
def ropOf : Nat → Option AOp
  | 0 => some .add | 1 => some .min | 2 => some .max | 3 => some .and | 4 => some .or | 5 => some .xor | _ => none

/-- An element as it goes up. -/
def toUp (etype v : Nat) : Nat :=
  match etypeFmt etype with
  | none => v
  | some f => if f = upFmt etype then v else
    match f.decode v with
    | .nan neg => (if f.hasInf then 0 else (upFmt etype).sign neg) + (upFmt etype).qnan
    | x => (upFmt etype).encode x

/-- A combined element as it goes down (R200). -/
def fromUp (etype v : Nat) : Nat :=
  match etypeFmt etype with
  | none => v
  | some f => if f = upFmt etype then v else f.encode ((upFmt etype).decode v)

/-- Two elements combined in the up format. -/
def combineUp (etype : Nat) (o : AOp) (a b : Nat) : Nat :=
  match etype with
  | 0 => intOp 32 false o a b
  | 1 => intOp 32 true o a b
  | 2 => intOp 64 false o a b
  | 3 => intOp 64 true o a b
  | _ => (upFmt etype).op o a b

/-- The fraction width F of the grid. -/
def gridF (etype : Nat) : Int := if etype = 4 then 107 else 43

/-- A record of the exponent pass: EMAX and the three masks (R202). -/
structure ExpRec where
  emax : Int
  nan : Nat
  pinf : Nat
  ninf : Nat
  deriving DecidableEq, Repr

/-- A record with no finite non-zero element. -/
def ExpRec.none : ExpRec := { emax := -32768, nan := 0, pinf := 0, ninf := 0 }

/-- exponent_record of R202. -/
def expRecord (f : Fmt) (xs : List Nat) : ExpRec :=
  (xs.mapIdx fun j v => (j, v)).foldl (fun r jv =>
    match f.decode jv.2 with
    | .nan _ => { r with nan := r.nan + 2 ^ jv.1 }
    | .inf false => { r with pinf := r.pinf + 2 ^ jv.1 }
    | .inf true => { r with ninf := r.ninf + 2 ^ jv.1 }
    | .fin _ m e => if m = 0 then r else { r with emax := max r.emax ((Nat.log2 m : Int) + e) }) ExpRec.none

/-- Records combined: maximum and OR. -/
def ExpRec.join (a b : ExpRec) : ExpRec :=
  { emax := max a.emax b.emax, nan := a.nan ||| b.nan, pinf := a.pinf ||| b.pinf, ninf := a.ninf ||| b.ninf }

/-- The 8 bytes of a record. -/
def ExpRec.bytes (r : ExpRec) : Bytes := le 2 (r.emax % 2 ^ 16).toNat ++ le 2 r.nan ++ le 2 r.pinf ++ le 2 r.ninf

/-- A record from its 8 bytes. -/
def ExpRec.parse (b : Bytes) : ExpRec :=
  { emax := signed 16 (num b 0 2), nan := num b 2 2, pinf := num b 4 2, ninf := num b 6 2 }

/-- to_grid of R202 for one element, as a signed number. -/
def toGrid (etype : Nat) (f : Fmt) (r : ExpRec) (v : Nat) : Int :=
  match f.decode v with
  | .fin neg m e =>
    if m = 0 ∨ r.emax = -32768 then 0
    else
      let n : Int := roundInt m (e + gridF etype - r.emax)
      if neg then -n else n
  | _ => 0

/-- from_grid of R202 for element `j` of a block with the sum `t`. -/
def fromGrid (etype : Nat) (f : Fmt) (r : ExpRec) (j : Nat) (t : Int) : Nat :=
  if r.nan.testBit j || (r.pinf.testBit j && r.ninf.testBit j) then f.qnan
  else if r.pinf.testBit j then f.encode (.inf false)
  else if r.ninf.testBit j then f.encode (.inf true)
  else if t = 0 then 0
  else f.round (decide (t < 0)) t.natAbs (r.emax - gridF etype)

end Sys2Proof.Machine
end

