-- ==== Sys2Proof/Machine/Keccak.lean ====
section
/-!
DEFINITION. SHAKE256 and KMAC256 (FIPS 202, SP 800-185), which digests, session proofs and settings rest on (R56, R187, R378, R388).
A Keccak state is 25 lanes of 64 bits as numbers.
-/
namespace Sys2Proof.Machine

/-- A 64-bit lane rotated left. -/
def rotl64 (v n : Nat) : Nat := (v * 2 ^ n + v / 2 ^ (64 - n)) % 2 ^ 64

/-- Rotation offsets of rho by lane x + 5 y. -/
def rhoOff : List Nat :=
  [0, 1, 62, 28, 27, 36, 44, 6, 55, 20, 3, 10, 43, 25, 39, 41, 45, 15, 21, 8, 18, 2, 61, 56, 14]

/-- Round constants of iota. -/
def keccakRc : List Nat :=
  [0x0000000000000001, 0x0000000000008082, 0x800000000000808A, 0x8000000080008000, 0x000000000000808B, 0x0000000080000001,
   0x8000000080008081, 0x8000000000008009, 0x000000000000008A, 0x0000000000000088, 0x0000000080008009, 0x000000008000000A] ++
  [0x000000008000808B, 0x800000000000008B, 0x8000000000008089, 0x8000000000008003, 0x8000000000008002, 0x8000000000000080,
   0x000000000000800A, 0x800000008000000A, 0x8000000080008081, 0x8000000000008080, 0x0000000080000001, 0x8000000080008008]

/-- One round of Keccak-f[1600]. -/
def keccakRound (a : List Nat) (rc : Nat) : List Nat :=
  let at_ := fun (l : List Nat) i => l.getD i 0
  let c := (List.range 5).map fun x => at_ a x ^^^ at_ a (x + 5) ^^^ at_ a (x + 10) ^^^ at_ a (x + 15) ^^^ at_ a (x + 20)
  let d := (List.range 5).map fun x => at_ c ((x + 4) % 5) ^^^ rotl64 (at_ c ((x + 1) % 5)) 1
  let t := (List.range 25).map fun i => at_ a i ^^^ at_ d (i % 5)
  let b := (List.range 25).map fun i =>
    let x := i % 5
    let y := i / 5
    let j := (x + 3 * y) % 5 + 5 * x
    rotl64 (at_ t j) (at_ rhoOff j)
  (List.range 25).map fun i =>
    let x := i % 5
    let y := i / 5
    let v := at_ b i ^^^ ((2 ^ 64 - 1 - at_ b ((x + 1) % 5 + 5 * y)) &&& at_ b ((x + 2) % 5 + 5 * y))
    if i = 0 then v ^^^ rc else v

/-- Keccak-f[1600]. -/
def keccakF (a : List Nat) : List Nat := keccakRc.foldl keccakRound a

/-- A block of 136 bytes absorbed. -/
def absorb (a : List Nat) (b : Bytes) : List Nat :=
  keccakF (a.mapIdx fun i v => if i < 17 then v ^^^ num b (8 * i) 8 else v)

/-- Blocks of a padded message absorbed one by one. -/
def absorbAll : Nat → List Nat → Bytes → List Nat
  | 0, a, _ => a
  | n + 1, a, b => absorbAll n (absorb a (b.take 136)) (b.drop 136)

/-- Output squeezed, `n` blocks of it. -/
def squeeze : Nat → List Nat → Bytes
  | 0, _ => []
  | n + 1, a => ((a.take 17).flatMap (le 8)) ++ squeeze n (keccakF a)

/-- The sponge with rate 136 under a domain suffix, to `n` bytes. -/
def sponge (suffix : Nat) (m : Bytes) (n : Nat) : Bytes :=
  let pad := 136 - m.length % 136
  let tail := if pad = 1 then [BitVec.ofNat 8 (suffix + 128)] else [BitVec.ofNat 8 suffix] ++ zeros (pad - 2) ++ [0x80]
  let p := m ++ tail
  (squeeze ((n + 135) / 136) (absorbAll (p.length / 136) (List.replicate 25 0) p)).take n

/-- SHAKE256 to `n` bytes. -/
def shake256 (m : Bytes) (n : Nat) : Bytes := sponge 0x1F m n

/-- Bytes of a number, most significant first, without leading zeros but at least one. -/
def beBytes (v : Nat) : Bytes :=
  if v < 256 then le 1 v else if v < 65536 then (le 2 v).reverse else if v < 16777216 then (le 3 v).reverse else (le 4 v).reverse

/-- left_encode of SP 800-185. -/
def leftEncode (v : Nat) : Bytes := le 1 (beBytes v).length ++ beBytes v

/-- right_encode of SP 800-185. -/
def rightEncode (v : Nat) : Bytes := beBytes v ++ le 1 (beBytes v).length

/-- encode_string of SP 800-185. -/
def encodeString (b : Bytes) : Bytes := leftEncode (8 * b.length) ++ b

/-- bytepad of SP 800-185 to the rate of 136 bytes. -/
def bytepad (b : Bytes) : Bytes :=
  let x := leftEncode 136 ++ b
  x ++ zeros ((136 - x.length % 136) % 136)

/-- The bytes of an ASCII string. -/
def ascii (s : String) : Bytes := s.toList.map fun c => BitVec.ofNat 8 c.toNat

/-- KMAC256 of a message under a key and a customisation string, to `n` bytes. -/
def kmac256 (key m : Bytes) (n : Nat) (custom : String) : Bytes :=
  sponge 0x04 (bytepad (encodeString (ascii "KMAC") ++ encodeString (ascii custom)) ++ bytepad (encodeString key) ++ m ++
    rightEncode (8 * n)) n

end Sys2Proof.Machine
end

