-- ==== Sys2Proof/Machine/Coll.lean ====
section
/-!
DEFINITION. The collective engine (chapter 8): communicators and their creation, the tree, slots and credits, contributions, combining,
results, failure.
-/
namespace Sys2Proof.Machine

/-! ### Communicators and their packets (R184, R204) -/

/-- A communicator that this device holds. -/
def getComm (s : Sys) (k : Nat) : Option Comm := tget s.ce.comms k

/-- A communicator changed. -/
def modComm (s : Sys) (k : Nat) (g : Comm → Comm) : Sys :=
  match tget s.ce.comms k with
  | some c => { s with ce := { s.ce with comms := tset s.ce.comms k (g c) } }
  | none => s

/-- The device of an endpoint. -/
def devOfFeid (s : Sys) (feid : Nat) : Option Nat := (epCoord s.rt.act feid).map (· / 4)

/-- The anchor of a device: its member of lowest rank (R184). -/
def anchorOf (s : Sys) (l : List Nat) (dev : Nat) : Option Nat := l.find? fun f => devOfFeid s f == some dev

/-- The own device as a coordinate without endpoint bits. -/
def ownDev (s : Sys) : Nat := myCoord s / 4

/-- The own anchor for a communicator. -/
def ownAnchor (s : Sys) (c : Comm) : Nat := (anchorOf s c.list (ownDev s)).getD (((c.members.map (·.feid)).head?).getD 0)

/-- A unicast collective packet to an anchor (Table 8.8). -/
def colPkt (s : Sys) (k : Nat) (c : Comm) (feid inc op operand : Nat) (data : Bytes) : Packet :=
  let p := { Packet.zero with
    kind := 2, dfeid := feid, dcoord := (epCoord s.rt.act feid).getD 0, igroup := 0x3FF, sfeid := ownAnchor s c, tid := c.tid, op := op,
    tinc := inc, dctx := k, operand := operand }
  Packet.withPayload p data

/-- A collective packet enters the crossbar; without an endpoint entry for its receiver there is nowhere to send it. -/
def colSend (s : Sys) (p : Packet) : Sys := if (epCoord s.rt.act p.dfeid).isSome then enterCx s p else s

/-- The value of bits 31:16 of bytes 56 to 59: ETYPE, ROP, COP, MODE, PHASE. -/
def colHdr (etype rop cop mode : Nat) (expo : Bool) : Nat := etype + 16 * rop + 256 * cop + 2048 * mode + 8192 * b2n expo

/-- ETYPE of a header. -/
def hdrEtype (h : Nat) : Nat := h % 16
/-- ROP of a header. -/
def hdrRop (h : Nat) : Nat := h / 16 % 16
/-- COP of a header. -/
def hdrCop (h : Nat) : Nat := h / 256 % 8
/-- MODE of a header. -/
def hdrMode (h : Nat) : Nat := h / 2048 % 4

/-- Grid mode acts: SUM on a floating-point type under MODE 2 (R201). -/
def isGrid (cop rop etype mode : Nat) : Bool :=
  mode == 2 && rop == 0 && decide (4 ≤ etype) && (cop == 2 || cop == 3 || cop == 4)

/-- COP combines; the others are forwarded (R192). -/
def combines (cop : Nat) : Bool := cop == 0 || cop == 2 || cop == 3 || cop == 4

/-- Bytes of an element on the way up for an operation. -/
def wireUp (cop etype : Nat) (grid : Bool) : Nat := if combines cop then upSize etype grid else elemSize etype

/-- Whether a chunk belongs to a grid operation. -/
def hdrGrid (h : Nat) : Bool := isGrid (hdrCop h) (hdrRop h) (hdrEtype h) (hdrMode h)

/-! ### Neighbours, counting and sending (R193, R208) -/

/-- The tree neighbours of a node. -/
def neighbours (c : Comm) : List ColPeer := c.parent.toList ++ c.children

/-- A neighbour changed. -/
def modPeerCol (c : Comm) (feid : Nat) (g : ColPeer → ColPeer) : Comm :=
  { c with parent := c.parent.map fun p => if p.feid == feid then g p else p,
           children := c.children.map fun p => if p.feid == feid then g p else p }

/-- OPs that SENT counts (R208). -/
def countedOp (op : Nat) : Bool := op == 1 || op == 2 || op == 3 || op == 4

/-- A packet to a tree neighbour, counted where R208 counts it. -/
def toPeer (s : Sys) (k feid : Nat) (p : Packet) : Sys :=
  let s := if countedOp p.op then modComm s k fun c => modPeerCol c feid fun q => { q with sent := (q.sent + 1) % 2 ^ 32 } else s
  colSend s p

/-- The own port that leads in one link to a device, if there is one (R193). -/
def oneLink (s : Sys) (dev : Nat) : Option Nat :=
  if dev / 64 = myGroup s then devPort s.rt.act (dev % 64)
  else ((((s.start.fru.map (·.entries)).getD []).filter fun e => e.role == 1 && e.farGroup == dev / 64 && e.farDev == dev % 64).map
    (·.port)).foldl (fun a p => match a with | none => some p | some q => some (min p q)) none

/-- The own port that leads in one link to the device of an anchor. -/
def nearPort (s : Sys) (feid : Nat) : Option Nat := (devOfFeid s feid).bind (oneLink s)

/-- A down packet goes on to the children (R193): once with RMODE 10 for those that the multicast entry leads to, by `inject`, and to each
    other child as a unicast copy. Each child counts once. -/
def sendDown (s : Sys) (k : Nat) (p : Packet) (inject : Bool) : Sys :=
  match getComm s k with
  | none => s
  | some c =>
    let (near, far) := c.children.partition (·.near)
    let s := if countedOp p.op then modComm s k fun c =>
        { c with children := c.children.map fun q => { q with sent := (q.sent + 1) % 2 ^ 32 } } else s
    let s := if inject ∧ near ≠ [] then
        enterCx s { p with dfeid := k, dcoord := 0, rmode := 2, sfeid := ownAnchor s c, tinc := 0, hops := 0, ghops := 0, igroup := 0x3FF }
      else s
    far.foldl (fun s q => colSend s { p with
      dfeid := q.feid, dcoord := (epCoord s.rt.act q.feid).getD 0, rmode := 0, sfeid := ownAnchor s c, tinc := q.inc, hops := 0,
      ghops := 0, igroup := 0x3FF }) s

/-! ### Failure (R207 to R211) -/

/-- An operation of a member ends (R198): its event, with the origin of a failure. -/
def colEnd (s : Sys) (k : Nat) (o : ColOp) (status origin : Nat) : Sys :=
  let s := modComm s k fun c => { c with ops := c.ops.filter fun x => !(x.ctx == o.ctx && x.seq == o.seq) }
  endDesc s o.ctx o.seq o.event { Ev.zero o.ctx with
    type := 0x20, status := status, len := o.wrote, cookie := o.cookie,
    w16 := o.cseq % 2 ^ 32 + 2 ^ 32 * (if status = 0 then 0 else origin % 2 ^ 20) }

/-- COL_FAIL to an anchor. `mbx` is the mailbox status during creation. -/
def failPkt (s : Sys) (k : Nat) (c : Comm) (feid inc status mbx origin : Nat) : Packet :=
  colPkt s k c feid inc 0x0C (status + 2 ^ 16 * mbx + 2 ^ 32 * origin) []

/-- A communicator fails (R209), told by neighbour `from_` or found here. In JOINING (R210, R211) the COMM_CREATEs that other local
    members wait for end with STATE_CONFLICT, as for an MGID in FAILED (log entry 135). -/
def failComm (s : Sys) (k status origin : Nat) (from_ : Option Nat) : Sys :=
  match getComm s k with
  | none => s
  | some c =>
    if c.st = .failed then s
    else
      let s := modComm (count s 84 0x03 1) k fun c => { c with st := .failed, fstatus := status, origin := origin, early := [], treeQ := none }
      let s := ((neighbours c).filter fun q => from_ != some q.feid).foldl
        (fun s q => colSend s (failPkt s k c q.feid q.inc status 0 origin)) s
      let s := if c.st = .joining then c.members.foldl (fun s m => endWait s (fun w => w == .commCreate k m.ctx) .stateConflict []) s else s
      c.ops.foldl (fun s o =>
        let here := c.members.any fun m => m.ctx == o.ctx && m.feid == origin
        colEnd s k o (if here then status else 2) origin) s

/-- A device forgets an MGID: slots and multicast entry are free. -/
def forget (s : Sys) (k : Nat) : Sys :=
  let s := forgetAccsCol s k
  { s with ce := { s.ce with comms := tdel s.ce.comms k }, rt := { s.rt with mc := tdel s.rt.mc k } }
where
  /-- Host accesses of the communicator are given up. -/
  forgetAccsCol (s : Sys) (k : Nat) : Sys :=
    let mine := fun (a : Acc) => match a.cont with
      | .colRead m _ _ _ _ | .colWrite m _ _ | .colList m _ _ => m == k
      | _ => false
    let lost := s.xl.accs.filter mine
    let gone := lost.map fun a => a.id
    let s := { s with
      hps := s.hps.map fun h => { h with rdWait := h.rdWait.filter fun e => !gone.contains e.acc },
      xl := { s.xl with accs := s.xl.accs.filter fun a => !mine a, fin := s.xl.fin.filter fun e => !mine e.1 } }
    (lost.filter fun a => a.retry.isSome && !a.held).foldl clearReason s

/-- A status of Table 3.8 from its code, for the statuses that end a creation. -/
def createStatus (code : Nat) : Status :=
  if code = 0x0401 then .timeout else if code = 0x0103 then .badParam else if code = 0x0303 then .noResource
  else if code = 0x0301 then .stateConflict else .internal

/-- Creation fails at this device (R188): local COMM_CREATEs end with the status and the MGID is forgotten. A leader tells every device
    that has joined. -/
def failCreate (s : Sys) (k code : Nat) (tell : Bool) : Sys :=
  match getComm s k with
  | none => s
  | some c =>
    if c.st ≠ .joining then s
    else
      let s := if tell && c.leader then
          c.joins.foldl (fun s j => colSend s (failPkt s k c j.1 j.2 0 code (ownAnchor s c))) s else s
      forget (c.members.foldl (fun s m => endWait s (fun w => w == .commCreate k m.ctx) (createStatus code) []) s) k

/-- A local member is gone; the device forgets the MGID with its last member. -/
def unmember (s : Sys) (k ctx : Nat) : Sys :=
  let s := modComm s k fun c => { c with members := c.members.filter fun x => x.ctx != ctx }
  match getComm s k with
  | some c => if c.members.isEmpty then forget s k else s
  | none => s

/-- A local member leaves (R210, R211): its operations end with ABORTED, the communicator fails, and the device forgets the MGID with its
    last member. -/
def leave (s : Sys) (k ctx : Nat) : Sys :=
  match getComm s k with
  | none => s
  | some c =>
    match c.members.find? fun m => m.ctx == ctx with
    | none => s
    | some m =>
      let s := (c.ops.filter fun o => o.ctx == ctx).foldl (fun s o => colEnd s k o 2 m.feid) s
      let s := endWait s (fun w => w == .commCreate k ctx) .stateConflict []
      unmember (failComm s k 2 m.feid none) k ctx

/-- Every membership of a context is destroyed at its abort (R210). The answer counts the operations that end. -/
def abortCol (s : Sys) (ctx : Nat) : Sys × Nat :=
  let mine := s.ce.comms.filter fun e => e.2.members.any fun m => m.ctx == ctx
  (mine.foldl (fun s e => leave s e.1 ctx) s, (mine.map fun e => (e.2.ops.filter fun o => o.ctx == ctx).length).sum)

/-! ### Creation (R187, R190, R193, R229) -/

/-- The member devices of a list, in order of their anchors' ranks. -/
def memberDevs (s : Sys) (l : List Nat) : List Nat := (l.filterMap (devOfFeid s)).eraseDups

/-- A working global link that device `dev` of group `g` holds to the own group (R229). -/
def linksHere (s : Sys) (g dev : Nat) : Bool :=
  let own := ((s.start.fru.map (·.entries)).getD []).any fun e =>
    e.role == 1 && e.farGroup == g && e.farDev == dev && routable s e.port
  own || (List.range 64).any fun p =>
    routable s p && !isGlobal s p && (match (getNp s p).hello with
      | some h => h.globs.any fun e => e.1 == g && e.2.2.2.1 == dev && e.2.2.2.2
      | none => false)

/-- Working global links that device `dev` of the own group holds to groups with member devices. -/
def linkCount (s : Sys) (devs : List Nat) (dev : Nat) : Nat :=
  let groups := ((devs.map (· / 64)).eraseDups).filter fun g => g != myGroup s
  (groups.map fun g => ((List.range 8).filter fun k =>
    slotWorks s g k && (match slotOf s.rt.act g k with | some (d, _) => d == dev % 64 | none => false)).length).sum

/-- The root of the tree (R229). -/
def treeRoot (s : Sys) (devs : List Nat) : Nat :=
  if s.pe.pol.rootPolicy = 0 then ownDev s
  else (((devs.filter fun d => d / 64 == myGroup s).mergeSort fun a b => decide (a ≤ b)).foldl (fun a d =>
    match a with
    | none => some d
    | some b => if linkCount s devs b < linkCount s devs d then some d else some b) none).getD (ownDev s)

/-- The head of a group (R229). -/
def groupHead (s : Sys) (devs : List Nat) (g : Nat) : Nat :=
  let l := (devs.filter fun d => d / 64 == g).mergeSort fun a b => decide (a ≤ b)
  (l.find? fun d => linksHere s g (d % 64)).getD (l.headD 0)

/-- build_tree of R229: the children of each device, in ascending coordinate. -/
def treeChildren (s : Sys) (devs : List Nat) (root d : Nat) : List Nat :=
  let asc := fun (l : List Nat) => l.mergeSort fun a b => decide (a ≤ b)
  let far := ((devs.map (· / 64)).eraseDups).filter fun g => g != root / 64
  if d = root then asc ((devs.filter fun x => x / 64 == root / 64 && x != root) ++ far.map (groupHead s devs))
  else if d / 64 ≠ root / 64 ∧ groupHead s devs (d / 64) = d then asc (devs.filter fun x => x / 64 == d / 64 && x != d)
  else []

/-- The tree as the leader's placement engine builds it (R229). -/
def treeOf (s : Sys) (devs : List Nat) : TreePlan :=
  let root := treeRoot s devs
  { root, kids := devs.map fun d => (d, treeChildren s devs root d) }

/-- The children of a device in a tree. -/
def TreePlan.children (t : TreePlan) (d : Nat) : List Nat := ((t.kids.find? fun e => e.1 == d).map (·.2)).getD []

/-- Members that a device holds. -/
def localCount (s : Sys) (l : List Nat) (d : Nat) : Nat := (l.filter fun f => devOfFeid s f == some d).length

/-- A COL_SETUP payload (Table 8.11). -/
def setupBytes (isRoot : Bool) (parent pinput pinc : Nat) (kids : List (Nat × Nat)) : Bytes :=
  le 4 (parent + 2 ^ 31 * b2n isRoot) ++ le 2 pinput ++ le 2 kids.length ++ le 2 pinc ++ zeros 6 ++
    kids.flatMap fun e => le 4 (e.1 + 2 ^ 20 * e.2)

/-- A fresh neighbour. -/
def newPeer (s : Sys) (feid inc : Nat) : ColPeer :=
  { feid, inc, sent := 0, recv := 0, prevSent := 0, last := frame s + 4 * s.ce.beatFrames, owed := 0 }

/-- Blocks of the collective store in use (R190). -/
def colBlocks (s : Sys) : Nat := (s.ce.comms.map fun e => e.2.blocks).sum

/-- A local member's COMM_CREATE agrees with the device's values (R187, step 2). -/
def agrees (c : Comm) (m : ColMember) : Bool :=
  m.ready && m.digest == c.digest && m.nmemb == c.n && m.slotLog == c.slotLog && m.depth == c.depth

/-- READY is entered and ends the local COMM_CREATEs (R187, R189). One whose values differ and whose endpoint the device's list does not name is
    none of the NLOCAL members: it ends with STATE_CONFLICT, as for an MGID held in READY (DESIGN CHOICE, log entry 149). -/
def enterReady (s : Sys) (k : Nat) (resp : Comm → ColMember → Bytes) : Sys :=
  let other := (((getComm s k).map (·.members)).getD []).filter fun m => !((getComm s k).any fun c => agrees c m)
  let s := other.foldl (fun s m => endWait s (fun w => w == .commCreate k m.ctx) .stateConflict []) s
  let s := modComm s k fun c => { c with members := c.members.filter (agrees c) }
  let s := modComm s k fun c =>
    { c with st := .ready, credits := c.depth, beatAt := frame s + s.ce.beatFrames,
             parent := c.parent.map fun q => { q with last := frame s + 4 * s.ce.beatFrames },
             children := c.children.map fun q => { q with last := frame s + 4 * s.ce.beatFrames },
             members := (c.members.map fun m => { m with nextCseq := 1 }).mergeSort fun a b => decide (a.rank ≤ b.rank) }
  match getComm s k with
  | none => s
  | some c => c.members.foldl (fun s m => endWait s (fun w => w == .commCreate k m.ctx) .ok (resp c m)) s

/-- The operations of a communicator that are outstanding at this device (R197): those of its members with one CSEQ are one. -/
def outstanding (c : Comm) : List Nat := (c.ops.map (·.cseq)).eraseDups

/-- NLOCAL as COMM_QUERY shows it: before a list has been read, the members known so far (log entry 136). -/
def shownLocal (c : Comm) : Nat := if c.nlocal = 0 then c.members.length else c.nlocal

/-- The payload of Table 8.10 for a member. -/
def commBytes (c : Comm) (m : ColMember) : Bytes :=
  le 1 (match c.st with | .joining => 1 | .ready => 2 | .failed => 3) ++ le 1 c.fstatus ++ le 1 (b2n c.isRoot + 2 * b2n c.leader) ++
    le 1 (shownLocal c) ++ le 2 c.children.length ++ le 1 m.slotLog ++ le 1 m.depth ++
    le 4 ((c.parent.map (·.feid)).getD 0) ++ le 2 c.pinput ++ le 2 c.blocks ++ le 4 m.nextCseq ++ le 2 (outstanding c).length ++ zeros 2 ++
    le 4 c.origin ++ zeros 4

/-- COL_GO at a node (R187): READY, and COL_GO on to the children. -/
def goHere (s : Sys) (k : Nat) (inject : Bool) : Sys :=
  match getComm s k with
  | none => s
  | some c =>
    if c.st ≠ .joining ∨ c.setup = false then s
    else sendDown (enterReady s k commBytes) k (colPkt s k c 0 0 0x0B 0 []) inject

/-- The leader takes a COL_READY, its own among them. -/
def readyAt (s : Sys) (k feid : Nat) (ok : Bool) : Sys :=
  match getComm s k with
  | none => s
  | some c =>
    if c.st ≠ .joining ∨ c.leader = false ∨ c.setupSent = false then s
    else if ok = false then failCreate s k 0x0303 true
    else
      let s := modComm s k fun c => { c with readys := if c.readys.contains feid then c.readys else c.readys ++ [feid] }
      match getComm s k with
      | none => s
      | some c =>
        if c.readys.length < (memberDevs s c.list).length then s
        else if c.isRoot then goHere s k true
        else
          let root := (c.tree.map (·.root)).getD (ownDev s)
          let f := (anchorOf s c.list root).getD 0
          let inc := ((c.joins.find? fun j => j.1 == f).map (·.2)).getD 0
          colSend s (colPkt s k c f inc 0x0B 0 [])

/-- COL_SETUP at a device (R187, step 4): slots and the multicast entry are taken, and COL_READY answers. -/
def setupHere (s : Sys) (k : Nat) (b : Bytes) : Sys :=
  match getComm s k with
  | none => s
  | some c =>
    if c.st ≠ .joining ∨ c.setup = true ∨ c.refused = true then s
    else
      let kids := (List.range (num b 6 2)).map fun i => num b (16 + 4 * i) 4
      let isRoot := (num b 0 4).testBit 31
      let nin := c.nlocal + kids.length
      let blocks := nin * c.depth * 2 ^ (c.slotLog - 8)
      let fits := decide (colBlocks s + blocks ≤ 65536) && decide (nin ≤ 1024)
      let s := if fits then
          let s := modComm s k fun c =>
            { c with setup := true, isRoot := isRoot, blocks := blocks, pinput := num b 4 2 % 1024,
                     parent := if isRoot then none else some (newPeer s (num b 0 4 % 2 ^ 20) (num b 8 2 % 4096)),
                     children := kids.map fun e =>
                       { newPeer s (e % 2 ^ 20) (e / 2 ^ 20) with near := (nearPort s (e % 2 ^ 20)).isSome },
                     inputs := List.replicate nin [] }
          let mask := (kids.filterMap fun e => nearPort s (e % 2 ^ 20)).eraseDups
          { s with rt := { s.rt with mc := tset s.rt.mc k { mask := (mask.map fun p => 2 ^ p).sum, ce := true, tid := c.tid } } }
        else modComm s k fun c => { c with refused := true }
      if c.leader then readyAt s k (ownAnchor s c) fits
      else
        let lead := c.list.headD 0
        let s := colSend s (colPkt s k c lead ((c.joins.head?.map (·.2)).getD 0) 0x0A (b2n (!fits)) [])
        s

/-- How many local members' COMM_CREATEs agree. -/
def agreed (c : Comm) : Nat := (c.members.filter (agrees c)).length

/-- The leader has its own local members and every COL_JOIN: its placement engine is to choose the tree (R187, step 3; R214). -/
def treeWanted (s : Sys) (k : Nat) : Sys :=
  match getComm s k with
  | none => s
  | some c =>
    let devs := memberDevs s c.list
    let ready := decide (0 < c.nlocal) && decide (c.nlocal ≤ agreed c)
    let joined := devs.all fun d => d == ownDev s || (match anchorOf s c.list d with | some f => c.joins.any fun j => j.1 == f | none => false)
    if c.leader = false ∨ c.st ≠ .joining ∨ c.treeQ.isSome ∨ c.tree.isSome ∨ ready = false ∨ joined = false then s
    else modComm s k fun c => { c with treeQ := some (frame s + 1, devs.length) }

/-- The tree has been chosen: each member device gets its COL_SETUP (R187, step 3). -/
def setupAll (s : Sys) (k : Nat) : Sys :=
  match getComm s k with
  | none => s
  | some c =>
    match c.tree with
    | none => s
    | some t =>
      if c.st ≠ .joining ∨ c.setupSent then s
      else
      let devs := memberDevs s c.list
      let anchor := fun d => (anchorOf s c.list d).getD 0
      let inc := fun d => if d = ownDev s then s.start.incarn else ((c.joins.find? fun j => j.1 == anchor d).map (·.2)).getD 0
      let parentOf := fun d => devs.find? fun x => (t.children x).contains d
      let bytes := fun d =>
        let kids := (t.children d).map fun x => (anchor x, inc x)
        match parentOf d with
        | some x => setupBytes (d == t.root) (anchor x) (localCount s c.list x + (t.children x).idxOf d) (inc x) kids
        | none => setupBytes (d == t.root) 0 0 0 kids
      let s := modComm s k fun c => { c with setupSent := true }
      let s := (devs.filter fun d => d != ownDev s).foldl (fun s d =>
        colSend s (colPkt s k c (anchor d) (inc d) 0x09 (bytes d).length (bytes d))) s
      setupHere s k (bytes (ownDev s))

/-- COL_JOIN to the leader (Table 8.9). -/
def sendJoin (s : Sys) (k : Nat) : Sys :=
  match getComm s k with
  | none => s
  | some c =>
    let body := c.digest ++ le 4 c.n ++ le 1 c.slotLog ++ le 1 c.depth ++ le 1 c.nlocal ++ zeros 1
    colSend (modComm s k fun c => { c with joinAt := some (frame s) })
      (colPkt s k c (c.list.headD 0) 0 0x08 (16 + 2 ^ 16 * s.start.incarn) body)

/-- Once the COMM_CREATEs of all local members agree, a device joins, or the leader looks at its joins (R187, step 2). -/
def joinIfReady (s : Sys) (k : Nat) : Sys :=
  match getComm s k with
  | none => s
  | some c =>
    if c.st ≠ .joining ∨ c.nlocal = 0 ∨ agreed c < c.nlocal ∨ c.joinAt.isSome then s
    else if c.leader then treeWanted (modComm s k fun c => { c with joinAt := some (frame s) }) k
    else sendJoin s k

/-- The member list has been read (R186, R187). Bits 31:20 of an entry are ignored, though DIGEST covers them (DESIGN CHOICE, log entry 150). -/
def listRead (s : Sys) (k ctx : Nat) (e : AccEnd) : Sys :=
  match getComm s k with
  | none => s
  | some c =>
    match c.members.find? fun m => m.ctx == ctx with
    | none => s
    | some m =>
      let bad := unmember (endWait s (fun w => w == .commCreate k ctx) .badParam []) k ctx
      match e with
      | .ok d =>
        let l := (List.range m.nmemb).map fun i => num d (4 * i) 4 % 2 ^ 20
        let ok := l.getD m.rank (2 ^ 20) == m.feid && (l.all fun f => (devOfFeid s f).isSome) && decide (l.eraseDups.length = l.length)
        if ok = false then bad
        else
          let dig := shake256 d 8
          let first := c.nlocal == 0
          let s := modComm s k fun c =>
            { c with members := c.members.map fun x => if x.ctx == ctx then { x with ready := true, digest := dig } else x,
                     list := if first then l else c.list, digest := if first then dig else c.digest,
                     n := if first then m.nmemb else c.n, slotLog := if first then m.slotLog else c.slotLog,
                     depth := if first then m.depth else c.depth, nlocal := if first then localCount s l (ownDev s) else c.nlocal,
                     leader := if first then decide (devOfFeid s (l.headD 0) = some (ownDev s)) else c.leader }
          joinIfReady s k
      | _ => bad

/-! ### Contributions (R191, R192, R195 to R198, R202) -/

/-- Elements that a member reads, and elements that the result has (Table 8.4). -/
def readElems (c : Comm) (o : ColOp) (rank : Nat) : Nat :=
  match o.cop with
  | 0 => 0
  | 1 => if rank = o.root then o.count else 0
  | 4 => c.n * o.count
  | _ => o.count

/-- Elements of the result as it comes down. -/
def downElems (c : Comm) (cop count : Nat) : Nat :=
  match cop with | 0 => 0 | 4 => c.n * count | 5 => c.n * count | _ => count

/-- Elements written for a member. -/
def writeElems (c : Comm) (o : ColOp) (rank : Nat) : Nat :=
  match o.cop with
  | 0 => 0
  | 2 => if rank = o.root then o.count else 0
  | 5 => c.n * o.count
  | _ => o.count

/-- The grid of an operation. -/
def opGrid (o : ColOp) : Bool := isGrid o.cop o.rop o.etype o.mode

/-- A member gives chunks to its input: all but the non-roots of a BCAST. -/
def gives (o : ColOp) (rank : Nat) : Bool := o.cop != 1 || rank == o.root

/-- MSGLEN of the data pass on the way up. -/
def upLen (c : Comm) (o : ColOp) (rank : Nat) : Nat :=
  let w := wireUp o.cop o.etype (opGrid o)
  if o.cop = 5 then c.n * o.count * elemSize o.etype else readElems c o rank * w

/-- MSGLEN of the exponent pass. -/
def expoLen (c : Comm) (o : ColOp) (rank : Nat) : Nat := if opGrid o then (readElems c o rank + 15) / 16 * 8 else 0

/-- The combined records for the blocks of elements `i` to `j` have come. -/
def recsFor (o : ColOp) (i j : Nat) : Bool :=
  o.recs.any fun e => decide (e.1 ≤ i / 16 * 8) && decide ((j + 15) / 16 * 8 ≤ e.1 + e.2.length)

/-- The combined record of the block of an element. -/
def recOf (o : ColOp) (i : Nat) : ExpRec :=
  match o.recs.find? fun e => decide (e.1 ≤ i / 16 * 8) && decide (i / 16 * 8 + 8 ≤ e.1 + e.2.length) with
  | some e => ExpRec.parse (sub e.2 (i / 16 * 8 - e.1) 8)
  | none => ExpRec.none

/-- What the next chunk of an operation is: nothing; one without payload; or a pass, its wire offset, and elements from and how many. -/
inductive NextChunk where
  | none
  | empty
  | read (expo : Bool) (off first n : Nat)
  deriving DecidableEq, Repr

/-- The next chunk that an operation of a member gives (R192). -/
def nextChunk (c : Comm) (o : ColOp) (rank : Nat) : NextChunk :=
  let slot := 2 ^ c.slotLog
  let total := readElems c o rank
  let w := wireUp o.cop o.etype (opGrid o)
  if gives o rank = false then .none
  else if total = 0 then (if o.empty then .none else .empty)
  else if o.readX < expoLen c o rank then
    let first := o.readX * 2
    .read true o.readX first (min (slot / 8 * 16) (total - first))
  else
    let first := o.read / w
    let n := min (slot / w) (total - first)
    if total ≤ first then .none
    else if opGrid o && !recsFor o first (first + n) then .none
    else .read false o.read first n

/-- The operation of a member whose chunks are not all given, lowest CSEQ first. -/
def nextOp (c : Comm) (m : ColMember) : Option (ColOp × NextChunk) :=
  let open_ := fun (o : ColOp) => gives o m.rank &&
    (if readElems c o m.rank = 0 then !o.empty
     else decide (o.readX < expoLen c o m.rank) || decide (o.read < readElems c o m.rank * wireUp o.cop o.etype (opGrid o)))
  (c.ops.find? fun o => o.ctx == m.ctx && open_ o).map fun o => (o, nextChunk c o m.rank)

/-- A chunk is put into a slot of an input. -/
def putChunk (s : Sys) (k i : Nat) (ch : Chunk) : Sys :=
  modComm s k fun c => { c with inputs := c.inputs.modify i fun l => l ++ [{ ch with arr := c.nextArr }], nextArr := c.nextArr + 1 }

/-- An operation of a member changed. -/
def modColOp (s : Sys) (k ctx cseq : Nat) (g : ColOp → ColOp) : Sys :=
  modComm s k fun c => { c with ops := c.ops.map fun o => if o.ctx == ctx && o.cseq == cseq then g o else o }

/-- The header fields of an operation's chunks. -/
def opHdr (o : ColOp) (expo : Bool) : Nat := colHdr o.etype o.rop o.cop o.mode expo

/-- A member of a communicator changed. -/
def modColMember (s : Sys) (k ctx : Nat) (g : ColMember → ColMember) : Sys :=
  modComm s k fun c => { c with members := c.members.map fun m => if m.ctx == ctx then g m else m }

/-- The chunks that have come move into their input, up to the first whose read has not ended (R192). -/
def deliverPlaces (s : Sys) (k i ctx : Nat) (l : List ColPlace) : Sys :=
  let ready := l.takeWhile fun e => e.chunk.isSome
  let s := (ready.filterMap (·.chunk)).foldl (fun s ch => putChunk s k i ch) s
  modColMember s k ctx fun m => { m with reading := l.drop ready.length }

/-- CONTRIBUTION_READ (R191, R192): a chunk of a local contribution is read into a free slot of its member's input. -/
def contribute (s : Sys) (k ctx : Nat) : Sys :=
  match getComm s k with
  | none => s
  | some c =>
    match c.members.find? fun m => m.ctx == ctx with
    | none => s
    | some m =>
      let i := c.members.idxOf m
      if c.st ≠ .ready ∨ c.depth ≤ (c.inputs.getD i []).length + m.reading.length then s
      else match nextOp c m with
      | none => s
      | some (_, .none) => s
      | some (o, .empty) =>
        deliverPlaces (modColOp s k ctx o.cseq fun o => { o with empty := true }) k i ctx (m.reading ++
          [{ cseq := o.cseq, expo := false, off := 0, chunk := some
               { cseq := o.cseq % 65536, expo := false, off := 0, data := [], hdr := opHdr o false, msglen := 0, root := o.root, arr := 0 } }])
      | some (o, .read expo off first n) =>
        let es := elemSize o.etype
        let w := wireUp o.cop o.etype (opGrid o)
        let s := modColOp s k ctx o.cseq fun o =>
          if expo then { o with readX := o.readX + (n + 15) / 16 * 8 } else { o with read := o.read + n * w }
        let s := modColMember s k ctx fun x => { x with reading := x.reading ++ [{ cseq := o.cseq, expo, off, chunk := none }] }
        startAcc s ctx .lread ((o.saddr + first * es) % 2 ^ 64) (n * es) [] 0 (.colRead k ctx o.cseq off expo) none

/-- The numbers that a byte string holds, `w` bytes each. -/
def elems (w : Nat) (b : Bytes) : List Nat := (List.range (b.length / w)).map fun i => num b (w * i) w

/-- Blocks of 16. -/
def blocks16 : Nat → List Nat → List (List Nat)
  | 0, _ => []
  | n + 1, l => if l.isEmpty then [] else l.take 16 :: blocks16 n (l.drop 16)

/-- A contribution as it goes up: records of the exponent pass, grid integers, or elements in the up format (R199, R202). -/
def toWire (o : ColOp) (expo : Bool) (first : Nat) (b : Bytes) : Bytes :=
  let xs := elems (elemSize o.etype) b
  match etypeFmt o.etype with
  | some f =>
    if expo then (blocks16 (xs.length + 1) xs).flatMap fun l => (expRecord f l).bytes
    else if opGrid o then
      let w := upSize o.etype true
      (xs.mapIdx fun j v => le w ((toGrid o.etype f (recOf o (first + j)) v) % 2 ^ (8 * w)).toNat).flatten
    else if combines o.cop then xs.flatMap fun v => le (upSize o.etype false) (toUp o.etype v)
    else b
  | none => b

/-- A contribution has been read, or could not be: the member's operation fails with its communicator (log entry 27). -/
def contributed (s : Sys) (k ctx cseq off : Nat) (expo : Bool) (e : AccEnd) : Sys :=
  match getComm s k with
  | none => s
  | some c =>
    match c.members.find? fun m => m.ctx == ctx with
    | none => s
    | some m =>
      let i := c.members.idxOf m
      match e, c.ops.find? fun o => o.ctx == ctx && o.cseq == cseq with
      | .ok d, some o =>
        let w := wireUp o.cop o.etype (opGrid o)
        let base := if o.cop = 5 then m.rank * o.count * elemSize o.etype else 0
        let ch : Chunk :=
          { cseq := cseq % 65536, expo, off := base + off, data := toWire o expo (off / w) d, hdr := opHdr o expo,
            msglen := if expo then expoLen c o m.rank else upLen c o m.rank, root := o.root, arr := 0 }
        deliverPlaces s k i ctx (m.reading.map fun e =>
          if e.cseq == cseq && e.expo == expo && e.off == off then { e with chunk := some ch } else e)
      | .ok _, none => s
      | _, _ => failComm s k 5 m.feid none

/-! ### Combining (R192, R200 to R203, R207) -/

/-- A chunk is combined by every input, and not forwarded. -/
def chunkJoins (ch : Chunk) : Bool := combines (hdrCop ch.hdr) || (hdrCop ch.hdr == 5 && ch.msglen == 0)

/-- Chunks of one operation disagree (R207): the fields ETYPE to PHASE, MSGLEN, or ROOT. -/
def disagree (a b : Chunk) : Bool :=
  a.cseq == b.cseq && (a.hdr % 8192 != b.hdr % 8192 || a.expo != b.expo || a.msglen != b.msglen ||
    ((hdrCop a.hdr == 1 || hdrCop a.hdr == 2) && a.root != b.root))

/-- A CSEQ `b` is `a` or stands behind it, modulo 2^16. -/
def cseqBehind (a b : Nat) : Bool := decide ((a + 65536 - b) % 65536 < 32768)

/-- A forwarded chunk is remembered for the inputs that come later under its CSEQ, until COL_DONE; the record of a CSEQ far behind is
    dropped, since the numbers wrap. -/
def remember (c : Comm) (ch : Chunk) : Comm :=
  { c with passed := (c.passed.filter fun x => cseqBehind (ch.cseq + 16384) x.cseq && x.cseq != ch.cseq) ++
             [((c.passed.find? fun x => x.cseq == ch.cseq).getD { ch with data := [] })] }

/-- Two chunks folded into one (R200 to R202). -/
def fold2 (h : Nat) (expo : Bool) (a b : Bytes) : Bytes :=
  let et := hdrEtype h
  if expo then
    (List.range (a.length / 8)).flatMap fun i => ((ExpRec.parse (sub a (8 * i) 8)).join (ExpRec.parse (sub b (8 * i) 8))).bytes
  else
    let w := upSize et (hdrGrid h)
    let g := fun x y => if hdrGrid h then (x + y) % 2 ^ (8 * w) else
      match ropOf (hdrRop h) with | some o => combineUp et o x y | none => x
    ((elems w a).zip (elems w b)).flatMap fun e => le w (g e.1 e.2)

/-- The inputs' chunks folded: in order of arrival in fast mode, else in input order (R201). -/
def foldChunks (l : List Chunk) : Bytes :=
  match l with
  | [] => []
  | c :: _ =>
    let l := if hdrMode c.hdr = 0 then l.mergeSort fun a b => decide (a.arr ≤ b.arr) else l
    match l with
    | [] => []
    | a :: t => t.foldl (fun d b => fold2 a.hdr a.expo d b.data) a.data

/-- The heads of the inputs are freed: a child is owed a credit for its slot (R191). -/
def freeSlot (c : Comm) (i : Nat) : Comm :=
  { c with inputs := c.inputs.modify i fun l => l.drop 1,
           children := if i < c.nlocal then c.children else c.children.modify (i - c.nlocal) fun q => { q with owed := q.owed + 1 } }

/-- A chunk that goes up or down as a packet. -/
def chunkPkt (s : Sys) (k : Nat) (c : Comm) (feid inc op : Nat) (ch : Chunk) (operand : Nat) : Packet :=
  let p := colPkt s k c feid inc op operand ch.data
  { p with offset := ch.off, msglen := ch.msglen, w56 := ch.cseq + 65536 * ch.hdr }

/-- COL_DONE for an operation. -/
def donePkt (s : Sys) (k : Nat) (c : Comm) (ch : Chunk) : Packet :=
  { colPkt s k c 0 0 0x03 0 [] with w56 := ch.cseq + 65536 * ch.hdr }

/-! ### Results (R193, R198) -/

/-- A member whose part is complete gets its event (R198). -/
def colCheck (s : Sys) (k ctx cseq : Nat) : Sys :=
  match getComm s k with
  | none => s
  | some c =>
    match c.ops.find? fun o => o.ctx == ctx && o.cseq % 65536 == cseq % 65536 with
    | some o => if o.done ∧ o.pend = 0 ∧ o.want ≤ o.wrote then colEnd s k o 0 0 else s
    | none => s

/-- Part of a result is written for a member: the bytes of its block that the chunk holds. -/
def writeFor (s : Sys) (k : Nat) (c : Comm) (m : ColMember) (o : ColOp) (off : Nat) (data : Bytes) : Sys :=
  let es := elemSize o.etype
  let lo := if o.cop = 4 then m.rank * o.count * es else 0
  let hi := lo + writeElems c o m.rank * es
  let a := max lo off
  let b := min hi (off + data.length)
  if b ≤ a then s
  else startAcc (modColOp s k m.ctx o.cseq fun o => { o with pend := o.pend + 1 }) m.ctx .lwrite ((o.raddr + (a - lo)) % 2 ^ 64) (b - a)
    (sub data (a - off) (b - a)) 0 (.colWrite k m.ctx o.cseq) none

/-- A member has not issued the operation of a packet from the parent yet. -/
def colLate (c : Comm) (p : Packet) : Bool := c.members.any fun m => cseqBehind (p.w56 % 65536) (m.nextCseq % 65536)

/-- A result chunk, or COL_DONE, reaches one local member (R193, R198, R202). -/
def downFor (s : Sys) (k : Nat) (p : Packet) (m : ColMember) : Sys :=
  match getComm s k with
  | none => s
  | some c =>
    match c.ops.find? fun o => o.ctx == m.ctx && o.cseq % 65536 == p.w56 % 65536 with
    | none => s
    | some o =>
      if p.op = 3 then colCheck (modColOp s k m.ctx o.cseq fun o => { o with done := true }) k m.ctx o.cseq
      else if p.w56.testBit 29 then
        modColOp s k m.ctx o.cseq fun o => { o with recs := o.recs ++ [(p.offset, p.payload)] }
      else writeFor s k c m o p.offset p.payload

/-- A result chunk, or COL_DONE, reaches the local members. One that comes before a member has issued its operation waits for that
    member (log entry 26). -/
def downHere (s : Sys) (k : Nat) (p : Packet) : Sys :=
  match getComm s k with
  | none => s
  | some c =>
    let s := if p.op = 3 then modComm s k fun c => { c with passed := c.passed.filter fun x => x.cseq != p.w56 % 65536 } else s
    c.members.foldl (fun s m => downFor s k p m) (if colLate c p then modComm s k fun c => { c with early := c.early ++ [p] } else s)

/-- A result write has been sent, or could not be. -/
def wroteCol (s : Sys) (k ctx cseq : Nat) (n : Nat) (e : AccEnd) : Sys :=
  match e with
  | .ok _ => colCheck (modColOp s k ctx cseq fun o => { o with pend := o.pend - 1, wrote := o.wrote + n }) k ctx cseq
  | _ =>
    match (getComm s k).bind fun c => c.members.find? fun m => m.ctx == ctx with
    | some m => failComm s k 5 m.feid none
    | none => s

/-- At the root, a combined or forwarded chunk as it goes down: in the element format, at its place there (R199, R200, R202). -/
def downChunk (o : Option ColOp) (ch : Chunk) : Chunk :=
  let et := hdrEtype ch.hdr
  if ch.expo ∨ combines (hdrCop ch.hdr) = false then ch
  else
    let w := upSize et (hdrGrid ch.hdr)
    let es := elemSize et
    let first := ch.off / w
    let xs := elems w ch.data
    let ys := match etypeFmt et, hdrGrid ch.hdr, o with
      | some f, true, some o => xs.mapIdx fun j v => fromGrid et f (recOf o (first + j)) ((first + j) % 16) (signed (8 * w) v)
      | _, _, _ => xs.map (fromUp et)
    { ch with off := first * es, data := ys.flatMap (le es), msglen := ch.msglen / w * es }

/-- The incarnation of a member device as learnt at creation (R204); where creation has taught none, the manual says nothing of the
    TINC, and it is a free value (log entry 31). -/
def incOf (s : Sys) (c : Comm) (feid : Nat) : Sys × Nat :=
  match ((neighbours c).find? fun q => q.feid == feid).map (·.inc), (c.joins.find? fun j => j.1 == feid).map (·.2) with
  | some i, _ => (s, i)
  | none, some i => (s, i)
  | none, none => (draw s, (Config.word s.free).toNat % 4096)

/-- At the root: a chunk of the result goes down, and COL_DONE after the last (R193, Table 8.4). -/
def rootSend (s : Sys) (k : Nat) (ch : Chunk) : Sys :=
  match getComm s k with
  | none => s
  | some c =>
    let cop := hdrCop ch.hdr
    let o := c.ops.find? fun o => o.cseq % 65536 == ch.cseq
    let d := downChunk o ch
    let s := if cop = 0 ∨ ch.msglen = 0 then s
      else if cop = 2 ∧ ch.expo = false then
        (let dst := (devOfFeid s (c.list.getD ch.root 0)).getD 0
         if dst = ownDev s then downHere s k (chunkPkt s k c 0 0 0x02 d d.data.length)
         else
           let f := (anchorOf s c.list dst).getD 0
           let (s, inc) := incOf s c f
           toPeer s k f (chunkPkt s k c f inc 0x02 d d.data.length))
      else downHere (sendDown s k (chunkPkt s k c 0 0 0x02 d d.data.length) true) k (chunkPkt s k c 0 0 0x02 d d.data.length)
    let got := (((c.agot.find? fun e => e.1 == ch.cseq).map (·.2)).getD 0) + ch.data.length
    let s := if cop = 5 then modComm s k fun c => { c with agot := (c.agot.filter fun e => e.1 != ch.cseq) ++ [(ch.cseq, got)] } else s
    let last := if ch.expo then false else if cop = 5 then decide (ch.msglen ≤ got) else decide (ch.msglen ≤ ch.off + ch.data.length)
    if last then
      let s := modComm s k fun c => { c with agot := c.agot.filter fun e => e.1 != ch.cseq }
      downHere (sendDown s k (donePkt s k c ch) true) k (donePkt s k c ch)
    else s

/-- CHUNK_COMBINE (R191, R192, R207): the inputs' head chunks are combined once every input holds the next one, or a forwarded chunk
    moves on; upwards under a credit of the parent, or at the root down. -/
def combine (s : Sys) (k : Nat) : Sys :=
  match getComm s k with
  | none => s
  | some c =>
    let heads := c.inputs.mapIdx fun i l => (i, l.head?)
    let have_ := heads.filterMap fun e => e.2.map fun ch => (e.1, ch)
    let clash := have_.any fun a => have_.any (fun b => disagree a.2 b.2) || c.passed.any fun b => disagree a.2 b
    if c.st ≠ .ready then s
    else if clash then failComm s k 4 (ownAnchor s c) none
    else
      let send := fun (s : Sys) (ch : Chunk) =>
        match c.parent with
        | none => rootSend s k ch
        | some q =>
          let s := modComm s k fun c => { c with credits := c.credits - 1 }
          toPeer s k q.feid { chunkPkt s k c q.feid q.inc 0x01 ch (ch.data.length + 2 ^ 32 * ch.root) with sctx := c.pinput }
      if c.parent.isSome ∧ c.credits = 0 then s
      else match have_.find? fun e => !chunkJoins e.2 with
      | some (i, ch) => send (modComm s k fun c => remember (freeSlot c i) ch) ch
      | none =>
        match have_ with
        | [] => s
        | (_, h) :: _ =>
          if have_.length < c.inputs.length ∨ have_.any (fun e => e.2.cseq != h.cseq || e.2.expo != h.expo || e.2.off != h.off) = true then s
          else
            let s := count s 84 0x02 have_.length
            let s := have_.foldl (fun s e => modComm s k fun c => freeSlot c e.1) s
            send s { h with data := foldChunks (have_.map (·.2)) }

/-! ### Starting an operation (R195 to R197) -/

/-- Reserved fields of a COL_START and codes that it may hold (R196); BARRIER, BCAST and ALLGATHER ignore ROP (R195). -/
def colCodesOk (d : Desc) : Bool :=
  let cop := d.w40 % 8
  let rop := bits d.w40 8 4
  let et := bits d.w40 12 4
  let mode := bits d.w40 16 2
  decide (cop ≤ 5) && decide (et ≤ 9) && decide (mode ≤ 2) && bits d.flags 2 3 == 0 &&
    (cop == 0 || cop == 1 || cop == 5 || (decide (rop ≤ 5) && !(decide (3 ≤ rop) && decide (4 ≤ et))))

/-- The communicator of a context under an MGID, with its member. -/
def memberOf (s : Sys) (k ctx : Nat) : Option (Comm × ColMember) :=
  (getComm s k).bind fun c => (c.members.find? fun m => m.ctx == ctx).map fun m => (c, m)

/-- A further operation of a member would be the 17th of the communicator at this device (R197). -/
def colFull (c : Comm) (m : ColMember) : Bool :=
  !(outstanding c).contains m.nextCseq && decide (16 ≤ (outstanding c).length)

/-- The host port of a context has an FEID of its own (R452). -/
def hasFeid (s : Sys) (ctx : Nat) : Bool :=
  match getCtx s ctx with
  | some x => (getHp s x.hp).ownFeid.isSome
  | none => false

/-- COL_START (R195 to R197, R452): `none` says that 16 operations of the communicator are outstanding. The event of a refused one shows
    CSEQ 0, since it has taken none, and ORIGIN 0, or the communicator's origin in FAILED (DESIGN CHOICE, log entry 151). -/
def colStart (s : Sys) (ctx seq : Nat) (d : Desc) : Option Sys :=
  let refuse := fun st origin => some (endDesc s ctx seq (d.flags.testBit 0)
    { Ev.zero ctx with type := 0x20, status := st, cookie := d.cookie, w16 := 2 ^ 32 * origin })
  match memberOf s d.dctx ctx with
  | none => refuse 4 0
  | some (c, m) =>
    let k := d.dctx
    let o : ColOp :=
      { ctx, seq, event := d.flags.testBit 0, cookie := d.cookie, cseq := m.nextCseq, saddr := d.w16, raddr := d.w24, count := d.w36,
        cop := d.w40 % 8, rop := bits d.w40 8 4, etype := bits d.w40 12 4, mode := bits d.w40 16 2, root := bits d.w40 32 32,
        readX := 0, read := 0, empty := false, done := false, pend := 0, wrote := 0, want := 0, recs := [] }
    let o := { o with want := writeElems c o m.rank * elemSize o.etype }
    let big := decide (2 ^ 32 ≤ readElems c o m.rank * elemSize o.etype) || decide (2 ^ 32 ≤ o.want) || decide (2 ^ 32 ≤ upLen c o m.rank) ||
      decide (2 ^ 32 ≤ expoLen c o m.rank) || decide (2 ^ 32 ≤ downElems c o.cop o.count * elemSize o.etype)
    if colCodesOk d = false ∨ c.st = .joining ∨ ((o.cop = 1 ∨ o.cop = 2) ∧ c.n ≤ o.root) ∨ big = true then refuse 4 0
    else if c.st = .failed then refuse 2 c.origin
    else if hasFeid s ctx = false then refuse 8 0
    else if colFull c m then none
    else
      let s := modColMember (modComm s k fun c => { c with ops := c.ops ++ [o] }) k ctx fun x => { x with nextCseq := (x.nextCseq + 1) % 2 ^ 32 }
      let s := modComm s k fun c => { c with early := c.early.filter fun p => colLate c p }
      some ((c.early.filter fun p => p.w56 % 65536 == o.cseq % 65536).foldl (fun s p => downFor s k p m) s)

end Sys2Proof.Machine
end

