-- ==== Sys2Proof/Machine/Transport.lean ====
section
/-!
DEFINITION. The transport engine as a source (R88 to R92, R134 to R143, R150 to R156): peers, operations and their segments, the
packets it builds and queues for injection, and retirement.
-/
namespace Sys2Proof.Machine

/-! ### Accesses given up while their reads stay out (R65) -/

/-- Accesses are given up; their outstanding reads keep their tags and their data is discarded on arrival. The stall reason of one that was
    being retried clears with it (R99, R121). -/
def forgetAccs (s : Sys) (which : Acc → Bool) : Sys :=
  let mine := s.xl.accs.filter which
  let gone := mine.map fun a => a.id
  let s := { s with
    hps := s.hps.map fun h =>
      { h with rdWait := h.rdWait.filter fun e => !gone.contains e.acc,
               reads := h.reads.map fun e => if gone.contains e.acc then { e with orphan := true } else e },
    xl := { s.xl with accs := s.xl.accs.filter fun a => !which a, fin := s.xl.fin.filter fun e => !which e.1 } }
  (mine.filter fun a => a.retry.isSome && !a.held).foldl clearReason s

/-! ### Sequence numbers, peers, operations -/

/-- The signed difference of two OSNs (R145). -/
def osnDiff (a b : Nat) : Int :=
  let d : Nat := (a + 2 ^ 32 - b % 2 ^ 32) % 2 ^ 32
  if d < 2 ^ 31 then d else (d : Int) - 2 ^ 32

/-- Peer state of a device never spoken to (R142). -/
def Peer.new : Peer :=
  { valid := false, tinc := 0, nextOsn := 1, lastSend := 0, retires := [], sync := none, syncAt := none, syncRetry := 0, ended := [] }

/-- The peer state of a device. -/
def getPeer (s : Sys) (dev : Nat) : Peer := (tget s.te.peers dev).getD Peer.new

/-- The peer state of a device changed. -/
def modPeer (s : Sys) (dev : Nat) (g : Peer → Peer) : Sys :=
  { s with te := { s.te with peers := tset s.te.peers dev (g (getPeer s dev)) } }

/-- An operation in progress. -/
def getOp (s : Sys) (id : Nat) : Option Op := s.te.ops.find? fun o => o.id == id

/-- An operation changed. -/
def modOp (s : Sys) (id : Nat) (g : Op → Op) : Sys :=
  { s with te := { s.te with ops := s.te.ops.map fun o => if o.id == id then g o else o } }

/-- A segment by tracking entry. -/
def getSeg (s : Sys) (idx : Nat) : Option Seg := s.te.segs.find? fun g => g.idx == idx

/-- A segment changed. -/
def modSeg (s : Sys) (idx : Nat) (f : Seg → Seg) : Sys :=
  { s with te := { s.te with segs := s.te.segs.map fun g => if g.idx == idx then f g else g } }

/-- The device an operation goes to. -/
def opDev (o : Op) : Nat := o.dcoord / 4

/-- A GET takes no OSN (R136). -/
def usesOsn (opc : Nat) : Bool := opc != 3

/-- The OSNs of an operation's block that have not been issued. -/
def unissued (o : Op) : List Nat :=
  if usesOsn o.opc && o.segNext != 0 then (List.range (o.nseg - o.segNext)).map fun i => (o.firstOsn + o.segNext + i) % 2 ^ 32 else []

/-- LUO: the low 16 bits of the lowest OSN of the stream that is not completed (Table 6.1). -/
def luoOf (s : Sys) (dev : Nat) : Nat :=
  let p := getPeer s dev
  let all := (s.te.segs.filter fun g => g.dev == dev && g.kind == .osn).map (·.osn) ++ p.retires.map (·.osn) ++
    (s.te.ops.filter fun o => opDev o == dev).flatMap unissued
  (all.foldl (fun a q => if osnDiff q a < 0 then q else a) p.nextOsn) % 65536

/-- The TAG of a tracked segment (R136). -/
def tagOf (g : Seg) : Nat := g.idx + g.gen * 131072

/-- The own FEID of a host port (R452). -/
def feidOf (s : Sys) (hp : Nat) : Nat := (getHp s hp).ownFeid.getD 0

/-- The tenant of a context (R96). -/
def tidOf (s : Sys) (c : Nat) : Nat := ((pdOf s c).map (·.tid)).getD 0

/-- The header fields that a segment's packets share: those of its issue (R127). -/
def Seg.stamp (g : Seg) (p : Packet) : Packet := { p with sfeid := g.sfeid, dcoord := g.coord }

/-- A request header from this device (R126, R140). -/
def reqHdr (s : Sys) (hp ctx dfeid dcoord dctx op plen : Nat) (fseg : Bool) : Packet :=
  let dev := dcoord / 4
  { Packet.zero with
    dfeid := dfeid, dcoord := dcoord, rmode := b2n s.rt.millpond, igroup := 0x3FF, sfeid := feidOf s hp, tid := tidOf s ctx, op := op,
    tinc := (getPeer s dev).tinc, dctx := dctx, sctx := ctx, w56 := plen + 8192 * b2n fseg + 65536 * luoOf s dev }

/-! ### The injection buffer and fair queueing (R90, R91, R450) -/

/-- Flits that stand in a port's injection buffer or are being read into it. -/
def injFlits (s : Sys) (hp : Nat) : Nat :=
  let h := getHp s hp
  (h.reqQ.map fun e => e.pkt.len).sum + (h.respQ.map fun e => e.pkt.len).sum + (h.rdy.map fun e => e.2.pkt.len).sum +
    ((s.xl.accs.filter fun a => a.hp == hp && (match a.cont with | .payload _ _ _ => true | _ => false)).map fun a => lenFor a.len).sum

/-- `a` is not after `b` as 48-bit tags (R90). -/
def tagLe (a b : Nat) : Bool := decide ((b + 2 ^ 48 - a % 2 ^ 48) % 2 ^ 48 < 2 ^ 47)

/-- A request packet becomes ready: it gets its finish tag (R90). -/
def ready (s : Sys) (hp : Nat) (e : InjPkt) : Sys :=
  let w := ((getCtx s e.ctx).map (·.weight)).getD 16
  modHp s hp fun h =>
    let h := if h.reqQ.isEmpty then { h with vtime := 0, lastFin := [] } else h
    let last := (tget h.lastFin e.ctx).getD 0
    let start := if tagLe last h.vtime then h.vtime else last
    let fin := (start + e.pkt.len * 65536 / w) % 2 ^ 48
    { h with lastFin := tset h.lastFin e.ctx fin, reqQ := h.reqQ ++ [{ e with finish := fin }] }

/-- The lowest access number of a context's outstanding payload reads. -/
def firstRead (s : Sys) (c : Nat) : Option Nat :=
  (s.xl.accs.filter fun a => a.ctx == c && (match a.cont with | .payload _ _ _ => true | _ => false)).foldl
    (fun m a => match m with | none => some a.id | some i => some (min i a.id)) none

/-- The packets of a context that no earlier read holds back become ready, in order (R90). -/
def release (s : Sys) (hp c : Nat) : Sys :=
  let free := fun (e : Nat × InjPkt) =>
    e.2.ctx == c && (match firstRead s c with | some i => decide (e.1 ≤ i) | none => true)
  let go := ((getHp s hp).rdy.filter free).mergeSort fun a b => decide (a.1 ≤ b.1)
  go.foldl (fun s e => ready s hp e.2) (modHp s hp fun h => { h with rdy := h.rdy.filter fun e => !free e })

/-- A packet has been built for a context: it becomes ready in the context's order. -/
def queueReq (s : Sys) (hp ord : Nat) (e : InjPkt) : Sys :=
  release (modHp s hp fun h => { h with rdy := h.rdy ++ [(ord, e)] }) hp e.ctx

/-- A port's injection buffer has room for `n` flits (R450). -/
def hasRoom (s : Sys) (hp n : Nat) : Bool := decide (injFlits s hp + n ≤ 7936)

/-- A packet that no payload read makes wait is built, or waits until the injection buffer has room (R450). -/
def queueWhole (s : Sys) (hp : Nat) (e : InjPkt) : Sys :=
  let ord := s.xl.nextAcc
  if (getHp s hp).reqWait.isEmpty && hasRoom s hp e.pkt.len then queueReq s hp ord e
  else modHp s hp fun h => { h with reqWait := h.reqWait ++ [(ord, e)] }

/-- A packet of the device itself. -/
def queueOwn (s : Sys) (hp : Nat) (p : Packet) (w : Inj) : Sys := queueWhole s hp { pkt := p, ctx := 65536, finish := 0, what := w }

/-- A response joins those that wait for injection, or waits until the buffer has room (R450). -/
def queueResp (s : Sys) (hp : Nat) (e : InjPkt) : Sys :=
  if (getHp s hp).respWait.isEmpty && hasRoom s hp e.pkt.len then modHp s hp fun h => { h with respQ := h.respQ ++ [e] }
  else modHp s hp fun h => { h with respWait := h.respWait ++ [e] }

/-- Responses that wait are built while there is room, within `n` of them. -/
def fillResp : Nat → Sys → Nat → Sys
  | 0, s, _ => s
  | n + 1, s, hp =>
    match (getHp s hp).respWait with
    | e :: rest =>
      if hasRoom s hp e.pkt.len then fillResp n (modHp s hp fun h => { h with respWait := rest, respQ := h.respQ ++ [e] }) hp else s
    | [] => s

/-- The device's own packets that wait are built while there is room, within `n` of them. -/
def fillReq : Nat → Sys → Nat → Sys
  | 0, s, _ => s
  | n + 1, s, hp =>
    match (getHp s hp).reqWait with
    | (ord, e) :: rest =>
      if hasRoom s hp e.pkt.len then fillReq n (queueReq (modHp s hp fun h => { h with reqWait := rest }) hp ord e) hp else s
    | [] => s

/-! ### Building packets (R136, R137, R140, R159, R173) -/

/-- Packet `i` of a segment waits in the buffer or is being read. -/
def inQueue (s : Sys) (g : Seg) (i : Nat) : Bool :=
  let h := getHp s g.hp
  let hit := fun (e : InjPkt) => e.what == .seg g.idx g.gen && e.pkt.pidx == i && e.pkt.op != 8
  h.reqQ.any hit || (h.rdy.any fun e => hit e.2) ||
    s.xl.accs.any fun a => match a.cont with | .payload _ q j => q == g.idx && j == i | _ => false

/-- The bits of packets still missing. -/
def missing (g : Seg) : Nat := ((List.range (g.pcnt + 1)).map fun i => if g.mask.testBit i then 0 else 2 ^ i).sum

/-- The transport OP of an operation (Tables 6.3, 7.2). -/
def opCode (o : Op) : Nat :=
  if o.opc = 0x10 then 0x10 + b2n o.immV + 2 * b2n o.rts else o.opc

/-- Packet `i` of a segment of an operation, with its payload. -/
def opPacket (s : Sys) (o : Op) (g : Seg) (i : Nat) (data : Bytes) : Packet :=
  let last := decide (g.no + 1 = o.nseg)
  let at_ := g.off + 4096 * i
  let p := g.stamp (reqHdr s o.hp o.ctx o.dfeid g.coord o.dctx (opCode o) 0 last)
  let p := { p with osn := g.osn, pidx := i, pcnt := g.pcnt, retx := g.sent.testBit i }
  if isAtomicOp o.opc then
    { p with rkey := o.rkey, offset := o.roff, operand := o.w40, msglen := o.w48 % 2 ^ 32, imm := o.w48 / 2 ^ 32, w56 := p.w56 + o.w56 % 256 }
  else if o.opc = 3 then
    { p with osn := tagOf g, rkey := o.rkey, offset := (o.roff + g.off) % 2 ^ 64, operand := missing g, msglen := g.bytes, pidx := 0,
             retx := g.sent.testBit 0 }
  else if o.opc = 0x10 then
    let p := { p with rkey := o.prev, offset := if o.rts then 0 else at_, operand := o.w40, msglen := o.len,
                      imm := if o.immV ∧ (o.rts ∨ i = g.pcnt) then o.imm else 0, w56 := p.w56 + data.length }
    Packet.withPayload p data
  else
    let p := { p with rkey := o.rkey, offset := (o.roff + at_) % 2 ^ 64, msglen := o.len,
                      imm := if o.opc = 2 ∧ last = true ∧ i = g.pcnt then o.imm else 0, w56 := p.w56 + data.length }
    Packet.withPayload p data

/-- The RDV_GET of a pull segment (Table 7.3). `sctx` is the receiving context, `osn` the RTS's. -/
def pullPacket (s : Sys) (g : Seg) (dctx : Nat) : Packet :=
  let p := g.stamp (reqHdr s g.hp g.ctx g.dfeid g.coord dctx 0x14 0 true)
  { p with osn := tagOf g, rkey := g.osn, offset := g.off, operand := missing g, msglen := g.bytes, pcnt := g.pcnt,
           retx := g.sent.testBit 0 }

/-- A packet of a segment is queued. TRACE is set on its first transmission and kept by every later one (R127, R427). -/
def queueSeg (s : Sys) (g : Seg) (i ord : Nat) (p : Packet) : Sys :=
  let (s, p) := if p.retx then (count s 86 0x05 1, { p with trace := g.traced.testBit i }) else tagNew s p
  let s := modSeg s g.idx fun x =>
    { x with built := x.built ||| 2 ^ i, sent := x.sent ||| 2 ^ i, traced := if p.trace then x.traced ||| 2 ^ i else x.traced }
  queueReq s g.hp ord { pkt := p, ctx := g.ctx, finish := 0, what := .seg g.idx g.gen }

/-- Packets that a segment builds: one for a GET, a pull, an atomic and an RTS. -/
def buildCount (g : Seg) : Nat :=
  match g.kind with
  | .get | .pull _ => 1
  | .osn => g.pcnt + 1

/-- The sending context a pull is addressed to. -/
def pullDctx (s : Sys) (m : Nat) : Nat := ((s.me.msgs.find? fun x => x.id == m).map fun x => x.head.sctx).getD 0

/-- The next packet of a segment is built, if the buffer has room for it. -/
def buildOne (s : Sys) (idx : Nat) : Sys :=
  match getSeg s idx with
  | none => s
  | some g =>
    match (List.range (buildCount g)).find? fun i => !g.built.testBit i && !(g.nacks.any fun e => e.1 == i && e.2.2.isSome) with
    | none => s
    | some i =>
      let n := min 4096 (g.bytes - 4096 * i)
      let plain := match g.kind, getOp s g.op with
        | .osn, some o => isAtomicOp o.opc || o.rts || n == 0
        | _, _ => true
      if hasRoom s g.hp (if plain then 1 else lenFor n) = false ∨ (getHp s g.hp).reqWait ≠ [] ∨ (getHp s g.hp).respWait ≠ [] then s
      else match g.kind with
      | .pull m => queueSeg s g 0 s.xl.nextAcc (pullPacket s g (pullDctx s m))
      | _ =>
        match getOp s g.op with
        | none => s
        | some o =>
          if plain then queueSeg s g i s.xl.nextAcc (opPacket s o g i [])
          else match o.inl with
          | some b => queueSeg s g i s.xl.nextAcc (opPacket s o g i (sub b (g.off + 4096 * i) n))
          | none =>
            let s := modSeg s idx fun x => { x with built := x.built ||| 2 ^ i }
            startAcc s o.ctx .lread ((o.laddr + g.off + 4096 * i) % 2 ^ 64) n [] 0 (.payload o.id idx i) none

/-- Packets of a segment are built while there is room. -/
def buildMore (s : Sys) (idx : Nat) : Sys := (List.range 64).foldl (fun s _ => buildOne s idx) s

/-- Packets of a port are built while there is room: responses, the device's own packets, then those of segments (R450). -/
def buildPort (s : Sys) (hp : Nat) : Sys :=
  let s := fillResp (getHp s hp).respWait.length s hp
  let s := fillReq (getHp s hp).reqWait.length s hp
  (s.te.segs.filter fun g => g.hp == hp).foldl (fun s g => buildMore s g.idx) s

/-- Packets of every port are built while there is room, whatever has made it (R450). -/
def buildAll (s : Sys) : Sys := (List.range 4).foldl buildPort s

/-- The payload of a packet has been read. -/
def payloadRead (s : Sys) (a : Acc) (idx i : Nat) (data : Bytes) : Sys :=
  match getSeg s idx with
  | none => release s a.hp a.ctx
  | some g =>
    match getOp s g.op with
    | none => release s a.hp a.ctx
    | some o => release (queueSeg s g i a.id (opPacket s o g i data)) a.hp a.ctx

/-- A segment's packets are asked for again: those of a mask of missing bits that are not on their way (R151). -/
def resend (s : Sys) (g : Seg) (want : Nat → Bool) : Sys :=
  let again := (List.range (buildCount g)).filter fun i => want i && g.built.testBit i && !inQueue s g i
  buildMore (modSeg s g.idx fun x => { x with built := again.foldl (fun b i => if b.testBit i then b - 2 ^ i else b) x.built }) g.idx

/-! ### SYNC (R142) -/

/-- The SYNC packet for a device, as an operation or a pull from a context asks for it. -/
def syncPacket (s : Sys) (hp ctx dfeid dcoord dctx : Nat) : Packet :=
  { reqHdr s hp ctx dfeid dcoord dctx 0x0A 0 false with
    tinc := 0, osn := (getPeer s (dcoord / 4)).nextOsn, operand := s.start.incarn }

/-- A SYNC is begun unless one is in flight. -/
def startSync (s : Sys) (hp ctx dfeid dcoord dctx : Nat) : Sys :=
  let dev := dcoord / 4
  if (getPeer s dev).sync.isSome then s
  else
    let (s, p) := tagNew s (syncPacket s hp ctx dfeid dcoord dctx)
    queueOwn (modPeer s dev fun x => { x with sync := some (hp, p), syncAt := none, syncRetry := 0 }) hp p (.sync dev)

/-! ### Issue (R140, R141) -/

/-- Segments issued to a device and not completed; one that is being retired is not completed either, an OSN that was never issued is no
    segment of these (R141). -/
def peerLoad (s : Sys) (dev : Nat) : Nat :=
  (s.te.segs.filter fun g => g.dev == dev).length + ((getPeer s dev).retires.filter (·.issued)).length

/-- The lowest free tracking entry of 131,072. -/
def freeEntry (s : Sys) : Option Nat :=
  ((List.range (s.te.segs.length + 1)).find? fun i => !(s.te.segs.any fun g => g.idx == i)).filter fun i => decide (i < 131072)

/-- A tracking entry is taken with its generation advanced (R154). -/
def takeEntry (s : Sys) (idx : Nat) (g : Seg) : Sys :=
  let gen := ((tget s.te.gens idx).getD 0 + 1) % 32768
  { s with te := { s.te with gens := tset s.te.gens idx gen, segs := s.te.segs ++ [{ g with idx := idx, gen := gen }] } }

/-- An earlier operation to the same device has not taken its OSNs (R140). -/
def heldBack (s : Sys) (o : Op) : Bool :=
  usesOsn o.opc && o.segNext == 0 &&
    s.te.ops.any fun x => decide (x.id < o.id) && opDev x == opDev o && usesOsn x.opc && x.segNext == 0 && x.status == 0

/-- Bytes of a word of an atomic (Table 6.5). -/
def wordSize (w56 : Nat) : Nat := let t := bits w56 4 4; if t = 2 ∨ t = 3 ∨ t = 5 then 4 else 8

/-- Bytes of segment `k` of an operation (R140). -/
def segBytes (o : Op) (k : Nat) : Nat :=
  if isAtomicOp o.opc then wordSize o.w56 else if o.rts then o.len else min 262144 (o.len - 262144 * k)

/-- Packets of segment `k` of an operation: one for an atomic and an RTS (R140). -/
def segPkts (o : Op) (k : Nat) : Nat := if isAtomicOp o.opc || o.rts then 1 else max 1 ((segBytes o k + 4095) / 4096)

/-- The next segment of an operation is issued, if the conditions of R141 hold; a peer not VALID is synchronised first. -/
def issueSeg (s : Sys) (id : Nat) : Sys :=
  match getOp s id with
  | none => s
  | some o =>
    let dev := opDev o
    let p := getPeer s dev
    if o.status ≠ 0 ∨ o.nseg ≤ o.segNext then s
    else if p.valid = false then startSync s o.hp o.ctx o.dfeid o.dcoord o.dctx
    else if s.te.peerIssue ≤ peerLoad s dev ∨ heldBack s o = true then s
    else match freeEntry s with
    | none => s
    | some idx =>
      let first := o.segNext == 0 && usesOsn o.opc
      let base := if first then p.nextOsn else o.firstOsn
      let send := first && o.opc == 0x10
      let s := if first then modPeer s dev fun x =>
          { x with nextOsn := (x.nextOsn + o.nseg) % 2 ^ 32, lastSend := if send then base else x.lastSend } else s
      let off := 262144 * o.segNext
      let bytes := segBytes o o.segNext
      let pk := segPkts o o.segNext
      let s := modOp s id fun x => { x with firstOsn := base, segNext := x.segNext + 1, prev := if send then p.lastSend else x.prev }
      let s := takeEntry s idx
        { idx, gen := 0, kind := if o.opc = 3 then .get else .osn, op := id, no := o.segNext, dev, ctx := o.ctx, hp := o.hp,
          dfeid := o.dfeid, osn := (base + o.segNext) % 2 ^ 32, pcnt := pk - 1, off := if isAtomicOp o.opc then 0 else off, bytes,
          built := 0, sent := 0, mask := 0, timed := false, start := 0, retry := 0, nacks := [], writes := 0, sfeid := feidOf s o.hp,
          coord := o.dcoord }
      buildMore s idx

/-! ### Retirement and ends (R143, R155, R156) -/

/-- The RETIRE packet of an OSN (R155, R178). -/
def retirePacket (s : Sys) (dev : Nat) (r : Retire) : Packet :=
  { reqHdr s r.hp 0 r.dfeid (dev * 4 + r.coord % 4) r.dctx 0x09 0 r.fin with
    pcnt := r.pcnt, sctx := r.sctx, sfeid := r.sfeid, tid := r.tid, osn := r.osn, rkey := if r.send then r.prev else 0,
    operand := if r.send then 1 + 256 * r.status else 0, retx := r.at_.isSome, trace := r.traced }

/-- A retire changed. -/
def modRetire (s : Sys) (dev osn : Nat) (g : Retire → Retire) : Sys :=
  modPeer s dev fun p => { p with retires := p.retires.map fun r => if r.osn == osn then g r else r }

/-- The RETIRE of an OSN is queued; its first transmission may be tagged (R427). -/
def sendRetire (s : Sys) (dev : Nat) (r : Retire) : Sys :=
  let (s, p) := if r.at_.isSome then (s, retirePacket s dev r) else tagNew s (retirePacket s dev r)
  queueOwn (modRetire s dev r.osn fun x => { x with traced := p.trace }) r.hp p (.retire dev r.osn)

/-- An OSN joins the retire list; its RETIRE goes out unless it waits for that of the final segment. -/
def addRetire (s : Sys) (dev : Nat) (r : Retire) : Sys :=
  let s := modPeer s dev fun p => { p with retires := p.retires ++ [r] }
  if r.after.isNone then sendRetire s dev r else s

/-- The retire entry of an OSN of an operation that ends with a status; `after` names the OSN whose RETIRE goes first. FSEG and PCNT are those
    of the segment (Table 6.1). -/
def retireOf (s : Sys) (o : Op) (osn status : Nat) (after : Option Nat) (issued : Bool) : Retire :=
  let k := (osn + 2 ^ 32 - o.firstOsn % 2 ^ 32) % 2 ^ 32
  { fin := decide (k + 1 = o.nseg), pcnt := segPkts o k - 1, coord := o.dcoord, osn, send := o.opc == 0x10, prev := o.prev, status, dctx := o.dctx, sctx := o.ctx, sfeid := feidOf s o.hp, dfeid := o.dfeid,
    tid := tidOf s o.ctx, hp := o.hp, after, at_ := none, retry := 0, nackN := 0, due := none, issued }

/-- A RETIRE has been answered: those that waited for it go out (R155). -/
def retireDone (s : Sys) (dev osn : Nat) : Sys :=
  let next := (getPeer s dev).retires.filter fun r => r.after == some osn
  let s := modPeer s dev fun p =>
    { p with retires := (p.retires.filter fun r => r.osn != osn).map fun r => if r.after == some osn then { r with after := none } else r }
  next.foldl (fun s r => sendRetire s dev { r with after := none }) s

/-- A segment's queued packets and host accesses are given up, and its tracking entry is free. -/
def dropSeg (s : Sys) (g : Seg) : Sys :=
  let mine := fun (e : InjPkt) => e.what == .seg g.idx g.gen
  let s := modHp s g.hp fun h => { h with
    reqQ := h.reqQ.filter fun e => !mine e, rdy := h.rdy.filter fun e => !mine e.2, reqWait := h.reqWait.filter fun e => !mine e.2 }
  let s := forgetAccs s fun a => match a.cont with
    | .payload _ q _ => q == g.idx
    | .land p => p.osn == tagOf g && g.kind != .osn
    | _ => false
  release { s with te := { s.te with segs := s.te.segs.filter fun x => x.idx != g.idx } } g.hp g.ctx

/-- The member that the source's event reports: none for a SEND, for which R175 lists PSET_V 0 (log entry 24). -/
def evMember (opc : Nat) (m : Option (Nat × Nat)) : Option Nat := if opc = 0x10 then none else m.map (·.2)

/-- The event of an operation at its source (R134 to R137, R175; the member by Table 9.9, log entry 24). -/
def opEvent (o : Op) : Ev :=
  { Ev.zero o.ctx with
    type := o.opc, status := o.status, cookie := o.cookie,
    len := if o.opc = 0x10 then (if o.status = 0 then o.len else 0) else o.acked % 2 ^ 32,
    w16 := if o.opc = 0x10 then o.w40 else if o.opc = 5 ∨ o.opc = 6 then o.value else o.roff,
    w28 := evW28 false none (evMember o.opc o.member) }

/-- An operation ends once all its segments have (R156). -/
def checkOp (s : Sys) (id : Nat) : Sys :=
  match getOp s id with
  | none => s
  | some o =>
    if (o.nseg ≤ o.segNext ∨ o.status ≠ 0) ∧ s.te.segs.all (fun g => g.op != id || g.kind.isPull) = true ∧ o.writes = 0 then
      endDesc { s with te := { s.te with ops := s.te.ops.filter fun x => x.id != id } } o.ctx o.seq o.event (opEvent o)
    else s

end Sys2Proof.Machine
end

