-- ==== Sys2Proof/Machine/Ends.lean ====
section
/-!
DEFINITION. How segments and operations end at their source: completion, failure with retirement, peer reset, abort (R65, R143, R151,
R155, R156), and what wins injection (R90).
-/
namespace Sys2Proof.Machine

/-- The OSN of an operation's final segment. -/
def finalOsn (o : Op) : Nat := (o.firstOsn + o.nseg - 1) % 2 ^ 32

/-- The final segment is retired before the others for a PUT_IMM or SEND (R155). -/
def finalFirst (o : Op) : Bool := o.opc == 2 || o.opc == 0x10

/-- OSNs of an operation are retired, the final one first where R155 asks for it. -/
def retireAll (s : Sys) (o : Op) (osns : List Nat) (status : Nat) : Sys :=
  let dev := opDev o
  let fin := finalOsn o
  let sent := fun (q : Nat) => !(unissued o).contains q
  let s := if finalFirst o && osns.contains fin then addRetire s dev (retireOf s o fin status none (sent fin)) else s
  let wait := finalFirst o && (getPeer s dev).retires.any fun r => r.osn == fin
  (osns.filter fun q => !(finalFirst o && q == fin)).foldl
    (fun s q => addRetire s dev (retireOf s o q status (if wait then some fin else none) (sent q))) s

/-- A segment of an operation fails with a status (R155, R156): nothing more is issued, what will not complete is retired, and a final
    segment in flight stops. -/
def failSeg (s : Sys) (g : Seg) (status : Nat) : Sys :=
  match getOp s g.op with
  | none => dropSeg s g
  | some o =>
    let st := if o.status = 0 then status else o.status
    let s := modOp (dropSeg s g) o.id fun x => { x with status := st, segNext := x.nseg }
    let fin := if finalFirst o && g.osn != finalOsn o then s.te.segs.find? fun x => x.op == o.id && x.osn == finalOsn o else none
    let s := match fin with | some x => dropSeg s x | none => s
    let osns := if usesOsn o.opc then [g.osn] ++ (fin.map (·.osn)).toList ++ unissued o else []
    let s := if o.rts then modPeer s (opDev o) fun p => { p with ended := p.ended ++ [(g.osn, o.ctx)] } else s
    let s := retireAll s o osns st
    checkOp (buildPort s o.hp) o.id

/-- A segment of an operation completes. -/
def completeSeg (s : Sys) (g : Seg) : Sys :=
  let s := modOp (dropSeg s g) g.op fun o => { o with acked := o.acked + g.bytes }
  checkOp (buildPort s g.hp) g.op

/-- An operation that has issued nothing ends with a status. -/
def endOp (s : Sys) (o : Op) (status : Nat) : Sys :=
  checkOp (modOp s o.id fun x => { x with status := status }) o.id

/-- Operations that wait for the SYNC of a device end with TIMEOUT (R142). -/
def syncFailed (s : Sys) (dev : Nat) : Sys :=
  let s := modPeer s dev fun p => { p with sync := none, syncAt := none }
  (s.te.ops.filter fun o => opDev o == dev && o.segNext == 0).foldl (fun s o => endOp s o 6) s

/-- The peer state of a device is cleared, and every operation with a segment issued to it ends with PEER_RESET (R143). Pull segments
    are resolved by the matching engine. -/
def peerReset (s : Sys) (dev : Nat) : Sys :=
  let hit := s.te.ops.filter fun o => opDev o == dev && o.segNext != 0
  let segs := s.te.segs.filter fun g => g.dev == dev && !g.kind.isPull
  let s := segs.foldl dropSeg s
  let s := { s with hps := s.hps.map fun h =>
    let out := fun (e : InjPkt) => match e.what with | .retire d _ => d == dev | _ => false
    { h with reqQ := h.reqQ.filter fun e => !out e, rdy := h.rdy.filter fun e => !out e.2, reqWait := h.reqWait.filter fun e => !out e.2 } }
  let s := modPeer s dev fun p =>
    { p with valid := false, retires := [], lastSend := 0, sync := none, syncAt := none, syncRetry := 0, ended := [] }
  hit.foldl (fun s o =>
    checkOp (modOp s o.id fun x => { x with segNext := x.nseg, status := if x.status = 0 then 3 else x.status, writes := 0 }) o.id) s

/-- Every operation of a context ends at an abort with ABORTED, its unfinished segments retired (R65, R155). The answer counts them. -/
def abortOps (s : Sys) (c : Nat) : Sys × Nat :=
  let ops := s.te.ops.filter fun o => o.ctx == c
  (ops.foldl (fun s o =>
    let segs := s.te.segs.filter fun g => g.op == o.id && !g.kind.isPull
    let left := if usesOsn o.opc then segs.map (·.osn) ++ unissued o else []
    let s := segs.foldl dropSeg s
    let s := if o.rts then modPeer s (opDev o) fun p => { p with ended := p.ended ++ left.map fun q => (q, c) } else s
    let s := retireAll s o left 2
    checkOp (modOp s o.id fun x => { x with status := if x.status = 0 then 2 else x.status, segNext := x.nseg, writes := 0 }) o.id) s,
   ops.length)

/-! ### Responses at the source: shared parts (R150 to R152) -/

/-- The values that a timer takes as it starts (R153): RTO and RETRY_LIMIT. -/
def timerNow (s : Sys) : Nat × Nat := (s.te.rto, s.te.retryLimit)

/-- An arrival not shown before, or a hold: the retry count and the timer start anew (R151, R172). -/
def refreshSeg (s : Sys) (idx : Nat) : Sys := modSeg s idx fun g => { g with retry := 0, start := frame s, tv := timerNow s }

/-- A segment's refused packet waits, or the limit is passed: `true` says that it has (R152). -/
def nackSeg (s : Sys) (g : Seg) (i after : Nat) : Sys × Bool :=
  let n := ((g.nacks.find? fun e => e.1 == i).map (·.2.1)).getD 0 + 1
  if s.te.nackLimit < n then (s, true)
  else
    (modSeg s g.idx fun x =>
      { x with nacks := (x.nacks.filter fun e => e.1 != i) ++ [(i, n, some (frame s + after * 2 ^ min (n - 1) 4))],
               built := if x.built.testBit i then x.built - 2 ^ i else x.built }, false)

/-- The wait of R150 before retry `k + 1`, in frames, of a timer that started with these values. -/
def waitOf (tv : Nat × Nat) (k : Nat) : Nat := tv.1 * 2 ^ min k 3

/-- The PROBE of a segment (R150). -/
def probePacket (s : Sys) (o : Op) (g : Seg) : Packet :=
  { g.stamp (reqHdr s o.hp o.ctx o.dfeid g.coord o.dctx 0x08 0 (decide (g.no + 1 = o.nseg))) with osn := g.osn, pcnt := g.pcnt }

/-- A segment's timer has expired with retries left: a PROBE, or the GET_REQ or RDV_GET again (R150). -/
def retrySeg (s : Sys) (g : Seg) : Sys :=
  let s := modSeg s g.idx fun x => { x with retry := x.retry + 1, timed := false }
  match g.kind with
  | .osn =>
    match getOp s g.op with
    | some o =>
      let (s, p) := tagNew (count s 86 0x06 1) (probePacket s o g)
      queueWhole s g.hp { pkt := p, ctx := g.ctx, finish := 0, what := .seg g.idx g.gen }
    | none => s
  | _ => resend s g fun _ => true

/-- The coordinate of a response's sender, as a device (Table 6.6, check 2). -/
def senderDev (s : Sys) (p : Packet) : Option Nat := (epCoord s.rt.act p.sfeid).map (· / 4)

/-- A segment that an OSN of a device names. -/
def osnSeg (s : Sys) (dev osn : Nat) : Option Seg := s.te.segs.find? fun g => g.kind == .osn && g.dev == dev && g.osn == osn

/-- A segment that a TAG names. -/
def tagSeg (s : Sys) (dev tag : Nat) : Option Seg := s.te.segs.find? fun g => g.kind != .osn && g.dev == dev && tagOf g == tag

/-! ### Injection (R90, R91, R150, R260) -/

/-- A shaper holds enough for a packet. -/
def Shaper.fits (h : Shaper) (cost : Nat) : Bool := h.rate == 0 || decide (cost ≤ h.tokens)

/-- A packet's bytes are taken from a shaper. -/
def Shaper.take (h : Shaper) (cost : Nat) : Shaper := if h.rate = 0 then h else { h with tokens := h.tokens - cost }

/-- A queued request is eligible: it is the first of its context, and the shapers hold its length (R90, R91). -/
def eligible (s : Sys) (e : InjPkt) : Bool :=
  match getCtx s e.ctx with
  | none => true
  | some x => x.shaper.fits (e.pkt.len * 64) && (getFn s x.hp x.fn).shaper.fits (e.pkt.len * 64)

/-- The heads of a port's contexts that are eligible. -/
def heads (s : Sys) (q : List InjPkt) : List InjPkt :=
  (q.foldl (fun a e => if a.any (fun b => b.ctx == e.ctx) then a else a ++ [e]) []).filter (eligible s)

/-- The head of smallest finish tag; on a tie the lowest CTXID. -/
def bestHead (l : List InjPkt) : Option InjPkt :=
  l.foldl (fun a e =>
    match a with
    | none => some e
    | some b =>
      if e.finish = b.finish then (if e.ctx < b.ctx then some e else some b) else if tagLe e.finish b.finish then some e else some b) none

/-- A packet wins injection into the crossbar: AGE and the mode in force are written (R127, R262), its segment's timer runs (R150). -/
def inject (s : Sys) (hp : Nat) (e : InjPkt) : Sys :=
  let p := { e.pkt with age := frame s % 256, rmode := b2n s.rt.millpond, vc := firstVc e.pkt.cls }
  let s := enqueue (trace s p 1 (64 + hp) 0) (64 + hp) p
  let s := match getCtx s e.ctx with
    | some x => fnCount (if p.op < 0x80 then fnCount s x.hp x.fn 1 1 else s) x.hp x.fn 2 p.len
    | none => s
  let s := match e.what with
    | .seg i gen => modSeg s i fun g => if g.gen = gen then { g with timed := true, start := frame s, tv := timerNow s } else g
    | .retire dev osn => modRetire s dev osn fun r => { r with at_ := some (frame s), due := none, tv := timerNow s }
    | .sync dev => modPeer s dev fun x => { x with syncAt := if x.sync.isSome then some (frame s) else none, tv := timerNow s }
    | .free => s
  buildPort s hp

/-- PACKET_INJECT (R90): responses first, then the request that fair queueing chooses. Nothing is injected while the routing mode
    changes (R260). The caller settles what has ended. -/
def injectNext (s : Sys) (hp : Nat) : Sys :=
  let h := getHp s hp
  if s.rt.transfer.isSome then s
  else match h.respQ with
  | e :: rest => inject (modHp s hp fun h => { h with respQ := rest }) hp e
  | [] =>
    match bestHead (heads s h.reqQ) with
    | none => s
    | some e =>
      let s := modHp s hp fun h => { h with reqQ := h.reqQ.erase e, vtime := e.finish }
      let s := match getCtx s e.ctx with
        | none => s
        | some x =>
          let s := modCtx s e.ctx fun y => { y with shaper := y.shaper.take (e.pkt.len * 64) }
          modFn s x.hp x.fn fun g => { g with shaper := g.shaper.take (e.pkt.len * 64) }
      inject s hp e

end Sys2Proof.Machine
end

