-- ==== Sys2Proof/Machine/Place.lean ====
section
/-!
DEFINITION. Placement sets as operations use them (R218 to R226): who is eligible, and the choice of a member.
-/
namespace Sys2Proof.Machine

/-- A placement set. -/
def getSet (s : Sys) (k : Nat) : Option Pset := tget s.pe.sets k

/-- A placement set changed. -/
def modSet (s : Sys) (k : Nat) (g : Pset → Pset) : Sys :=
  match tget s.pe.sets k with
  | some p => { s with pe := { s.pe with sets := tset s.pe.sets k (g p) } }
  | none => s

/-- A member of a set changed. -/
def modMember (s : Sys) (k i : Nat) (g : PMember → PMember) : Sys :=
  modSet s k fun p => { p with members := tmap p.members fun j m => if j = i then g m else m }

/-- A context is ACTIVE. -/
def ctxActive (s : Sys) (c : Nat) : Bool := match getCtx s c with | some x => x.st == .active | none => false

/-- A member is eligible at this moment: in the last tick's mask and not fallen out since (R222). -/
def memberNow (s : Sys) (p : Pset) (i : Nat) (m : PMember) : Bool :=
  p.elig.testBit i &&
    (match p.kind with
     | 0 => true
     | 1 => m.armed && !m.rearmed && ctxActive s m.ctx
     | _ => ctxActive s m.ctx && (match getCtx s m.ctx with | some x => !eqFull x && x.waitEv.isEmpty | none => false))

/-- The share of a member under the set's mode (R224, R225). -/
def shareOf (p : Pset) (i : Nat) (m : PMember) : Nat :=
  match p.mode with
  | 0 => m.share
  | 1 => if i = p.fixed then 1 else 0
  | _ => 1

/-- The pick among candidates with their counters: the largest, and on a tie the lowest index (R224). -/
def pickCur (l : List (Nat × Int)) : Option Nat :=
  (l.foldl (fun a e =>
    match a with
    | none => some e
    | some b => if b.2 < e.2 then some e else some b) (none : Option (Nat × Int))).map (·.1)

/-- choose of R224 for a set: the member picked, with the round-robin counters moved and the choice counted (R232). -/
def choose (s : Sys) (k : Nat) : Sys × Option (Nat × PMember) :=
  match getSet s k with
  | none => (s, none)
  | some p =>
    let c := p.members.filter fun e => decide (0 < shareOf p e.1 e.2) && memberNow s p e.1 e.2
    let total := (c.map fun e => shareOf p e.1 e.2).sum
    let cur := c.map fun e => (e.1, e.2.cur + (shareOf p e.1 e.2 : Int))
    match pickCur cur with
    | none => (count s 87 0x05 1, none)
    | some i =>
      let s := modSet s k fun p => { p with members := tmap p.members fun j m =>
        match (cur.find? fun e => e.1 == j) with
        | some (_, v) => { m with cur := if j = i then v - total else v, chosen := if j = i then (m.chosen + 1) % 2 ^ 32 else m.chosen }
        | none => m }
      (count s 87 0x04 1, (tget p.members i).map fun m => (i, m))

end Sys2Proof.Machine
end

