-- ==== Sys2Proof/Machine/Target.lean ====
section
/-!
DEFINITION. The transport engine as a target (R133, R135 to R138, R144 to R149): responses, the checks of Tables 6.6 and 5.5, assembly
entries, placement, atomics, completion.
-/
namespace Sys2Proof.Machine

/-! ### Responses (R133) -/

/-- A response to a request, with every field that R133 takes from it. -/
def respPkt (s : Sys) (p : Packet) (op : Nat) : Packet :=
  { Packet.zero with
    dfeid := p.sfeid, dcoord := (epCoord s.rt.act p.sfeid).getD 0, rmode := b2n s.rt.millpond, igroup := 0x3FF, sfeid := p.dfeid,
    tid := p.tid, osn := p.osn, op := op, pcnt := p.pcnt, tinc := s.start.incarn, dctx := p.sctx, sctx := p.dctx,
    trace := p.trace, w56 := 8192 * b2n p.fseg }

/-- A response joins those that wait for injection, or waits for room in the buffer (R450); without an endpoint entry for its destination
    it is dropped (R133). -/
def sendResp (s : Sys) (hp : Nat) (p : Packet) : Sys :=
  if (epCoord s.rt.act p.dfeid).isNone then trace (count s 86 0x01 1) p 8 (64 + hp) 0x01
  else
    let (s, p) := if p.trace then (s, p) else tagNew s p
    queueResp s hp { pkt := p, ctx := p.sctx, finish := 0, what := .free }

/-- The host port that a delivered packet came to (R238). -/
def portOf (p : Packet) : Nat := p.dcoord % 4

/-- ACK of a request with a value (R133). -/
def ack (s : Sys) (p : Packet) (value : Nat) : Sys := sendResp s (portOf p) { respPkt s p 0x81 with operand := value }

/-- SACK with an arrival mask. -/
def sack (s : Sys) (p : Packet) (mask : Nat) : Sys := sendResp s (portOf p) { respPkt s p 0x83 with operand := mask }

/-- NACK of a packet (Table 6.4). Codes: 1 WINDOW, 2 RETRY, 3 FATAL. -/
def nack (s : Sys) (p : Packet) (code status after : Nat) : Sys :=
  let s := if code = 1 then count s 86 0x03 1 else if code = 2 then count s 86 0x04 1 else s
  sendResp s (portOf p) { respPkt s p 0x82 with
    pidx := p.pidx, operand := code + 2 ^ 8 * status + 2 ^ 16 * after + 2 ^ 32 * (p.tinc % 4096) + 2 ^ 48 * p.op }

/-- A fatal NACK with a status of Table 4.11. -/
def fatal (s : Sys) (p : Packet) (status : Nat) : Sys := nack s p 3 status 0

/-- A NACK RETRY. -/
def retryLater (s : Sys) (p : Packet) (after : Nat) : Sys := nack s p 2 0 after

/-! ### Source state (R142, R145, R149) -/

/-- State held for a source device. -/
def getSrcDev (s : Sys) (dev : Nat) : Option Src := tget s.te.srcs dev

/-- An OSN is done (R145). -/
def osnDone (r : Src) (osn : Nat) : Bool := decide (osnDiff osn r.hc ≤ 0) || r.win.contains osn

/-- HC moves over the OSNs of the window that are done. -/
def hcMove : Nat → Nat → List Nat → Nat × List Nat
  | 0, hc, w => (hc, w)
  | n + 1, hc, w =>
    let q := (hc + 1) % 2 ^ 32
    if w.contains q then hcMove n q (w.filter fun x => x != q) else (hc, w)

/-- mark_done of R145. -/
def markDone (s : Sys) (dev osn : Nat) : Sys :=
  match tget s.te.srcs dev with
  | none => s
  | some r =>
    if osnDone r osn then s
    else
      let (hc, w) := hcMove 1025 r.hc (r.win ++ [osn])
      { s with te := { s.te with srcs := tset s.te.srcs dev { r with hc := hc, win := w } } }

/-- The value held for a fetching atomic (R149). -/
def resultOf (s : Sys) (dev osn : Nat) : Option Nat :=
  (s.te.results.find? fun r => r.src == dev && r.osn == osn).map (·.value)

/-- LUO releases result entries: taken as the OSN nearest to HC with those low 16 bits (R149). -/
def luoRelease (s : Sys) (dev luo : Nat) : Sys :=
  match tget s.te.srcs dev with
  | none => s
  | some r =>
    let d := (luo + 65536 - r.hc % 65536) % 65536
    let luoOsn := (r.hc + 2 ^ 32 + d - (if d < 32768 then 0 else 65536)) % 2 ^ 32
    { s with te := { s.te with results := s.te.results.filter fun e => !(e.src == dev && decide (osnDiff e.osn luoOsn < 0)) } }

/-- An assembly entry. -/
def getAsm (s : Sys) (dev osn : Nat) : Option Asm := s.te.asms.find? fun a => a.src == dev && a.osn == osn

/-- An assembly entry changed. -/
def modAsm (s : Sys) (dev osn : Nat) (g : Asm → Asm) : Sys :=
  { s with te := { s.te with asms := s.te.asms.map fun a => if a.src == dev && a.osn == osn then g a else a } }

/-- An assembly entry freed. -/
def dropAsm (s : Sys) (dev osn : Nat) : Sys :=
  { s with te := { s.te with asms := s.te.asms.filter fun a => !(a.src == dev && a.osn == osn) } }

/-- Every packet of the segment has arrived. -/
def Asm.full (a : Asm) : Bool := (List.range (a.head.pcnt + 1)).all fun i => a.mask.testBit i

/-- Every packet of the segment has arrived or is being written, or its end waits: the entry is not freed for age (R146). -/
def Asm.waits (a : Asm) : Bool := a.due || (List.range (a.head.pcnt + 1)).all fun j => a.mask.testBit j || a.placed.testBit j

/-- Every packet of the segment but perhaps `i` has arrived or is being written. -/
def Asm.wouldFill (a : Asm) (i : Nat) : Bool :=
  (List.range (a.head.pcnt + 1)).all fun j => j == i || a.mask.testBit j || a.placed.testBit j

/-- A packet opens or joins its assembly entry: its bit is set as being written. -/
def asmTake (s : Sys) (dev : Nat) (p : Packet) : Sys :=
  match getAsm s dev p.osn with
  | some _ => modAsm s dev p.osn fun a => { a with placed := a.placed ||| 2 ^ p.pidx, last := frame s }
  | none => { s with te := { s.te with asms := s.te.asms ++
      [{ src := dev, osn := p.osn, head := p, mask := 0, placed := 2 ^ p.pidx, last := frame s, imm := 0, value := 0, due := false }] } }

/-- A packet of an assembly entry has been written or held. -/
def asmMark (s : Sys) (dev : Nat) (p : Packet) : Sys :=
  modAsm s dev p.osn fun a =>
    { a with mask := a.mask ||| 2 ^ p.pidx, placed := if a.placed.testBit p.pidx then a.placed - 2 ^ p.pidx else a.placed,
             imm := if p.pidx = a.head.pcnt then p.imm else a.imm }

/-- A packet of an assembly entry was refused after all; an entry that holds nothing is freed. -/
def asmUnmark (s : Sys) (dev : Nat) (p : Packet) : Sys :=
  let s := modAsm s dev p.osn fun a => { a with placed := if a.placed.testBit p.pidx then a.placed - 2 ^ p.pidx else a.placed }
  match getAsm s dev p.osn with
  | some a => if a.mask = 0 ∧ a.placed = 0 then dropAsm s dev p.osn else s
  | none => s

/-- A packet that carries a segment's data or its atomic has come: the 200 frames of its entry begin again (R146). -/
def asmTouch (s : Sys) (dev : Nat) (p : Packet) : Sys := modAsm s dev p.osn fun a => { a with last := frame s }

/-- A packet is already there or on its way (R146). -/
def asmHas (s : Sys) (dev : Nat) (p : Packet) : Bool :=
  match getAsm s dev p.osn with | some a => a.mask.testBit p.pidx || a.placed.testBit p.pidx | none => false

/-- No assembly entry is free for a packet that needs one (check 9). -/
def asmFull (s : Sys) (dev osn : Nat) : Bool := (getAsm s dev osn).isNone && decide (65536 ≤ s.te.asms.length)

/-! ### Checks (Tables 6.6 and 5.5) -/

/-- Check 1: length and CRC (R130, R131). -/
def lenCheck (p : Packet) : Bool :=
  if isAtomicOp p.op then bits p.w56 8 5 == 0 && p.len == 1
  else decide (p.plen ≤ 4096) && p.len == lenFor p.plen && p.payload.length == p.plen && p.payOk

/-- A request OP that is assigned (Tables 6.3, 7.2). -/
def opAssigned (op : Nat) : Bool :=
  (decide (1 ≤ op) && decide (op ≤ 6)) || (decide (8 ≤ op) && decide (op ≤ 10)) || (decide (0x10 ≤ op) && decide (op ≤ 0x14))

/-- Checks 1 to 5 of Table 6.6; SYNC stops after check 3. The answer is the source device if they pass. -/
def checks5 (s : Sys) (p : Packet) : Sys × Option Nat :=
  if lenCheck p = false then (count s 86 0x01 1, none)
  else match senderDev s p with
  | none => (count s 86 0x01 1, none)
  | some dev =>
    if opAssigned p.op = false ∨ (isAtomicOp p.op ∧ atomicOk p.op (p.w56 % 16) (bits p.w56 4 4) p.offset = false) then (fatal s p 4, none)
    else if p.op = 0x0A then (s, some dev)
    else if p.tinc ≠ s.start.incarn ∨ (getSrcDev s dev).isNone then (fatal s p 3, none)
    else (luoRelease s dev p.luo, some dev)

/-- Check 6: the duplicate window (R145). `false` says that the packet has been answered.
    DEDUCED (log entry 128): OSNs are compared whole, as R145's text has it, so that one beyond HC + 1,024 is refused with NACK WINDOW even
    where the pseudocode's bit of the same index modulo 1,024 is set by another OSN; unsafe where the hardware tests that bit first. -/
def checkDup (s : Sys) (dev : Nat) (p : Packet) : Sys × Bool :=
  match getSrcDev s dev with
  | none => (s, false)
  | some r =>
    if osnDone r p.osn then
      let s := count s 86 0x02 1
      if (p.op = 5 ∨ p.op = 6) ∧ resultOf s dev p.osn = none then (fatal s p 6, false)
      else (ack s p ((resultOf s dev p.osn).getD 0), false)
    else if 1024 < osnDiff p.osn r.hc then (nack s p 1 0 8, false)
    else (s, true)

/-- Check 7 without its last row: the state of the destination context. -/
def checkCtx (s : Sys) (p : Packet) : Sys × Bool :=
  match getCtx s p.dctx with
  | none => (fatal s p 4, false)
  | some x =>
    if x.st = .created ∨ x.hp ≠ portOf p then (fatal s p 4, false)
    else if x.st = .active ∨ x.st = .stalled then (s, true)
    else (fatal s p 2, false)

/-- The context cannot take a notification now (R87). -/
def ringBusy (s : Sys) (c : Nat) : Bool :=
  match getCtx s c with | some x => x.st == .stalled || eqFull x | none => false

/-- Check 1 of Table 5.5: the tenant. -/
def checkTid (s : Sys) (p : Packet) : Bool := p.tid == tidOf s p.dctx

/-- A table entry from its 32 bytes (Table 5.4). -/
def Region.ofRaw (v : Nat) : Region :=
  { base := bits v 0 64, len := bits v 64 64, pd := bits v 128 12, rights := bits v 144 3, gen := bits v 152 8, fn := bits v 160 6,
    lgen := bits v 168 8 }

/-- An entry that holds no region. -/
def Region.free : Region := { base := 0, len := 0, pd := 0, rights := 0, gen := 0, fn := 0, lgen := 0 }

/-- Where the table entry that an RKEY names stands in host memory, if its index lies in the port's table and its GEN is not 0 (R102). -/
def regionAt (s : Sys) (hp rkey : Nat) : Option Nat :=
  match (getHp s hp).regtab with
  | none => none
  | some t => if rkey % 2 ^ 24 < 2 ^ t.log2 ∧ rkey / 2 ^ 24 ≠ 0 then some (t.bus + 32 * (rkey % 2 ^ 24)) else none

/-- The entry that a packet's RKEY names must be read first: the L2 TLB does not hold it (R102). -/
def regionMiss (s : Sys) (p : Packet) : Bool :=
  (regionAt s (portOf p) p.rkey).isSome && (regionCached s (portOf p) (p.rkey % 2 ^ 24)).isNone

/-- The region that a packet's RKEY names, from the entry that the L2 TLB holds (R102, Table 5.5 check 2). -/
def keyRegion (s : Sys) (hp rkey : Nat) : Option Region :=
  if (regionAt s hp rkey).isSome then (regionCached s hp (rkey % 2 ^ 24)).filter fun r => r.gen == rkey / 2 ^ 24 else none

/-- The one host read of a table entry on a miss: a read of the PF at a bus address (R102). While the PF cannot read, the packet is to come
    again (PRESUMED, log entry 146). -/
def readRegion (s : Sys) (p : Packet) : Sys :=
  let hp := portOf p
  let a : Acc := { id := s.xl.nextAcc, ctx := p.dctx, hp := hp, fn := 0, kind := .iread, addr := 0, len := 32, data := [], sfeid := p.sfeid,
                   cont := .region p, bus := [((regionAt s hp p.rkey).getD 0, 32)], walk := none, got := [], want := 0, steer := none,
                   held := false, retry := none }
  if ((getFn s hp 0).bme && (getHp s hp).a.up) = false then retryLater s p 64
  else perform { s with xl := { s.xl with accs := s.xl.accs ++ [a], nextAcc := s.xl.nextAcc + 1 } } a

/-- The region that an RKEY names on a port, as the commands of that port see it (R102, R103). -/
def regionOf (s : Sys) (hp rkey : Nat) : Option Region :=
  match (getHp s hp).regtab with
  | none => none
  | some t =>
    let i := rkey % 2 ^ 24
    if t.log2 ≤ 24 ∧ i < 2 ^ t.log2 ∧ rkey / 2 ^ 24 ≠ 0 then
      (tget t.ents i).filter fun r => r.gen == rkey / 2 ^ 24
    else none

/-- Checks 1 to 5 of Table 5.5 for a packet that names a region: the region if they pass. `need` is the RIGHTS bit. -/
def checkKey (s : Sys) (p : Packet) (need extent : Nat) : Option Region :=
  match getCtx s p.dctx, keyRegion s (portOf p) p.rkey with
  | some x, some r =>
    if checkTid s p && r.pd == x.pd && r.fn == x.fn && r.rights.testBit need && decide (p.offset + extent ≤ r.len) then some r else none
  | _, _ => none

/-- The source device of a packet as it stands in the tables now. -/
def srcOf (s : Sys) (p : Packet) : Nat := (senderDev s p).getD 0

/-! ### PUT and PUT_IMM (R134, R135, R146) -/

/-- Table 5.5 for a packet that names a region: the tenant, the table entry, which is read first where the L2 TLB does not hold it, and the
    other key checks; with its region the packet goes on. -/
def keyChecks (s : Sys) (p : Packet) (need extent : Nat) (go : Sys → Region → Sys) : Sys :=
  if checkTid s p && regionMiss s p then readRegion s p
  else match checkKey s p need extent with
  | none => fatal s p 4
  | some r => go s r

/-- PUT and PUT_IMM from the last row of check 7 on: the packet's place is translated before its entry is taken (Tables 5.5 and 6.6). -/
def putGo (s : Sys) (dev : Nat) (p : Packet) : Sys :=
  if asmHas s dev p = false ∧ p.op = 2 ∧ p.fseg = true ∧ ringBusy s p.dctx = true ∧
      (match getAsm s dev p.osn with | some a => a.wouldFill p.pidx | none => p.pcnt == 0) = true then retryLater s p 64
  else keyChecks s p 1 p.plen fun s r =>
    startAcc s p.dctx .iwrite ((r.base + p.offset) % 2 ^ 64) p.payload.length p.payload p.sfeid (.checkIn p) none

/-- PUT_RECEIVE after the first rows of check 7. -/
def putIn (s : Sys) (dev : Nat) (p : Packet) : Sys := putGo (asmTouch s dev p) dev p

/-- A put that has passed every check: discarded if its bit is set, else placed at the bus addresses found for it (R146). -/
def putAdmit (s : Sys) (dev : Nat) (p : Packet) (bus : List (Nat × Nat)) : Sys :=
  if asmHas s dev p then s
  else if asmFull s dev p.osn then retryLater s p 4
  else
    let s := asmTake s dev p
    if p.payload.isEmpty then asmMark s dev p
    else
      let a : Acc := { id := s.xl.nextAcc, ctx := p.dctx, hp := portOf p, fn := ((getCtx s p.dctx).map (·.fn)).getD 0, kind := .iwrite, addr := 0,
                       len := p.payload.length, data := p.payload, sfeid := p.sfeid, cont := .place p, bus, walk := none, got := [], want := 0,
                       steer := none, held := false, retry := none }
      perform { s with xl := { s.xl with accs := s.xl.accs ++ [a], nextAcc := s.xl.nextAcc + 1 } } a

/-- A packet's write has ended. -/
def placeEnd (s : Sys) (p : Packet) (e : AccEnd) : Sys :=
  let dev := srcOf s p
  match e with
  | .ok _ => trace (asmMark s dev p) p 6 (64 + portOf p) 0
  | .retry => retryLater (asmUnmark s dev p) p 64
  | .xfault => fatal (asmUnmark s dev p) p 5

/-! ### Completion (R147, R148) -/

/-- A segment is done and acknowledged with a value; its entry is free. -/
def segDone (s : Sys) (a : Asm) (value : Nat) : Sys :=
  ack (dropAsm (markDone s a.src a.osn) a.src a.osn) a.head value

/-- The final segment of a PUT_IMM. -/
def isFinalImm (p : Packet) : Bool := p.op == 2 && p.fseg

/-- SEND-family data and RTS. -/
def isSend (op : Nat) : Bool := decide (0x10 ≤ op) && decide (op ≤ 0x13)

/-- SEGMENT_COMPLETE_ACK (R147): a complete segment that raises nothing is marked done, an atomic's value is kept, and ACK goes. -/
def segmentCompleteAck (s : Sys) (dev osn : Nat) : Sys :=
  match getAsm s dev osn with
  | none => s
  | some a =>
    if a.full = false ∨ isFinalImm a.head ∨ isSend a.head.op then s
    else
      let s := if a.head.op = 5 ∨ a.head.op = 6 then
          { s with te := { s.te with results := s.te.results ++ [{ src := dev, osn, value := a.value, start := frame s }] } }
        else s
      segDone s a a.value

/-- The earlier OSNs of a PUT_IMM whose final segment this is, all done (R148). -/
def earlierDone (s : Sys) (a : Asm) : Bool :=
  let n := max 1 ((a.head.msglen + 262143) / 262144)
  match getSrcDev s a.src with
  | none => false
  | some r => (List.range (n - 1)).all fun i => osnDone r ((a.osn + 2 ^ 32 - 1 - i) % 2 ^ 32)

/-- The STEER set of a context: the lowest set of that kind that it owns. -/
def steerSet (s : Sys) (c : Nat) : Option Nat := (s.pe.sets.find? fun e => e.2.kind == 2 && e.2.owner == c).map (·.1)

/-- FINAL_SEGMENT_NOTIFY (R135, R148, R221): the notification goes to the ring of the owner or of the member chosen. -/
def finalSegmentNotify (s : Sys) (dev osn : Nat) : Sys :=
  match getAsm s dev osn with
  | none => s
  | some a =>
    if a.full = false ∨ isFinalImm a.head = false ∨ a.due = true ∨ earlierDone s a = false then s
    else
      let c := a.head.dctx
      let (s, pick) := match steerSet s c with | some k => choose s k | none => (s, none)
      let ring := (pick.map fun e => e.2.ctx).getD c
      let n := max 1 ((a.head.msglen + 262143) / 262144)
      let seg0 := (a.head.offset + 2 ^ 64 - 4096 * a.head.pidx) % 2 ^ 64
      let ev : Ev := { Ev.zero ring with
        type := 0x81, len := a.head.msglen, w16 := (seg0 + 2 ^ 64 - 262144 * (n - 1)) % 2 ^ 64, imm := a.imm,
        w28 := evW28 true (some a.head.sfeid) (pick.map (·.1)) }
      eventDue (modAsm s dev osn fun x => { x with due := true }) ring ev (some (dev, osn))

/-! ### Atomics (R137, R138) -/

/-- An atomic from check 8 on: its word is translated before its entry is taken. -/
def atomicGo (s : Sys) (_dev : Nat) (p : Packet) : Sys :=
  let n := wordSize (p.w56 % 256)
  keyChecks s p 2 n fun s r => startAcc s p.dctx .iatomic ((r.base + p.offset) % 2 ^ 64) n [] p.sfeid (.checkIn p) none

/-- ATOMIC_RECEIVE after check 7. -/
def atomicIn (s : Sys) (dev : Nat) (p : Packet) : Sys := atomicGo (asmTouch s dev p) dev p

/-- An atomic whose result is kept for its source (R149). -/
def isFetching (op : Nat) : Bool := op == 5 || op == 6

/-- Result entries held, and promised to atomics that wait. -/
def resultsUsed (s : Sys) : Nat := s.te.results.length + (s.te.asms.filter fun a => isFetching a.head.op).length

/-- An atomic that has passed every check but the last waits for its turn with its address (R138). -/
def atomicAdmit (s : Sys) (dev : Nat) (p : Packet) (addr : Nat) : Sys :=
  if asmHas s dev p then s
  else if asmFull s dev p.osn = true ∨ (isFetching p.op = true ∧ 16384 ≤ resultsUsed s) then retryLater s p 4
  else
    let s := asmTake s dev p
    { s with te := { s.te with atomQ := s.te.atomQ ++ [(addr, p)] } }

/-- An access that executes an atomic. -/
def runsAtomic (a : Acc) : Bool := match a.cont with | .atomic _ | .atomicW _ _ => true | _ => false

/-- The first waiting atomic is begun unless one is being executed (R138). -/
def atomicStart (s : Sys) : Sys :=
  match s.te.atomQ with
  | [] => s
  | (addr, p) :: _ =>
    if s.xl.accs.any runsAtomic || s.xl.fin.any (fun e => runsAtomic e.1) then s
    else startAcc s p.dctx .iatomic addr (wordSize (p.w56 % 256)) [] p.sfeid (.atomic p) none

/-- An atomic waits no longer. -/
def atomDrop (s : Sys) (p : Packet) : Sys := { s with te := { s.te with atomQ := s.te.atomQ.filter fun e => e.2 != p } }

/-- An atomic has been executed. -/
def atomicDone (s : Sys) (p : Packet) (old : Nat) : Sys :=
  let dev := srcOf s p
  modAsm (asmMark (atomDrop s p) dev p) dev p.osn fun a => { a with value := if p.op = 4 then 0 else old }

/-- The word that an atomic writes, if it writes (R137). -/
def atomicWord (p : Packet) (old : Nat) : Option Nat :=
  let w := 8 * wordSize (p.w56 % 256)
  if p.op = 6 then
    (if p.operand % 2 ^ w = old then some ((p.msglen + 2 ^ 32 * p.imm) % 2 ^ w) else none)
  else (aopOf (p.w56 % 16)).map fun o => atomicNew (bits p.w56 4 4) o old (p.operand % 2 ^ w)

/-- The read half or the write of an atomic has ended. The read half is an access of class ATOMIC; its write half goes out as an inbound write
    (ACCESS 5, rights W and D; log entry 164). -/
def atomicEnd (s : Sys) (p : Packet) (addr : Nat) (old : Option Nat) (e : AccEnd) : Sys :=
  let stop := fun (s : Sys) => asmUnmark (atomDrop s p) (srcOf s p) p
  match e, old with
  | .retry, _ => retryLater (stop s) p 64
  | .xfault, _ => fatal (stop s) p 5
  | .ok _, some old => atomicDone s p old
  | .ok d, none =>
    let old := nat d
    match atomicWord p old with
    | some v =>
      let n := wordSize (p.w56 % 256)
      startAcc s p.dctx .iwrite addr n (le n v) p.sfeid (.atomicW p old) none
    | none => atomicDone s p old

/-! ### GET_REQ (R136) -/

/-- A GET_RESP of one packet. -/
def getResp (s : Sys) (p : Packet) (i off : Nat) (data : Bytes) : Sys :=
  let r := { respPkt s p 0x84 with pidx := i, offset := off, msglen := p.msglen }
  sendResp s (portOf p) (Packet.withPayload { r with w56 := r.w56 + data.length } data)

/-- The wanted packets of a request are read, from the address of its first byte on. -/
def readWanted (s : Sys) (p : Packet) (addr : Nat) : Sys :=
  ((List.range (p.pcnt + 1)).filter fun i => p.operand.testBit i).foldl (fun s i =>
    let n := min 4096 (p.msglen - 4096 * i)
    if n = 0 then getResp s p i ((p.offset + 4096 * i) % 2 ^ 64) []
    else startAcc s p.dctx .iread ((addr + 4096 * i) % 2 ^ 64) n [] p.sfeid (.readOut p i ((p.offset + 4096 * i) % 2 ^ 64)) none) s

/-- GET_REQ_RECEIVE after check 7. -/
def getIn (s : Sys) (p : Packet) : Sys :=
  keyChecks s p 0 p.msglen fun s r => readWanted s p ((r.base + p.offset) % 2 ^ 64)

/-- A wanted packet has been read, or its read has failed. -/
def readOutEnd (s : Sys) (p : Packet) (i off : Nat) (e : AccEnd) : Sys :=
  match e with
  | .ok d => getResp s p i off d
  | .retry => retryLater s { p with pidx := i } 64
  | .xfault => fatal s { p with pidx := i } 5

/-! ### Packets that waited for a table entry or a translation (R102, R144) -/

/-- The checks from the duplicate window on are made again for a packet that waited, since state may have changed meanwhile. -/
def again (s : Sys) (p : Packet) : Sys :=
  match senderDev s p with
  | none => count s 86 0x01 1
  | some dev =>
    match (if p.op = 3 then (s, true) else checkDup s dev p) with
    | (s, false) => s
    | (s, true) =>
      match checkCtx s p with
      | (s, false) => s
      | (s, true) => if p.op = 3 then getIn s p else if isAtomicOp p.op then atomicGo s dev p else putGo s dev p

/-- What reads in flight bring of entries of a port's table is no longer what stands there (R102, R104). -/
def staleReads (s : Sys) (hp : Nat) (which : Nat → Bool) : Sys :=
  let hit := fun (a : Acc) => match a.cont with | .region p => a.hp == hp && which (p.rkey % 2 ^ 24) | _ => false
  { s with xl := { s.xl with accs := s.xl.accs.map fun a => if hit a then { a with stale := true } else a } }

/-- A table entry has been read: it is installed, unless a command has written the entry or the table meanwhile, and the packet goes on.
    An entry that could not be read refuses the packet as a key that is not there (DESIGN CHOICE, log entry 129; safe for memory, which is not
    touched: unsafe for the status). -/
def regionEnd (s : Sys) (a : Acc) (p : Packet) (e : AccEnd) : Sys :=
  let hp := portOf p
  match e with
  | .ok d =>
    let fresh := !a.stale && (regionAt s hp p.rkey).map (fun b => [(b, 32)]) == some a.bus &&
      (regionCached s hp (p.rkey % 2 ^ 24)).isNone
    again (if fresh then regionPut s hp (p.rkey % 2 ^ 24) (Region.ofRaw (nat d)) else s) p
  | .retry => retryLater s p 64
  | .xfault => fatal s p 4

/-- A packet's place has been translated, or cannot be (checks 8 and 9 of Table 6.6). -/
def admitEnd (s : Sys) (a : Acc) (p : Packet) (e : AccEnd) : Sys :=
  match e with
  | .retry => retryLater s p 64
  | .xfault => fatal s p 5
  | .ok _ =>
    match senderDev s p with
    | none => count s 86 0x01 1
    | some dev =>
      match checkDup s dev p with
      | (s, false) => s
      | (s, true) => if isAtomicOp p.op then atomicAdmit s dev p a.addr else putAdmit s dev p a.bus

end Sys2Proof.Machine
end

