-- ==== Sys2Proof/Machine/Match.lean ====
section
/-!
DEFINITION. Tagged messages and matching (chapter 7): submission in OSN order per source, the posted and unexpected lists, delivery of
eager data, the overflow area, rendezvous pulls, and how messages end (R161 to R180, R219 to R221).
-/
namespace Sys2Proof.Machine

/-! ### Messages, blocks, lists (R165, R167) -/

/-- The message of a source device under an OSN. -/
def msgOf (s : Sys) (dev osn : Nat) : Option Msg := s.me.msgs.find? fun m => m.src == dev && m.osn == osn

/-- A message by number. -/
def getMsg (s : Sys) (id : Nat) : Option Msg := s.me.msgs.find? fun m => m.id == id

/-- A message changed. -/
def modMsg (s : Sys) (id : Nat) (g : Msg → Msg) : Sys :=
  { s with me := { s.me with msgs := s.me.msgs.map fun m => if m.id == id then g m else m } }

/-- A rendezvous message. -/
def Msg.rts (m : Msg) : Bool := m.head.op == 0x12 || m.head.op == 0x13

/-- Blocks that data on chip takes. -/
def blocksOf (held : List (Nat × Bytes)) : Nat := (held.map fun e => (e.2.length + 255) / 256).sum

/-- Blocks of the unexpected-data store in use, of the messages that satisfy a test. -/
def blocks (s : Sys) (which : Msg → Bool) : Nat := ((s.me.msgs.filter which).map fun m => blocksOf m.held).sum

/-- The unexpected messages of a context, oldest first. -/
def unexpOf (s : Sys) (c : Nat) : List Msg := s.me.msgs.filter fun m => m.st == .unexp && m.head.dctx == c

/-- Bytes of unexpected data of a context on chip: whole blocks of 256, and those of a message already taken that waits for a member too
    (log entry 165). -/
def onChip (s : Sys) (c : Nat) : Nat := 256 * blocks s fun m => m.st != .parked && m.head.dctx == c

/-- List entries in use in a context's slice (R165). -/
def sliceUse (s : Sys) (c : Nat) : Nat :=
  ((s.ctxs.filter fun e => e.1 % 16 == c % 16).map fun e => e.2.posted.length).sum +
    (s.me.msgs.filter fun m => m.st == .unexp && m.head.dctx % 16 == c % 16).length

/-- The slice of a context is full. -/
def sliceFull (s : Sys) (c : Nat) : Bool := decide (24576 ≤ sliceUse s c)

/-- fits of R161. -/
def recvFits (r : Recv) (p : Packet) : Bool :=
  ((p.operand ^^^ r.mtch) &&& (2 ^ 64 - 1 - r.ignore)) == 0 && (match r.src with | some f => f == p.sfeid | none => true)

/-- A search of a slice is counted with the entries it examined: those up to the first that fits (Table 17.9). -/
def countSearch {α : Type} (s : Sys) (c : Nat) (l : List α) (hit : α → Bool) : Sys :=
  count (count s (68 + c % 16) 0x01 1) (68 + c % 16) 0x02 (min l.length (l.findIdx hit + 1))

/-- The receives posted at a context. -/
def postedOf (s : Sys) (c : Nat) : List Recv := ((getCtx s c).map (·.posted)).getD []

/-! ### The overflow area (R168) -/

/-- Overflow pages a context holds. -/
def ovfUsed (x : Ctx) : Nat := (x.ovfRuns.map fun e => e.2.1).sum

/-- A run of consecutive pages for a message, if the area has room. -/
def ovfTake (s : Sys) (c n : Nat) : Sys × Option (Nat × Nat) :=
  match getCtx s c with
  | none => (s, none)
  | some x =>
    if x.ovfBase = 0 ∨ n = 0 ∨ x.ovfPages < ovfUsed x + n then (s, none)
    else
      (modCtx s c fun y => { y with ovfRuns := y.ovfRuns ++ [(y.ovfNext, n, false)], ovfNext := (y.ovfNext + n) % y.ovfPages },
       some (x.ovfNext, n))

/-- A run is given back; pages are free in the order in which they were taken. -/
def ovfFree (s : Sys) (c : Nat) (run : Option (Nat × Nat)) : Sys :=
  match run with
  | none => s
  | some (st, _) =>
    modCtx s c fun y =>
      { y with ovfRuns := (y.ovfRuns.map fun e => if e.1 == st then (e.1, e.2.1, true) else e).dropWhile fun e => e.2.2 }

/-- The context address of a message's byte in its run, which may wrap from the last page to the first. -/
def ovfAddr (x : Ctx) (run : Nat × Nat) (off : Nat) : Nat :=
  (x.ovfBase + 4096 * ((run.1 + off / 4096) % x.ovfPages) + off % 4096) % 2 ^ 64

/-- Data goes to the overflow area of a message that has a run there. -/
def ovfPut (s : Sys) (id off : Nat) (data : Bytes) : Sys :=
  match getMsg s id with
  | none => s
  | some m =>
    match m.ovf, getCtx s m.head.dctx with
    | some run, some x =>
      startAcc (modMsg s id fun m => { m with pend := m.pend + 1 }) m.head.dctx .lwrite (ovfAddr x run off) data.length data 0
        (.ovfWrite id off data.length) none
    | _, _ => s

/-! ### Storing data that cannot be placed yet (R167, R169) -/

/-- A message that is submitted keeps a packet's data: on chip, or in the overflow area with all it holds. `none`: no room. The data of one
    whose area has faulted is discarded (R168, R171). -/
def keepData (s : Sys) (id : Nat) (off : Nat) (data : Bytes) : Option Sys :=
  match getMsg s id with
  | none => some s
  | some m =>
    let c := m.head.dctx
    let b := (data.length + 255) / 256
    if data.isEmpty || m.bad then some s
    else if m.ovf.isSome then some (ovfPut s id off data)
    else if decide (onChip s c + 256 * b ≤ ((getCtx s c).map (·.onchip)).getD 0) && decide (blocks s (fun _ => true) + b ≤ 32768) then
      some (modMsg s id fun m => { m with held := (m.held.filter fun e => e.1 != off) ++ [(off, data)] })
    else
      let (s', run) := ovfTake s c ((m.head.msglen + 4095) / 4096)
      match run with
      | none => none
      | some r =>
        let out := m.held ++ [(off, data)]
        some (out.foldl (fun s e => ovfPut s id e.1 e.2) (modMsg s' id fun m => { m with ovf := some r, held := [] }))

/-! ### Delivery (R170, R171, R220) -/

/-- Bytes of a message that its receive takes. -/
def Msg.want (m : Msg) : Nat := min m.head.msglen m.buf.2.2

/-- The steering tag of a message's writes (R220). -/
def msgSteer (s : Sys) (m : Msg) : Option Nat :=
  match m.member with
  | some (k, i) => ((getSet s k).bind fun p => tget p.members i).bind fun e => if e.stV then some e.stIdx else none
  | none => none

/-- Held data is written to the receive buffer; bytes beyond it are discarded. -/
def writeOut (s : Sys) (id off : Nat) (data : Bytes) : Sys :=
  match getMsg s id with
  | none => s
  | some m =>
    let n := min data.length (m.buf.2.2 - off)
    if n = 0 then s
    else startAcc (modMsg s id fun m => { m with pend := m.pend + 1 }) m.buf.1 .lwrite ((m.buf.2.1 + off) % 2 ^ 64) n (data.take n) 0
      (.deliver id off n) (msgSteer s m)

/-- What a message holds goes to its receive buffer: blocks at once, overflow pages by way of a read. -/
def deliverHeld (s : Sys) (id : Nat) : Sys :=
  match getMsg s id with
  | none => s
  | some m =>
    let s := m.held.foldl (fun s e => writeOut s id e.1 e.2) (modMsg s id fun m => { m with held := [], ovfHas := [] })
    match m.ovf, getCtx s m.head.dctx with
    | some run, some x => m.ovfHas.foldl (fun s e =>
        startAcc (modMsg s id fun m => { m with pend := m.pend + 1 }) m.head.dctx .lread (ovfAddr x run e.1) e.2 [] 0
          (.ovfRead id e.1) none) s
    | _, _ => s

/-- A message leaves: its pages are given back (R168). -/
def dropMsg (s : Sys) (m : Msg) : Sys :=
  ovfFree { s with me := { s.me with msgs := s.me.msgs.filter fun x => x.id != m.id } } m.head.dctx m.ovf

/-- The receive's event (R176). -/
def recvEvent (m : Msg) (r : Recv) (status len : Nat) : Ev :=
  { Ev.zero m.head.dctx with
    type := 0x12, status := status, len := len, cookie := r.cookie, w16 := m.head.operand,
    imm := if m.head.op % 2 = 1 then m.imm else 0,
    w28 := evW28 (m.head.op % 2 == 1) (some m.head.sfeid) (m.member.map (·.2)) }

/-- A segment whose event has been written is done and acknowledged (R148, R170, R173). -/
def linkDone (s : Sys) (link : Nat × Nat) : Sys :=
  match getAsm s link.1 link.2 with
  | none => s
  | some a =>
    let s := match msgOf s link.1 link.2 with | some m => if isSend a.head.op then dropMsg s m else s | none => s
    segDone s a 0

/-- A receive ends well: its event, and then the ACK of a message not yet acknowledged. -/
def recvDone (s : Sys) (m : Msg) (r : Recv) : Sys :=
  let c := m.head.dctx
  let st := if m.buf.2.2 < m.head.msglen then 1 else 0
  let s := modCtx s c fun y => { y with live := y.live.filter fun q => q != r.seq }
  let s := modMsg s m.id fun m => { m with recv := none }
  let s := modAsm s m.src m.osn fun a => { a with due := true }
  let ev := recvEvent m r st m.want
  if m.acked then
    let s := dropMsg s m
    if r.event ∨ st ≠ 0 then eventDue s c ev none else s
  else if r.event ∨ st ≠ 0 then eventDue s c ev (some (m.src, m.osn))
  else linkDone s (m.src, m.osn)

/-- The pull segments of a message stop. -/
def stopPulls (s : Sys) (id : Nat) : Sys := (s.te.segs.filter fun g => g.kind == .pull id).foldl dropSeg s

/-- A packet's data has gone where it belongs: its bit is set (R146). -/
def asmBit (s : Sys) (dev osn i : Nat) : Sys :=
  modAsm s dev osn fun a => { a with mask := a.mask ||| 2 ^ i, placed := if a.placed.testBit i then a.placed - 2 ^ i else a.placed }

/-- A receive ends before its message is complete, with a status and the bytes placed (R171, R173, R178 to R180). -/
def recvFail (s : Sys) (m : Msg) (status : Nat) : Sys :=
  match m.recv with
  | none => s
  | some r =>
    let stored := s.xl.accs.filterMap fun a => match a.cont with | .ovfWrite i off _ => if i == m.id then some off else none | _ => none
    let s := stopPulls (forgetAccs s fun a => match a.cont with
      | .deliver i _ _ | .ovfWrite i _ _ | .ovfRead i _ => i == m.id
      | _ => false) m.id
    let s := stored.foldl (fun s off => asmBit s m.src m.osn (off / 4096)) s
    let s := ovfFree (modMsg s m.id fun m => { m with recv := none, held := [], ovfHas := [], ovf := none, pend := 0, wait := false })
      m.head.dctx m.ovf
    endDesc s m.head.dctx r.seq r.event (recvEvent m r status m.placed)

/-- Pull segments that a message needs (R173). -/
def pullCount (m : Msg) : Nat := (m.want + 262143) / 262144

/-- A message whose receive has ended counts as delivered: once all its packets have come it is done and acknowledged (R171). -/
def discardCheck (s : Sys) (id : Nat) : Sys :=
  match getMsg s id with
  | none => s
  | some m =>
    let asm := getAsm s m.src m.osn
    if m.acked then dropMsg s m
    else if m.rts then s
    else match asm with
    | some a => if a.full && !a.due then segDone (dropMsg s m) a 0 else s
    | none => s

/-- A message that may have become complete is taken to its next point (R170, R173); a fault on its overflow area ends its delivery (R168). -/
def msgCheck (s : Sys) (id : Nat) : Sys :=
  match getMsg s id with
  | none => s
  | some m =>
    let asm := getAsm s m.src m.osn
    let all := m.acked || (match asm with | some a => a.full && !a.due | none => false)
    match m.st with
    | .parked => s
    | .unexp =>
      if m.acked ∨ m.rts ∨ all = false ∨ m.pend ≠ 0 then s
      else match asm with
      | some a => segDone (modMsg s id fun m => { m with acked := true }) a 0
      | none => s
    | .taken =>
      match m.recv with
      | some r =>
        if m.bad then discardCheck (recvFail s m 5) id
        else if m.wait ∨ m.pend ≠ 0 then s
        else if m.rts then
          (if pullCount m ≤ m.pullNext ∧ s.te.segs.any (fun g => g.kind == .pull id) = false ∧
              (match asm with | some a => !a.due | none => false) = true then recvDone s m r else s)
        else if all ∧ m.held = [] ∧ m.ovfHas = [] then recvDone s m r
        else s
      | none => discardCheck s id

/-- A receive takes a message (R162, R214, R220): the effective buffer is its own or that of the member chosen. Nothing of a message whose
    overflow area has faulted is delivered (R168, R171). -/
def takeMsg (s : Sys) (id : Nat) (r : Recv) : Sys :=
  match getMsg s id with
  | none => s
  | some m =>
    let s := modMsg s id fun m => { m with st := .taken, recv := some r }
    if m.bad then modMsg s id fun m => { m with buf := (m.head.dctx, 0, r.len) }
    else match r.pset with
    | none => deliverHeld (modMsg s id fun m => { m with buf := (m.head.dctx, r.laddr, r.len) }) id
    | some k =>
      let (s, pick) := choose s k
      match pick with
      | none => modMsg s id fun m => { m with wait := true, buf := (m.head.dctx, 0, r.len) }
      | some (i, e) =>
        let s := modMember s k i fun e => { e with armed := false }
        deliverHeld (modMsg s id fun m => { m with member := some (k, i), buf := (e.ctx, e.base, min r.len e.len), wait := false }) id

/-- A packet of a message that a receive has taken goes straight to the buffer (R170, R171). -/
def placeTaken (s : Sys) (m : Msg) (p : Packet) : Sys :=
  let n := min p.payload.length (m.buf.2.2 - p.offset)
  if m.wait then
    match keepData (asmTake s m.src p) m.id p.offset p.payload with
    | some s' => asmMark s' m.src p
    | none => retryLater s p 32
  else if m.recv.isNone ∨ n = 0 then msgCheck (asmMark (asmTake s m.src p) m.src p) m.id
  else startAcc (asmTake s m.src p) m.buf.1 .iwrite ((m.buf.2.1 + p.offset) % 2 ^ 64) n (p.payload.take n) p.sfeid (.place p) (msgSteer s m)

/-! ### Submission (R161 to R164, R169) -/

/-- A message as its first packet shows it. -/
def newMsg (s : Sys) (dev : Nat) (p : Packet) (st : MsgSt) : Sys × Nat :=
  let id := s.me.nextMsg
  ({ s with me := { s.me with
      nextMsg := id + 1,
      msgs := s.me.msgs ++ [{ id, src := dev, osn := p.osn, prev := p.rkey, head := p, imm := 0, held := [], ovf := none, ovfHas := [],
                              st, retired := false, acked := false, recv := none, buf := (p.dctx, 0, 0), member := none, wait := false,
                              pend := 0, placed := 0, pullNext := 0, bad := false }] } }, id)

/-- LMS of a source device set. -/
def setLms (s : Sys) (dev osn : Nat) : Sys :=
  match tget s.te.srcs dev with
  | some r => { s with te := { s.te with srcs := tset s.te.srcs dev { r with lms := osn } } }
  | none => s

/-- The first posted receive of a context that a message fits. -/
def findRecv (s : Sys) (p : Packet) : Option Recv := (postedOf s p.dctx).find? fun r => recvFits r p

/-- A receive leaves the posted list. -/
def unpost (s : Sys) (c : Nat) (r : Recv) : Sys := modCtx s c fun y => { y with posted := y.posted.erase r }

/-- The unexpected list of a context has no room for one more message (R169). -/
def unexpFull (s : Sys) (c : Nat) : Bool :=
  decide ((((getCtx s c).map (·.unexpMax)).getD 0) ≤ (unexpOf s c).length) || sliceFull s c

/-- A parked message whose turn has come is submitted (R163, R169, R179). One that finds no room loses what was held of it, and one NACK
    RETRY 32 goes out, for its first packet (log entry 168). -/
def submitParked (s : Sys) (m : Msg) : Sys :=
  let c := m.head.dctx
  let live := match getCtx s c with | some x => x.st == .active || x.st == .stalled | none => false
  if m.retired then setLms (dropMsg s m) m.src m.osn
  else if live = false then
    setLms (fatal (markDone (dropAsm (dropMsg s m) m.src m.osn) m.src m.osn) m.head 2) m.src m.osn
  else
    let s := countSearch s c (postedOf s c) fun r => recvFits r m.head
    match findRecv s m.head with
    | some r => msgCheck (takeMsg (unpost (setLms s m.src m.osn) c r) m.id r) m.id
    | none =>
      let refuse := retryLater (dropAsm (dropMsg s m) m.src m.osn) m.head 32
      if unexpFull s c then refuse
      else
        let s := { s with me := { s.me with
          msgs := (s.me.msgs.filter fun x => x.id != m.id) ++ [{ m with st := .unexp, held := [] }] } }
        match m.held.foldl (fun a e => a.bind fun s => keepData s m.id e.1 e.2) (some s) with
        | some s => msgCheck (setLms s m.src m.osn) m.id
        | none => refuse

/-- The chain of parked messages that a submission lets go on (R163). -/
def chain (s : Sys) (dev : Nat) : Nat → Sys
  | 0 => s
  | n + 1 =>
    match getSrcDev s dev with
    | none => s
    | some r =>
      match s.me.msgs.find? fun m => m.src == dev && m.st == .parked && m.prev == r.lms with
      | none => s
      | some m => chain (submitParked s m) dev n

/-- The chain after a submission, as far as messages are parked. -/
def runChain (s : Sys) (dev : Nat) : Sys := chain s dev (s.me.msgs.length + 1)

/-- A packet's data is held for a parked message, within 16,384 blocks for all of them (R167, R169). -/
def parkRoom (s : Sys) (p : Packet) : Bool :=
  let b := (p.payload.length + 255) / 256
  decide (blocks s (fun m => m.st == .parked) + b ≤ 16384) && decide (blocks s (fun _ => true) + b ≤ 32768)

/-- A packet joins the held data of a message. -/
def hold (s : Sys) (id : Nat) (p : Packet) : Sys :=
  modMsg s id fun m => { m with held := if p.payload.isEmpty then m.held else (m.held.filter fun e => e.1 != p.offset) ++ [(p.offset, p.payload)],
                                imm := if p.pidx = p.pcnt then p.imm else m.imm }

/-- A packet of a message completes it. -/
def fills (s : Sys) (dev : Nat) (p : Packet) : Bool :=
  match getAsm s dev p.osn with | some a => a.wouldFill p.pidx | none => p.pcnt == 0

/-- SEND_PACKET_RECEIVE after check 7 (R163, R167 to R171): a packet of a message, its first or a later one. A first packet that is refused
    because its message would complete now and cannot is refused before matching: the receive stays posted (R170; log entry 167). -/
def sendIn (s : Sys) (dev : Nat) (p : Packet) : Sys :=
  let c := p.dctx
  let eager := decide (p.op < 0x12)
  let s := asmTouch s dev p
  if checkTid s p = false then fatal s p 4
  else if asmHas s dev p then s
  else if asmFull s dev p.osn then retryLater s p 4
  else match msgOf s dev p.osn with
  | some m =>
    let s1 := modMsg s m.id fun m => { m with imm := if p.pidx = p.pcnt then p.imm else m.imm }
    (match m.st with
     | .parked => if parkRoom s p then hold (asmMark (asmTake s dev p) dev p) m.id p else retryLater s p 4
     | .unexp =>
       (match keepData (asmTake s1 dev p) m.id p.offset p.payload with
        | some s' => if p.payload.isEmpty = false ∧ m.bad = false ∧ ((getMsg s' m.id).map (·.ovf)).join.isSome then s'
            else msgCheck (asmMark s' dev p) m.id
        | none => retryLater s p 32)
     | .taken =>
       if eager && m.recv.isSome && fills s dev p && ringBusy s c then retryLater s p 64 else placeTaken s1 m p)
  | none =>
    match getSrcDev s dev with
    | none => s
    | some r =>
      if osnDiff p.osn r.lms ≤ 0 then s
      else if p.rkey ≠ r.lms then
        if parkRoom s p then
          let (s, id) := newMsg (count (asmMark (asmTake s dev p) dev p) (68 + c % 16) 0x03 1) dev p .parked
          hold s id p
        else retryLater s p 4
      else
        let s := countSearch s c (postedOf s c) fun r => recvFits r p
        match findRecv s p with
        | some q =>
          if eager && fills s dev p && ringBusy s c then retryLater s p 64
          else
            let (s, id) := newMsg (unpost (setLms s dev p.osn) c q) dev p .taken
            let s := takeMsg (modMsg s id fun m => { m with imm := if p.pidx = p.pcnt then p.imm else 0 }) id q
            let s := match getMsg s id with | some m => placeTaken s m p | none => s
            runChain (msgCheck s id) dev
        | none =>
          if unexpFull s c then retryLater s p 32
          else
            let (s', id) := newMsg s dev p .unexp
            let s' := modMsg s' id fun m => { m with imm := if p.pidx = p.pcnt then p.imm else 0 }
            match keepData (asmTake s' dev p) id p.offset p.payload with
            | none => retryLater s p 32
            | some s' =>
              let s' := if ((getMsg s' id).map (·.ovf)).join.isSome ∧ p.payload.isEmpty = false then s' else asmMark s' dev p
              runChain (msgCheck (setLms s' dev p.osn) id) dev

/-! ### Posting and cancelling (R160, R162, R166, R177) -/

/-- A receive meets the unexpected list, or is posted; `none`: no list entry is free for it. -/
def post (s : Sys) (c : Nat) (r : Recv) : Option Sys :=
  let l := unexpOf s c
  let s := countSearch s c l fun m => recvFits r m.head
  match l.find? fun m => recvFits r m.head with
  | some m => some (msgCheck (takeMsg s m.id r) m.id)
  | none =>
    if (((getCtx s c).map fun x => decide (x.postedMax ≤ x.posted.length)).getD true) || sliceFull s c then none
    else some (modCtx s c fun y => { y with posted := y.posted ++ [r] })

/-- A message that waits for a member is given one if one is eligible now (R220). Such a message is no posted receive and no member's, so that it
    does not hold PSET_DESTROY back; without its set it waits until its receive ends (DESIGN CHOICE, log entry 155). -/
def memberChoice (s : Sys) (id : Nat) : Sys :=
  match getMsg s id with
  | none => s
  | some m =>
    match m.recv, m.wait with
    | some r, true => msgCheck (takeMsg s id r) id
    | _, _ => s

/-! ### Rendezvous pulls (R173) -/

/-- RDV_PULL_ISSUE: the next pull segment of a message, at most 16 of them outstanding. SCTX and SFEID of an RDV_GET are the context that
    receives and its host port: for a LOCAL set those of the member chosen (log entry 166). -/
def pullIssue (s : Sys) (id : Nat) : Sys :=
  match getMsg s id with
  | none => s
  | some m =>
    let out := (s.te.segs.filter fun g => g.kind == .pull id).length
    let hp := ((getCtx s m.buf.1).map (·.hp)).getD 0
    let coord := (epCoord s.rt.act m.head.sfeid).getD (m.src * 4)
    if m.st ≠ .taken ∨ m.rts = false ∨ m.recv.isNone ∨ m.wait ∨ pullCount m ≤ m.pullNext ∨ 16 ≤ out then s
    else if (getPeer s m.src).valid = false then startSync s hp m.buf.1 m.head.sfeid coord m.head.sctx
    else if s.te.peerIssue ≤ peerLoad s m.src then s
    else match freeEntry s with
    | none => s
    | some idx =>
      let off := 262144 * m.pullNext
      let bytes := min 262144 (m.want - off)
      let s := modMsg s id fun m => { m with pullNext := m.pullNext + 1 }
      let s := takeEntry s idx
        { idx, gen := 0, kind := .pull id, op := 2 ^ 64, no := m.pullNext, dev := m.src, ctx := m.buf.1, hp, dfeid := m.head.sfeid,
          osn := m.osn, pcnt := max 1 ((bytes + 4095) / 4096) - 1, off, bytes, built := 0, sent := 0, mask := 0, timed := false,
          start := 0, retry := 0, nacks := [], writes := 0, sfeid := feidOf s hp, coord := coord }
      buildMore s idx

/-- A pull ends with a status: the receive ends, and the RTS is refused with it (R171, R173; log entry 25). -/
def pullFail (s : Sys) (id status : Nat) : Sys :=
  match getMsg s id with
  | none => s
  | some m => if m.recv.isNone then s else fatal (recvFail s m status) m.head status

/-- A segment fails, of an operation or a pull. -/
def segFail (s : Sys) (g : Seg) (status : Nat) : Sys :=
  match g.kind with
  | .pull id => pullFail s id status
  | _ => failSeg s g status

/-- A segment whose data has all been written here completes. -/
def landCheck (s : Sys) (idx : Nat) : Sys :=
  match getSeg s idx with
  | none => s
  | some g =>
    if missing g ≠ 0 ∨ g.writes ≠ 0 then s
    else match g.kind with
    | .pull id => msgCheck (buildPort (dropSeg s g) g.hp) id
    | .get => completeSeg s g
    | .osn => s

/-- Data of a GET or a pull has been written, or could not be (R136, R171). -/
def landEnd (s : Sys) (p : Packet) (e : AccEnd) : Sys :=
  match s.te.segs.find? fun g => g.kind != .osn && tagOf g == p.osn with
  | none => s
  | some g =>
    match e with
    | .ok _ =>
      let s := trace s p 6 (64 + g.hp) 0
      let s := match g.kind with
        | .pull id => modMsg s id fun m => { m with placed := m.placed + min p.payload.length (m.buf.2.2 - p.offset) }
        | _ => s
      landCheck (modSeg s g.idx fun x => { x with writes := x.writes - 1 }) g.idx
    | _ => segFail s g 5

/-! ### Ends of accesses for messages (R168, R171) -/

/-- Data of a message has been written to its buffer, or could not be. -/
def deliverEnd (s : Sys) (id n : Nat) (e : AccEnd) : Sys :=
  match getMsg s id with
  | none => s
  | some m =>
    match e with
    | .ok _ => msgCheck (modMsg s id fun m => { m with pend := m.pend - 1, placed := m.placed + n }) id
    | _ =>
      discardCheck (recvFail s m 5) id

/-- Data has gone to the overflow area: the packet counts as held. A fault spoils the message's data there. -/
def ovfWriteEnd (s : Sys) (id off n : Nat) (e : AccEnd) : Sys :=
  match getMsg s id with
  | none => s
  | some m =>
    let s := asmBit s m.src m.osn (off / 4096)
    let s := match e with
      | .ok _ =>
        if m.st = .taken ∧ m.recv.isSome ∧ m.wait = false then
          (match m.ovf, getCtx s m.head.dctx with
           | some run, some x => startAcc s m.head.dctx .lread (ovfAddr x run off) n [] 0 (.ovfRead id off) none
           | _, _ => s)
        else modMsg s id fun m => { m with pend := m.pend - 1, ovfHas := (m.ovfHas.filter fun e => e.1 != off) ++ [(off, n)] }
      | _ => modMsg s id fun m => { m with pend := m.pend - 1, bad := true, held := [], ovfHas := [] }
    msgCheck s id

/-- Data has been read back from the overflow area. -/
def ovfReadEnd (s : Sys) (id off : Nat) (e : AccEnd) : Sys :=
  match e with
  | .ok d => msgCheck (writeOut (modMsg s id fun m => { m with pend := m.pend - 1 }) id off d) id
  | _ => msgCheck (modMsg s id fun m => { m with pend := m.pend - 1, bad := true, held := [], ovfHas := [] }) id

/-- A packet written straight to a receive buffer: its bytes are counted and the message looked at. -/
def placeSendEnd (s : Sys) (p : Packet) (e : AccEnd) : Sys :=
  let s := placeEnd s p e
  match msgOf s (srcOf s p) p.osn, e with
  | some m, .ok _ =>
    msgCheck (modMsg s m.id fun m => { m with placed := m.placed + min p.payload.length (m.buf.2.2 - p.offset) }) m.id
  | _, _ => s

/-! ### Retirement, fresh state, abort (R155, R178 to R180) -/

/-- An access for a segment of a source: its table entry, its translation, its placement, its atomic. -/
def ofSegment (s : Sys) (dev : Nat) (which : Nat → Bool) (a : Acc) : Bool :=
  match a.cont with
  | .place q | .region q | .checkIn q | .atomic q | .atomicW q _ => which q.osn && senderDev s q == some dev
  | _ => false

/-- Events that wait for segments of a source: a notification of a PUT_IMM is dropped, the event of a receive stays, as `g` has it, and no
    longer acknowledges its segment (R142, R148, R155). -/
def unlink (s : Sys) (dev : Nat) (which : Nat → Bool) (g : Ev → Ev) : Sys :=
  let hit := fun (w : Ev × Option (Nat × Nat)) => match w.2 with | some l => l.1 == dev && which l.2 | none => false
  (s.ctxs.filter fun e => e.2.waitEv.any hit).foldl (fun s e =>
    let head := (e.2.waitEv.head?.map hit).getD false
    let s := if head then forgetAccs s fun a => a.ctx == e.1 && (match a.cont with | .event => true | _ => false) else s
    evPump (modCtx s e.1 fun y =>
      { y with waitEv := y.waitEv.filterMap fun w => if hit w then (if w.1.type = 0x81 then none else some (g w.1, none)) else some w }) e.1) s

/-- A source's segments are executed no further. -/
def stopSegments (s : Sys) (dev : Nat) (which : Nat → Bool) : Sys :=
  let s := forgetAccs s (ofSegment s dev which)
  { s with te := { s.te with atomQ := s.te.atomQ.filter fun e => !(which e.2.osn && senderDev s e.2 == some dev) } }

/-- RETIRE_RECEIVE after check 6: the segment ends here without further execution, and no notification of it is raised. A receive whose
    event still waits ends with the RETIRE's status (Table 7.7). -/
def retireIn (s : Sys) (dev : Nat) (p : Packet) : Sys :=
  let s := stopSegments s dev (· == p.osn)
  let status := bits p.operand 8 8
  let s := unlink s dev (· == p.osn) fun e => { e with status := status }
  let s := if p.operand.testBit 0 then
      match msgOf s dev p.osn with
      | some m =>
        (match m.st with
         | .parked => modMsg s m.id fun m => { m with retired := true, held := [] }
         | .unexp => dropMsg s m
         | .taken => dropMsg (recvFail s m status) m)
      | none =>
        match getSrcDev s dev with
        | some r =>
          if osnDiff p.osn r.lms ≤ 0 then s
          else
            let (s, id) := newMsg s dev p .parked
            runChain (modMsg s id fun m => { m with retired := true }) dev
        | none => s
    else s
  ack (markDone (dropAsm s dev p.osn) dev p.osn) p 0

/-- Fresh state for a source device is installed (R142, R180). -/
def freshSrc (s : Sys) (dev sinc osn : Nat) : Sys :=
  let mine := s.me.msgs.filter fun m => m.src == dev
  let s := mine.foldl (fun s m =>
    match m.st with
    | .parked => dropMsg s m
    | .unexp => if m.acked then s else dropMsg s m
    | .taken => if m.acked then s else dropMsg (recvFail s m 3) m) s
  let s := unlink (stopSegments s dev fun _ => true) dev (fun _ => true) id
  { s with te := { s.te with
      srcs := tset s.te.srcs dev { sinc, hc := (osn + 2 ^ 32 - 1) % 2 ^ 32, win := [], lms := 0 },
      results := s.te.results.filter fun r => r.src != dev, asms := s.te.asms.filter fun a => a.src != dev } }

/-- SYNC_RECEIVE after check 3 (R142). -/
def syncIn (s : Sys) (dev : Nat) (p : Packet) : Sys :=
  let sinc := p.operand % 4096
  let s := match getSrcDev s dev with
    | some r => if r.sinc = sinc then s else freshSrc s dev sinc p.osn
    | none => freshSrc s dev sinc p.osn
  ack s p ((((getSrcDev s dev).map (·.hc)).getD 0 + 1) % 2 ^ 32)

/-- A message is held: parked, on the unexpected list, or matched and awaiting completion. One whose receive has ended before its time is
    not (R171, R172). -/
def isHeld (s : Sys) (m : Msg) : Bool :=
  match m.st with
  | .parked | .unexp => true
  | .taken => m.recv.isSome || ((getAsm s m.src m.osn).map (·.due)).getD false

/-- PROBE_RECEIVE after check 6 (R148, R172): the arrival mask of the segment, with HELD for a message that is held. -/
def probeIn (s : Sys) (dev : Nat) (p : Packet) : Sys :=
  let mask := ((getAsm s dev p.osn).map (·.mask)).getD 0
  sack s p (mask + (if ((msgOf s dev p.osn).map (isHeld s)).getD false then 2 ^ 63 else 0))

/-- The messages of a context that enters ABORTING, and those being written into it as a member (R179). The answer counts the
    receives that end. -/
def abortMsgs (s : Sys) (c : Nat) : Sys × Nat :=
  let ends := fun (s : Sys) (r : Recv) =>
    endDesc s c r.seq r.event { Ev.zero c with type := 0x12, status := 2, cookie := r.cookie, w16 := r.mtch }
  let posted := match getCtx s c with | some x => x.posted ++ x.deferred | none => []
  let s := posted.foldl ends (modCtx s c fun y => { y with posted := [], deferred := [] })
  let hit := s.me.msgs.filter fun m => m.st != .parked && (m.head.dctx == c || (m.buf.1 == c && m.st == .taken && m.recv.isSome))
  (hit.foldl (fun s m =>
    let s := recvFail s m 2
    let s := if m.rts then fatal (markDone s m.src m.osn) m.head 2 else s
    let s := if m.acked then s else dropAsm s m.src m.osn
    dropMsg s m) s,
   posted.length + (hit.filter fun m => m.recv.isSome && m.head.dctx == c).length)

end Sys2Proof.Machine
end

