-- ==== Sys2Proof/Machine/Cfe.lean ====
section
/-!
DEFINITION. The command front end: parsing descriptors and refusing them (R80 to R82, R137, R158, R160, R218), fetching (R77 to R79),
and starting operations in ring order (R84, R123, R162, R166, R177, R195).
-/
namespace Sys2Proof.Machine

/-! ### Parsing and refusal -/

/-- The fields of a descriptor's 64 bytes (Table 4.7). -/
def Desc.ofBytes (b : Bytes) : Desc :=
  { opc := num b 0 1, flags := num b 1 1, dctx := num b 2 2, dfeid := num b 4 4, cookie := num b 8 8, w16 := num b 16 8, w24 := num b 24 8,
    w32 := num b 32 4, w36 := num b 36 4, w40 := num b 40 8, w48 := num b 48 8, w56 := num b 56 8 }

/-- Flag bits of a descriptor (Table 4.7). -/
def Desc.event (d : Desc) : Bool := d.flags.testBit 0
/-- FENCE. -/
def Desc.fence (d : Desc) : Bool := d.flags.testBit 1
/-- IMM. -/
def Desc.immF (d : Desc) : Bool := d.flags.testBit 2
/-- INLINE. -/
def Desc.inlined (d : Desc) : Bool := d.flags.testBit 3
/-- PSET. -/
def Desc.pset (d : Desc) : Bool := d.flags.testBit 4
/-- The 20 bits of DFEID or SRC. -/
def Desc.feid (d : Desc) : Nat := d.dfeid % 2 ^ 20

/-- The opcodes of Table 4.8. -/
def opcOk (opc : Nat) : Bool :=
  (decide (1 ≤ opc) && decide (opc ≤ 6)) || opc == 0x10 || opc == 0x12 || opc == 0x13 || opc == 0x20 || opc == 0x3F || opc == 0x40

/-- Opcodes that go to a remote set with PSET (R218). -/
def takesSet (opc : Nat) : Bool := opc == 1 || opc == 2 || opc == 3 || opc == 0x10

/-- An endpoint stands in the active endpoint table. -/
def feidOk (s : Sys) (f : Nat) : Bool := (epCoord s.rt.act f).isSome

/-- The set that a descriptor names is REMOTE and its owner is in the issuing context's PD (R218). -/
def remoteSetOk (s : Sys) (c k : Nat) : Bool :=
  match getSet s k with
  | some p => p.kind == 0 && p.pd == pdidOf s c
  | none => false

/-- The set that a RECV_POST names is LOCAL and its own (Table 9.2; log entry 28). -/
def localSetOk (s : Sys) (c k : Nat) : Bool :=
  match getSet s k with
  | some p => p.kind == 1 && p.owner == c
  | none => false

/-- Reserved fields of RECV_POST and RECV_CANCEL are zero (R160, Tables 7.4 and 7.5). -/
def recvRsvOk (d : Desc) : Bool :=
  let tail := d.w24 == 0 && d.w32 == 0
  if d.opc = 0x13 then tail && d.w36 == 0 && d.w40 == 0 && d.w48 == 0 && d.w56 == 0 && bits d.flags 5 3 == 0
  else tail && d.dfeid / 2 ^ 20 == 0 && d.w56 / 2 == 0 && bits d.flags 5 3 == 0 && (!d.pset || d.w16 / 65536 == 0)

/-- The descriptor is refused with ACCESS (R82, R137, R158, R160, R218). R82 excepts no opcode, FENCE_NOP neither (log entry
    29). -/
def refused (s : Sys) (c : Nat) (d : Desc) : Bool :=
  if opcOk d.opc = false then true
  else if d.inlined && (!(d.opc == 1 || d.opc == 2 || d.opc == 0x10) || decide (8 < d.w36)) then true
  else if d.opc = 0x12 then
    !recvRsvOk d || (if d.pset then !localSetOk s c (d.w16 % 65536) else !d.w56.testBit 0 && !feidOk s d.feid)
  else if d.opc = 0x13 then d.pset || !recvRsvOk d
  else if d.opc = 0x3F then !d.pset && !feidOk s d.feid
  else if d.opc = 0x20 ∨ d.opc = 0x40 then false
  else
    let atomicBad := isAtomicOp d.opc && !atomicOk d.opc (d.w56 % 16) (bits d.w56 4 4) d.w24
    let sendBad := d.opc == 0x10 &&
      ((d.inlined && d.w56.testBit 0) || d.w24 != 0 || d.w32 != 0 || bits d.w48 32 32 != 0 || d.w56 / 256 != 0)
    let destBad := if d.pset then isAtomicOp d.opc || !remoteSetOk s c d.dctx else !feidOk s d.feid
    atomicBad || sendBad || destBad

/-- The event of a descriptor that ends before it has started (R82, Table 4.9). A fetching atomic that has fetched nothing shows ROFFSET
    (log entry 54). -/
def plainEvent (c : Nat) (d : Desc) (status : Nat) : Ev :=
  let low := decide (1 ≤ d.opc) && decide (d.opc ≤ 0x7F)
  { Ev.zero c with
    type := if low then d.opc else 0xC0, status, cookie := d.cookie,
    w16 := if !low then d.opc else if d.opc = 0x10 ∨ d.opc = 0x12 then d.w40 else if 1 ≤ d.opc ∧ d.opc ≤ 6 then d.w24 else 0 }

/-- A descriptor is taken: it gets its place, is refused at once, or its destination is resolved and it waits for its start (R82, R219). -/
def takeDesc (s : Sys) (c : Nat) (b : Bytes) : Sys :=
  match getCtx s c with
  | none => s
  | some x =>
    let d := Desc.ofBytes b
    let seq := x.nextSeq
    let s := modCtx s c fun y => { y with nextSeq := y.nextSeq + 1, live := y.live ++ [seq] }
    let s := fnCount (count s (64 + x.hp) 0x03 1 (fnFilter x.fn)) x.hp x.fn 0 1
    if refused s c d then
      endDesc (count s (64 + x.hp) 0x04 1 (fnFilter x.fn)) c seq d.event (plainEvent c d 4)
    else if d.pset && takesSet d.opc then
      match choose s d.dctx with
      | (s, none) => endDesc s c seq d.event (plainEvent c d 8)
      | (s, some (i, m)) =>
        modCtx s c fun y => { y with descs := y.descs ++
          [{ seq, d, member := some (d.dctx, i), dfeid := m.dfeid, dctx := m.ctx, rkey := m.rkey, roff := (m.base + d.w24) % 2 ^ 64 }] }
    else
      modCtx s c fun y => { y with descs := y.descs ++
        [{ seq, d, member := none, dfeid := d.feid, dctx := d.dctx, rkey := d.w32, roff := d.w24 }] }

/-! ### Fetching (R77 to R79) -/

/-- A COL_START at the head of the fetched descriptors waits for one of 16 operations to end (R197). -/
def colHeld (s : Sys) (c : Nat) (x : Ctx) : Bool :=
  match x.descs with
  | p :: _ => p.d.opc == 0x20 && (match memberOf s p.d.dctx c with | some (m, i) => colFull m i | none => false)
  | [] => false

/-- The device fetches descriptors: not while it quiesces or is quiesced, not in FAULT, and not in steps 3 to 5 of an activation (R61,
    R401, R414). -/
def fetching (s : Sys) : Bool :=
  !s.dev.quiescing && !(s.upd.act.any (·.stopped)) && (match s.dev.st with
    | .ready | .degraded => true
    | .updateStaging => s.dev.stageFrom != .quiesced
    | _ => false)

/-- The slot of a ring after another. -/
def nextSlot (x : Ctx) (i : Nat) : Nat := (i + 1) % 2 ^ x.sqLog

/-- Slots of one fetch from the head: up to 8, to the tail, the end of the ring or a pushed copy. -/
def fetchRun (x : Ctx) : Nat → Nat → Nat
  | 0, _ => 0
  | n + 1, i =>
    if i = x.tail ∨ 2 ^ x.sqLog ≤ i ∨ x.inl.any (fun e => e.1 == i) then 0
    else if i + 1 = 2 ^ x.sqLog then 1 else 1 + fetchRun x n (i + 1)

/-- The head passes slots. -/
def passHead (s : Sys) (c n : Nat) : Sys :=
  modCtx s c fun y => { y with head := (y.head + n) % 2 ^ y.sqLog, headMoved := true, fetching := false }

/-- Descriptors have been fetched: those still before the tail are taken in order. -/
def fetched (s : Sys) (c idx n : Nat) (data : Bytes) : Sys :=
  match getCtx s c with
  | none => s
  | some x =>
    if x.head ≠ idx then modCtx s c fun y => { y with fetching := false }
    else
      let left := (x.tail + 2 ^ x.sqLog - idx) % 2 ^ x.sqLog
      let k := min n left
      (List.range k).foldl (fun s i => takeDesc s c (sub data (64 * i) 64)) (passHead s c k)

/-- DESCRIPTOR_FETCH without what follows from an access that ends at once: a pushed copy is used, or a read is begun. -/
def fetchNext (s : Sys) (c : Nat) : Sys :=
  match getCtx s c with
  | none => s
  | some x =>
    if x.st ≠ .active ∨ fetching s = false ∨ x.fetching = true ∨ x.deferred ≠ [] ∨ colHeld s c x = true ∨ x.head = x.tail then s
    else match x.inl.find? fun e => e.1 == x.head with
    | some e =>
      takeDesc (passHead (modCtx s c fun y => { y with inl := y.inl.erase e }) c 1) c e.2
    | none =>
      let n := fetchRun x 8 x.head
      startAcc (modCtx s c fun y => { y with fetching := true }) c .fetch ((x.sqBase + 64 * x.head) % 2 ^ 64) (64 * n) [] 0
        (.fetchDesc x.head n) none

/-! ### Starting (R84) -/

/-- The first descriptor that has not started, if it has the opcode and may start: the context is ACTIVE, no receive is held back and no
    invalidation runs, and a fence finds every earlier descriptor completed. -/
def canStart (s : Sys) (c opc : Nat) : Option (Ctx × PDesc) :=
  match getCtx s c with
  | none => none
  | some x =>
    match x.descs with
    | [] => none
    | p :: _ =>
      if x.st = .active ∧ x.deferred = [] ∧ x.ringInval.isNone = true ∧ p.d.opc = opc ∧
          ((p.d.fence = true ∨ opc = 0x40) → x.live.all (fun q => decide (p.seq ≤ q)) = true) then some (x, p)
      else none

/-- A descriptor leaves the waiting ones. -/
def popDesc (s : Sys) (c : Nat) : Sys := modCtx s c fun y => { y with descs := y.descs.drop 1 }

/-- There is a route from a host port to a coordinate (R258, R270). -/
def hasRoute (s : Sys) (hp dfeid coord : Nat) : Bool :=
  let p := { Packet.zero with dfeid := dfeid, dcoord := coord, rmode := b2n s.rt.millpond, igroup := 0x3FF, sfeid := feidOf s hp,
                              age := frame s % 256 }
  match routeOf s (64 + hp) p with
  | .drop _ => false
  | _ => true

/-- The operation of a descriptor (R134 to R137, R157, R158). -/
def opOf (s : Sys) (c : Nat) (x : Ctx) (p : PDesc) (coord : Nat) : Op :=
  let d := p.d
  let rdv := d.opc == 0x10 && !d.inlined && (d.w56.testBit 0 || decide (x.eager < d.w36))
  let immV := if d.opc = 2 then true else d.opc == 0x10 && d.immF
  { id := s.te.nextOp, ctx := c, hp := x.hp, seq := p.seq, opc := d.opc, event := d.event, cookie := d.cookie, laddr := d.w16,
    inl := if d.inlined then some ((le 8 d.w16).take d.w36) else none, len := d.w36, roff := p.roff, rkey := p.rkey, dfeid := p.dfeid,
    dctx := p.dctx, dcoord := coord, w40 := d.w40, w48 := d.w48, w56 := d.w56, immV,
    imm := d.w48 % 2 ^ 32, rts := rdv, prev := 0, member := p.member,
    nseg := if isAtomicOp d.opc || d.opc == 0x10 then 1 else max 1 ((d.w36 + 262143) / 262144),
    segNext := 0, firstOsn := 0, acked := 0, value := if d.opc = 5 ∨ d.opc = 6 then p.roff else 0, status := 0, writes := 0 }

/-- An operation toward another endpoint starts, or ends with NO_ROUTE (R258, R270, R452). -/
def startOp (s : Sys) (c opc : Nat) : Sys :=
  match canStart s c opc with
  | none => s
  | some (x, p) =>
    let s := popDesc s c
    let none_ := endDesc s c p.seq p.d.event
      { plainEvent c p.d 8 with w16 := if 1 ≤ opc ∧ opc ≤ 6 then p.roff else (plainEvent c p.d 8).w16,
                                w28 := evW28 false none (evMember opc p.member) }
    match (getHp s x.hp).ownFeid, epCoord s.rt.act p.dfeid with
    | some _, some coord =>
      if hasRoute s x.hp p.dfeid coord then
        { s with te := { s.te with nextOp := s.te.nextOp + 1, ops := s.te.ops ++ [opOf s c x p coord] } }
      else none_
    | _, _ => none_

/-- The receive of a RECV_POST (Table 7.4). -/
def recvOf (p : PDesc) : Recv :=
  { seq := p.seq, event := p.d.event, cookie := p.d.cookie, src := if p.d.w56.testBit 0 then none else some p.d.feid,
    mtch := p.d.w40, ignore := p.d.w48, laddr := p.d.w16, len := p.d.w36, pset := if p.d.pset then some (p.d.w16 % 65536) else none }

/-- RECV_POST starts (R160, R162, R166): matched, posted, or held back by the front end. -/
def startRecv (s : Sys) (c : Nat) : Sys :=
  match canStart s c 0x12 with
  | none => s
  | some (_, p) =>
    let s := popDesc s c
    match post s c (recvOf p) with
    | some s => s
    | none => count (modCtx s c fun y => { y with deferred := y.deferred ++ [recvOf p] }) (68 + c % 16) 0x04 1

/-- DEFERRED_POST_RELEASE (R166): the receive that is held back is posted once an entry is free. -/
def releasePost (s : Sys) (c : Nat) : Sys :=
  match getCtx s c with
  | none => s
  | some x =>
    match x.deferred with
    | [] => s
    | r :: rest => (post (modCtx s c fun y => { y with deferred := rest }) c r).getD s

/-- RECV_CANCEL starts and ends (R177). -/
def startCancel (s : Sys) (c : Nat) : Sys :=
  match canStart s c 0x13 with
  | none => s
  | some (x, p) =>
    let s := popDesc s c
    let hit := x.posted.find? fun r => r.cookie == p.d.w16
    let s := match hit with
      | some r => endDesc (unpost s c r) c r.seq r.event { Ev.zero c with type := 0x12, status := 9, cookie := r.cookie, w16 := r.mtch }
      | none => s
    endDesc s c p.seq p.d.event { Ev.zero c with type := 0x13, cookie := p.d.cookie, len := b2n hit.isSome }

/-- COL_START starts, unless 16 operations of its communicator are outstanding (R195 to R197). -/
def startCol (s : Sys) (c : Nat) : Sys :=
  match canStart s c 0x20 with
  | none => s
  | some (_, p) => (colStart (popDesc s c) c p.seq p.d).getD s

/-- FENCE_NOP performs nothing and ends (Table 4.8). -/
def startFence (s : Sys) (c : Nat) : Sys :=
  match canStart s c 0x3F with
  | none => s
  | some (_, p) => endDesc (popDesc s c) c p.seq p.d.event { Ev.zero c with type := 0x3F, cookie := p.d.cookie }

/-- The ring form of XLAT_INVALIDATE starts (R123): entries go at once, and it ends when the accesses that used them have. -/
def startInval (s : Sys) (c : Nat) : Sys :=
  match canStart s c 0x40 with
  | none => s
  | some (x, p) =>
    let lo := if p.d.w24 = 0 then 0 else p.d.w16 / 4096 * 4096
    let hi := if p.d.w24 = 0 then 2 ^ 64 else lo + 4096 * p.d.w24
    let s := popDesc s c
    let ids := invalWaits s fun a => usesRange s a x.pd lo hi
    modCtx (invalRange s x.pd lo hi) c fun y => { y with ringInval := some (p, ids) }

/-- The ring form ends once its accesses have (R122, R123). -/
def ringInvalEnd (s : Sys) (c : Nat) : Sys :=
  match (getCtx s c).bind (·.ringInval) with
  | some (p, ids) =>
    if invalOver s ids then
      endDesc (modCtx s c fun y => { y with ringInval := none }) c p.seq p.d.event { Ev.zero c with type := 0x40, cookie := p.d.cookie }
    else s
  | none => s

end Sys2Proof.Machine
end

