-- ==== Sys2Proof/Machine/Abort.lean ====
section
/-!
DEFINITION. Aborts of contexts and functions (R64 to R67): what ends when a context enters ABORTING, and how the abort itself ends.
-/
namespace Sys2Proof.Machine

/-- An access made for an inbound packet, with the packet. -/
def inPacket (a : Acc) : Option Packet :=
  match a.cont with
  | .place p | .atomic p | .atomicW p _ | .region p | .checkIn p => some p
  | .readOut p i _ => some { p with pidx := i }
  | _ => none

/-- An inbound packet that was being executed for an aborting context is refused (R65). -/
def refuseIn (s : Sys) (a : Acc) : Sys :=
  match inPacket a with
  | none => s
  | some p =>
    let s := match a.cont with
      | .readOut _ _ _ | .region _ | .checkIn _ => s
      | _ => asmUnmark (atomDrop s p) (srcOf s p) p
    fatal s p 2

/-- Segments whose notification will not be written are refused: complete ones addressed to the context, and those whose event was
    dropped (R65, R148). -/
def refuseDue (s : Sys) (which : Asm → Bool) : Sys :=
  (s.te.asms.filter fun a => isFinalImm a.head && a.full && which a).foldl
    (fun s a => fatal (dropAsm s a.src a.osn) a.head 2) s

/-- What one context has in hand ends with ABORTED (R65, R179, R210); the answer counts operations. -/
def abortWork (s : Sys) (c : Nat) : Sys × Nat :=
  let x := getCtx s c
  let unstarted := (x.map (·.descs)).getD [] ++ ((x.bind (·.ringInval)).map (·.1)).toList
  let s := modCtx s c fun y => { y with descs := [], ringInval := none }
  let (s, n1) := abortOps s c
  let s := unstarted.foldl (fun s p => endDesc s c p.seq p.d.event
    { plainEvent c p.d 2 with w28 := evW28 false none (evMember p.d.opc p.member) }) s
  let (s, n2) := abortMsgs s c
  let (s, n3) := abortCol s c
  (s, n1 + unstarted.length + n2 + n3)

/-- A context enters ABORTING (R65). The caller settles. -/
def abortCtx (s : Sys) (c : Nat) (post : Bool) : Sys :=
  let s := ctxTo s c .aborting post
  let s := modCtx s c fun y =>
    { y with ringSt := false, cmdSt := false, dataSt := false, fetching := false, inl := [], bound := none, abortOps := 0, abortDrop := 0 }
  let s := dropHolds s fun h => h.ctx == c
  let mine := fun (a : Acc) => a.ctx == c && (a.cont != .event || a.held)
  let inb := (s.xl.accs.filter fun a => mine a && (inPacket a).isSome) ++
    ((s.xl.fin.map (·.1)).filter fun a => mine a && (inPacket a).isSome)
  let s := inb.foldl refuseIn (forgetAccs s mine)
  let (s, n) := abortWork s c
  let s := refuseDue s fun a => a.head.dctx == c && !a.due
  evPump (modCtx s c fun y => { y with abortOps := n }) c

/-- The contexts of a function. -/
def ctxsOf (s : Sys) (hp fn : Nat) : List Nat := (s.ctxs.filter fun e => e.2.hp == hp && e.2.fn == fn).map (·.1)

/-- A context that an abort can take (R64). -/
def abortable (s : Sys) (c : Nat) : Bool :=
  match getCtx s c with
  | some x => x.st == .created || x.st == .active || x.st == .stalled
  | none => false

/-- Every context of a function that can be aborted enters ABORTING (R65 to R67). -/
def abortFn (s : Sys) (hp fn : Nat) (post : Bool) : Sys :=
  ((ctxsOf s hp fn).filter (abortable s)).foldl (fun s c => abortCtx s c post) s

/-- Host reads of a context that still hold tags. -/
def ctxReads (s : Sys) (c : Nat) : Nat := (s.hps.map fun h => (h.reads.filter fun r => r.ctx == c).length).sum

/-- Host reads of a context that are not yet orphaned. -/
def ctxLive (s : Sys) (c : Nat) : Nat := (s.hps.map fun h => (h.reads.filter fun r => r.ctx == c && !r.orphan).length).sum

/-- A CTX_ABORT of a context is in progress; the answer is who asked (R67). -/
def ctxAborter (s : Sys) (c : Nat) : Option Requester :=
  (s.svc.pend.find? fun p => p.res.isNone && (match p.wait with | .ctxAbort k _ => k == c | _ => false)).map (·.who)

/-- An FN_ABORT of a function is in progress; the answer is who asked. -/
def fnAborter (s : Sys) (hp fn : Nat) : Option Requester :=
  (s.svc.pend.find? fun p => p.res.isNone && (match p.wait with | .fnAbort h g _ _ _ _ _ => h == hp && g == fn | _ => false)).map (·.who)

/-- The frame at which a context's abort reaches its bound (R66, R67, R93); one whose command a restart of the CC ended keeps it. -/
def abortDeadline (s : Sys) (c : Nat) : Option Nat :=
  let own := s.svc.pend.findSome? fun p => match p.wait with
    | .ctxAbort k d => if p.res.isNone && k == c then some d else none
    | _ => none
  match own, getCtx s c with
  | some d, _ => some d
  | none, some x =>
    let fn := s.svc.pend.findSome? fun p => match p.wait with
      | .fnAbort h g d _ _ _ _ => if p.res.isNone && h == x.hp && g == x.fn then some d else none
      | _ => none
    (fn.or ((getFn s x.hp x.fn).flr.map (·.deadline))).or x.bound
  | none, none => none

/-- The result of an abort (R66). -/
def abortBytes (ops orph pending drop : Nat) : Bytes := le 4 ops ++ le 4 orph ++ le 4 pending ++ le 4 drop

/-- An FN_ABORT has ended if no context that it took in is still ABORTING (R66, R67). -/
def fnAbortCheck (s : Sys) (hp fn : Nat) : Sys :=
  let busy := (ctxsOf s hp fn).any fun c =>
    (match getCtx s c with | some x => x.st == .aborting | none => false) && (ctxAborter s c).isNone
  if busy then s
  else match s.svc.pend.find? fun p => p.res.isNone && (match p.wait with | .fnAbort h g _ _ _ _ _ => h == hp && g == fn | _ => false) with
  | some p =>
    match p.wait with
    | .fnAbort _ _ _ ops orph pend drop =>
      endPend (modFn s hp fn fun g => { g with fnAbort := false }) p .ok (abortBytes ops orph pend drop)
    | _ => s
  | none => s

/-- A context's abort has ended: it is DRAINED, or DRAINED_PENDING while host reads hold tags; the command that asked ends, or its count
    goes to the FN_ABORT that took the context in (R63, R66). What it held is retired with it (R121). -/
def abortEnd (s : Sys) (c orph : Nat) : Sys :=
  match getCtx s c with
  | none => s
  | some x =>
    let s := dropHolds s fun h => h.ctx == c
    let pend := decide (0 < ctxReads s c)
    let by_ := (ctxAborter s c).or (fnAborter s x.hp x.fn)
    let post := by_ != some (.fn x.hp x.fn) && (getFn s x.hp x.fn).flr.isNone
    let s := ctxTo s c (if pend then .drainedPending else .drained) post
    match ctxAborter s c with
    | some _ => endWait s (fun w => match w with | .ctxAbort k _ => k == c | _ => false) .ok
        (abortBytes x.abortOps orph (b2n pend) x.abortDrop)
    | none =>
      let s := { s with svc := { s.svc with pend := s.svc.pend.map fun p =>
        match p.wait with
        | .fnAbort h g d a b e f =>
          if p.res.isNone && h == x.hp && g == x.fn then
            { p with wait := .fnAbort h g d (a + x.abortOps) (b + orph) (e + b2n pend) (f + x.abortDrop) }
          else p
        | _ => p } }
      fnAbortCheck s x.hp x.fn

/-- ABORT_COMPLETE (R66): nothing of the context is outstanding any more. -/
def abortComplete (s : Sys) (c : Nat) : Sys :=
  match getCtx s c with
  | none => s
  | some x =>
    if x.st ≠ .aborting ∨ x.waitEv ≠ [] ∨ ctxReads s c ≠ 0 ∨ s.xl.accs.any (fun a => a.ctx == c) = true then s
    else abortEnd s c 0

/-- ABORT_BOUND_REACHED (R66): at the bound the reads of the context are orphaned, and events not written are dropped. -/
def abortBound (s : Sys) (c : Nat) : Sys :=
  match getCtx s c, abortDeadline s c with
  | some x, some d =>
    if x.st ≠ .aborting ∨ frame s < d then s
    else
      let n := ctxLive s c
      let s := forgetAccs s fun a => a.ctx == c
      let s := { s with hps := s.hps.map fun h => { h with
        rdWait := h.rdWait.filter fun r => r.ctx != c,
        reads := h.reads.map fun r => if r.ctx == c then { r with orphan := true } else r } }
      let s := modCtx s c fun y => { y with abortDrop := y.abortDrop + y.waitEv.length, waitEv := [] }
      let s := refuseDue s fun a => a.due && a.head.dctx == c
      abortEnd s c n
  | _, _ => s

/-- A read tag of a context has cleared: DRAINED_PENDING ends with the last one (R63, R66). -/
def drainCheck (s : Sys) (c : Nat) : Sys :=
  match getCtx s c with
  | some x => if x.st = .drainedPending ∧ ctxReads s c = 0 then ctxTo s c .drained (getFn s x.hp x.fn).flr.isNone else s
  | none => s

end Sys2Proof.Machine
end

