-- ==== Sys2Proof/Machine/Finish.lean ====
section
/-!
DEFINITION. What follows when host accesses end: each hands its end to what started it, until none is left; then events that can be
written, the atomics that wait, and the commands whose waits are over: invalidations, deregistrations, removals of placement members
(R104, R122, R123, R231).
-/
namespace Sys2Proof.Machine

/-- An event access has ended: the ring moves on, and the segment that waited for it is acknowledged (R85, R148, R170). -/
def eventEnd (s : Sys) (c : Nat) : Sys :=
  let link := ((getCtx s c).bind fun x => x.waitEv.head?).bind (·.2)
  let s := evWritten s c
  let s := match link with | some l => linkDone s l | none => s
  evPump s c

/-- The fetched value of an atomic has been written to LADDR, or could not be (R137). -/
def fetchedEnd (s : Sys) (id : Nat) (e : AccEnd) : Sys :=
  let bad := match e with | .ok _ => false | _ => true
  checkOp (modOp s id fun o => { o with writes := o.writes - 1, status := if bad && o.status == 0 then 5 else o.status }) id

/-- The read of one packet's payload has ended (R120, R140). -/
def payloadEnd (s : Sys) (a : Acc) (idx i : Nat) (e : AccEnd) : Sys :=
  match e with
  | .ok d => payloadRead s a idx i d
  | _ =>
    let s := match getSeg s idx with | some g => failSeg s g 5 | none => s
    release s a.hp a.ctx

/-- An access has ended: what started it goes on. -/
def accDone (s : Sys) (a : Acc) (e : AccEnd) : Sys :=
  let s := clearReason s a
  match a.cont with
  | .fetchDesc idx n => (match e with | .ok d => fetched s a.ctx idx n d | _ => s)
  | .event => eventEnd s a.ctx
  | .headWb => s
  | .payload _ idx i => payloadEnd s a idx i e
  | .place p => if isSend p.op then placeSendEnd s p e else placeEnd s p e
  | .readOut p i off => readOutEnd s p i off e
  | .region p => regionEnd s a p e
  | .checkIn p => admitEnd s a p e
  | .atomic p => atomicStart (atomicEnd s p a.addr none e)
  | .atomicW p old => atomicStart (atomicEnd s p a.addr (some old) e)
  | .land p => landEnd s p e
  | .fetched op => fetchedEnd s op e
  | .deliver m _ n => deliverEnd s m n e
  | .ovfWrite m off n => ovfWriteEnd s m off n e
  | .ovfRead m off => ovfReadEnd s m off e
  | .colRead k ctx cseq off expo => contributed s k ctx cseq off expo e
  | .colWrite k ctx cseq => wroteCol s k ctx cseq a.len e
  | .colList k ctx _ => listRead s k ctx e

/-- Ends of accesses are taken up one after another, within `n` of them. -/
def drain : Nat → Sys → Sys
  | 0, s => s
  | n + 1, s =>
    match s.xl.fin with
    | [] => s
    | (a, e) :: rest => drain n (accDone { s with xl := { s.xl with fin := rest } } a e)

/-- The events that wait are written where they can be. -/
def pumpAll (s : Sys) : Sys :=
  (s.ctxs.filter fun e => e.2.waitEv ≠ []).foldl (fun s e => evPump s e.1) s

/-- Notifications whose event an abort has dropped are refused (R65, R148). -/
def refuseLost (s : Sys) : Sys :=
  refuseDue s fun a => a.due && !(s.ctxs.any fun e => e.2.waitEv.any fun w => w.2 == some (a.src, a.osn))

/-- An inbound access of a port that uses a region table entry is in progress (R104). -/
def regionBusy (s : Sys) (hp idx : Nat) : Bool :=
  (s.xl.accs.any fun a => match inPacket a with
    | some p => !isSend p.op && portOf p == hp && p.rkey % 2 ^ 24 == idx
    | none => false) ||
  (s.te.atomQ.any fun e => portOf e.2 == hp && e.2.rkey % 2 ^ 24 == idx)

/-- A running command whose accesses are over ends with OK: XLAT_INVALIDATE and REGION_DEREGISTER (R104, R122). -/
def waitsOver (s : Sys) : Sys :=
  endWait s (fun w => match w with
    | .invalidate ids => invalOver s ids
    | .deregister hp idx => !regionBusy s hp idx
    | _ => false) .ok []

/-- Ring invalidations whose accesses are over end (R123). -/
def ringInvals (s : Sys) : Sys :=
  (s.ctxs.filter fun e => e.2.ringInval.isSome).foldl (fun s e => ringInvalEnd s e.1) s

/-- Something assigned to a member of a set is in flight: a descriptor that waits, an operation, a message (R231). -/
def memberBusy (s : Sys) (k i : Nat) : Bool :=
  ((getSet s k).map fun p => p.elig.testBit i).getD false ||
  (s.ctxs.any fun e => e.2.descs.any fun d => d.member == some (k, i)) || (s.te.ops.any fun o => o.member == some (k, i)) ||
    (s.me.msgs.any fun m => m.member == some (k, i))

/-- A member of a set is free of its index. -/
def dropMember (s : Sys) (k i : Nat) : Sys := modSet s k fun p => { p with members := tdel p.members i, elig := if p.elig.testBit i then p.elig - 2 ^ i else p.elig }

/-- Removals whose members have nothing in flight end (R231). -/
def psetEnds (s : Sys) : Sys :=
  (s.svc.pend.filter fun p => p.res.isNone).foldl (fun s p =>
    match p.wait with
    | .psetRemove k i => if memberBusy s k i then s else endPend (dropMember s k i) p .ok []
    | .psetDestroy k =>
      if (((getSet s k).map fun x => x.members.any fun m => memberBusy s k m.1).getD false) then s
      else endPend { s with pe := { s.pe with sets := tdel s.pe.sets k } } p .ok []
    | _ => s) s

/-- How many ends of accesses one command can set in motion in this model. -/
def settleFuel : Nat := 1048576

/-- Everything that ends in the course of a command is taken up, and what now has room is built (R450). -/
def settle (s : Sys) : Sys :=
  let s := drain settleFuel (pumpAll (atomicStart (buildAll s)))
  let s := ringInvals (waitsOver s)
  psetEnds (refuseLost (drain settleFuel (buildAll s)))

end Sys2Proof.Machine
end

