-- ==== Sys2Proof/Machine/Rings.lean ====
section
/-!
DEFINITION. The rows of the doorbell pages and the submission rings (R75 to R92): tails, pushes, heads, fetching and starting descriptors,
segment issue, injection; and those of aborts that end (R66).
-/
namespace Sys2Proof.Machine

/-! ### Doorbell pages (R75 to R78, R85, R88) -/

/-- The context behind a doorbell page, if a write reaches one (R72, R76, R93). -/
def pageCtx (s : Sys) (hp fn page : Nat) : Option Nat :=
  let g := getFn s hp fn
  if g.ctxQuota ≤ page ∨ g.flr.isSome then none
  else ((s.ctxs.find? fun e => e.2.hp == hp && e.2.fn == fn && e.2.slot == page).filter fun e =>
    e.2.st == .created || e.2.st == .active || e.2.st == .stalled).map (·.1)

/-- A doorbell write is discarded and counted (R76, R78): event 0x01, or 0x02 for a write to the INLINE window of another shape. -/
def discard (s : Sys) (hp fn ev : Nat) : Sys := fnCount (count s (64 + hp) ev 1 (fnFilter fn)) hp fn 6 1

/-- A write to a doorbell page that reaches a context, or is discarded; a function that is not presented decodes nothing (R93). -/
def atPage (s : Sys) (hp fn page : Nat) (g : Nat → Sys) : Sys :=
  if fnPresent s hp fn = false then s
  else match pageCtx s hp fn page with
  | some c => g c
  | none => discard s hp fn 0x01

/-- SQ_TAIL_WRITE (R77, Table 4.3). -/
def runSqTailWrite (_f : FuseBank) (s : Sys) (hp fn page value : Nat) : Sys :=
  atPage s hp fn page fun c => modCtx s c fun x => { x with tail := value % 65536 % 2 ^ x.sqLog }

/-- Pushed descriptors in a port's inline store. -/
def inlUsed (s : Sys) (hp : Nat) : Nat := ((s.ctxs.filter fun e => e.2.hp == hp).map fun e => e.2.inl.length).sum

/-- INLINE_PUSH (R78). A pushed copy is kept in an ACTIVE context that holds fewer than 16, within 256 for the port. -/
def runInlinePush (_f : FuseBank) (s : Sys) (hp fn page off : Nat) (data : Bytes) : Sys :=
  atPage s hp fn page fun c =>
    if off < 0x800 ∨ 0x840 ≤ off then s
    else if off ≠ 0x800 ∨ data.length ≠ 64 then discard s hp fn 0x02
    else
      let room := decide (inlUsed s hp < 256)
      modCtx s c fun x =>
        let keep := x.st == .active && decide (x.inl.length < 16) && room
        { x with inl := if keep then (x.inl.filter fun e => e.1 != x.tail) ++ [(x.tail, data)] else x.inl, tail := nextSlot x x.tail }

/-- Events written and not consumed once a head is written (R87; log entry 23). -/
def eqUsedAt (x : Ctx) (h : Nat) : Nat :=
  let n := 2 ^ x.eqLog
  let left := (x.eqTail + n - h) % n
  if left = 0 ∧ x.eqUsed = n ∧ h = x.eqHead then n else left

/-- EQ_HEAD_WRITE (R85, R88, Table 4.4): the head, and ARM, which is evaluated against every event written so far. -/
def runEqHeadWrite (_f : FuseBank) (s : Sys) (hp fn page value : Nat) : Sys :=
  atPage s hp fn page fun c =>
    let s := modCtx s c fun x =>
      let h := value % 65536 % 2 ^ x.eqLog
      { x with eqUsed := eqUsedAt x h, eqHead := h, armed := x.armed || value.testBit 31 }
    match getCtx s c with
    | some x => if modByCount x || modByTime s x then evInterrupt s c else s
    | none => s

/-- ADMIN_HEAD_WRITE (R53, Table 3.21). -/
def runAdminHeadWrite (_f : FuseBank) (s : Sys) (hp fn value : Nat) : Sys :=
  if fnPresent s hp fn = false ∨ (getFn s hp fn).flr.isSome then s
  else modMbx s hp fn fun m => { m with adminHead := value % 4096, admin := m.admin.map fun r => r.headTo (value % 4096) }

/-- XFAULT_HEAD_WRITE (R53, Table 3.22). -/
def runXfaultHeadWrite (_f : FuseBank) (s : Sys) (hp fn value : Nat) : Sys :=
  if fnPresent s hp fn = false ∨ (getFn s hp fn).flr.isSome then s
  else modMbx s hp fn fun m => { m with xfHead := value % 4096, xfault := m.xfault.map fun r => r.headTo (value % 4096) }

/-! ### Fetching and starting (R79, R84) -/

/-- DESCRIPTOR_FETCH (R78, R79). -/
def runDescriptorFetch (_f : FuseBank) (s : Sys) (ctx : Nat) : Sys := settle (fetchNext s ctx)
/-- PUT (R134). -/
def runPut (_f : FuseBank) (s : Sys) (ctx : Nat) : Sys := settle (startOp s ctx 1)
/-- PUT_IMM (R135). -/
def runPutImm (_f : FuseBank) (s : Sys) (ctx : Nat) : Sys := settle (startOp s ctx 2)
/-- GET (R136). -/
def runGet (_f : FuseBank) (s : Sys) (ctx : Nat) : Sys := settle (startOp s ctx 3)
/-- ATOMIC (R137). -/
def runAtomic (_f : FuseBank) (s : Sys) (ctx : Nat) : Sys := settle (startOp s ctx 4)
/-- FETCH_ATOMIC (R137). -/
def runFetchAtomic (_f : FuseBank) (s : Sys) (ctx : Nat) : Sys := settle (startOp s ctx 5)
/-- CSWAP (R137). -/
def runCswap (_f : FuseBank) (s : Sys) (ctx : Nat) : Sys := settle (startOp s ctx 6)
/-- SEND (R157, R158). -/
def runSend (_f : FuseBank) (s : Sys) (ctx : Nat) : Sys := settle (startOp s ctx 0x10)
/-- RECV_POST (R160, R162, R166). -/
def runRecvPost (_f : FuseBank) (s : Sys) (ctx : Nat) : Sys := settle (startRecv s ctx)
/-- RECV_CANCEL (R177). -/
def runRecvCancel (_f : FuseBank) (s : Sys) (ctx : Nat) : Sys := settle (startCancel s ctx)
/-- COL_START (R195 to R197). -/
def runColStart (_f : FuseBank) (s : Sys) (ctx : Nat) : Sys := settle (startCol s ctx)
/-- FENCE_NOP (Table 4.8, R84). -/
def runFenceNop (_f : FuseBank) (s : Sys) (ctx : Nat) : Sys := settle (startFence s ctx)
/-- The ring form of XLAT_INVALIDATE (R123). -/
def runXlatInvalidateRing (_f : FuseBank) (s : Sys) (ctx : Nat) : Sys := settle (startInval s ctx)
/-- DEFERRED_POST_RELEASE (R166). -/
def runDeferredPostRelease (_f : FuseBank) (s : Sys) (ctx : Nat) : Sys := settle (releasePost s ctx)

/-- In FAULT the transport engine issues nothing (R414, Table 17.6). -/
def unlessFault (s : Sys) (t : Sys) : Sys := if s.dev.st = .fault then s else t

/-- SEGMENT_ISSUE (R140, R141). -/
def runSegmentIssue (_f : FuseBank) (s : Sys) (op : Nat) : Sys := unlessFault s (settle (issueSeg s op))
/-- PACKET_INJECT (R90, R91, R260, R450). -/
def runPacketInject (_f : FuseBank) (s : Sys) (hp : Nat) : Sys := unlessFault s (settle (injectNext s hp))
/-- RDV_PULL_ISSUE (R173). -/
def runRdvPullIssue (_f : FuseBank) (s : Sys) (msg : Nat) : Sys := unlessFault s (settle (pullIssue s msg))
/-- DEFERRED_MEMBER_CHOICE (R220). -/
def runDeferredMemberChoice (_f : FuseBank) (s : Sys) (msg : Nat) : Sys := settle (memberChoice s msg)

/-- ABORT_COMPLETE (R66). -/
def runAbortComplete (_f : FuseBank) (s : Sys) (ctx : Nat) : Sys := settle (abortComplete s ctx)
/-- ABORT_BOUND_REACHED (R66). -/
def runAbortBoundReached (_f : FuseBank) (s : Sys) (ctx : Nat) : Sys := settle (abortBound s ctx)

end Sys2Proof.Machine
end

