-- ==== Sys2Proof/Machine/HostRows.lean ====
section
/-!
DEFINITION. The rows of the PCI Express side of a host port: function and port resets, VF Enable, link training, the ends of device
reads, and MSI-X unmasking (R69, R73, R93, R94, R108).
-/
namespace Sys2Proof.Machine

/-- The functions that a link presents (R71, R93). -/
def fnsOfLink (s : Sys) (hp : Nat) (b : Bool) : List Nat :=
  let vfs := (List.range 64).filter fun fn => fn != 0 && onLinkB s hp fn == b
  (if b then [] else [0]) ++ (if (getLink s hp b).vfEn then vfs else [])

/-- The virtual functions of a link, presented or not. -/
def vfsOfLink (s : Sys) (hp : Nat) (b : Bool) : List Nat := (List.range 64).filter fun fn => fn != 0 && onLinkB s hp fn == b

/-- Steps 1 and 2 of R93 for one function: Bus Master Enable is clear, an abort with the bound of 400 frames begins, and the function's
    reads are orphaned at once. Packets that wait for a table entry to be read for the PF are to come again (DESIGN CHOICE, log entry 129). -/
def flrStart (s : Sys) (hp fn : Nat) : Sys :=
  if (getFn s hp fn).flr.isSome then s
  else
    let s := if fn = 0 then (s.xl.accs.filter fun a => readsRegion a && a.hp == hp).foldl (fun s a => endAcc s a .retry) s else s
    let s := modFn s hp fn fun g => { g with bme := false, flr := some { start := frame s, deadline := frame s + 400 }, fnAbort := true }
    let s := abortFn s hp fn false
    let s := forgetAccs s fun a => a.hp == hp && a.fn == fn && !readsRegion a && (ctxsOf s hp fn).contains a.ctx
    { s with hps := s.hps.modify hp fun h => { h with
        rdWait := h.rdWait.filter fun r => r.fn != fn,
        reads := h.reads.map fun r => if r.fn == fn then { r with orphan := true } else r } }

/-- VF Enable of a link is cleared: every VF that it presents is reset (R93). -/
def vfClear (s : Sys) (hp : Nat) (b : Bool) : Sys :=
  let vfs := (fnsOfLink s hp b).filter (· != 0)
  modLink (vfs.foldl (fun s fn => flrStart s hp fn) s) hp b fun l => { l with vfEn := false }

/-- FUNCTION_LEVEL_RESET (R93). That of the PF clears VF Enable on its link. -/
def runFunctionLevelReset (_f : FuseBank) (s : Sys) (hp fn : Nat) : Sys :=
  if fnPresent s hp fn = false then s
  else settle (if fn = 0 then vfClear (flrStart s hp 0) hp false else flrStart s hp fn)

/-- A context leaves for FREE: its reads keep their tags and belong to nobody (R63, R93). -/
def freeCtx (s : Sys) (c : Nat) : Sys :=
  let s := dropHolds (forgetAccs s fun a => a.ctx == c) fun h => h.ctx == c
  { s with
    ctxs := tdel s.ctxs c,
    hps := s.hps.map fun h => { h with reads := h.reads.map fun r => if r.ctx == c then { r with ctx := 65536, orphan := true } else r } }

/-- A freed context's placement sets go, and it leaves every other set (R231). -/
def dropSets (s : Sys) (c : Nat) : Sys :=
  let own := (s.pe.sets.filter fun e => e.2.owner == c).map (·.1)
  let s := endWait s (fun w => match w with | .psetDestroy k => own.contains k | .psetRemove k _ => own.contains k | _ => false) .ok []
  { s with pe := { s.pe with
      sets := tmap (s.pe.sets.filter fun e => e.2.owner != c) fun _ p =>
        let gone := (p.members.filter fun m => p.kind != 0 && m.2.ctx == c).map (·.1)
        { p with members := p.members.filter fun m => !gone.contains m.1,
                 elig := gone.foldl (fun e i => if e.testBit i then e - 2 ^ i else e) p.elig } } }

/-- The 32 bytes of a region table entry (Table 5.4). -/
def Region.bytes (r : Region) : Bytes :=
  le 8 r.base ++ le 8 r.len ++ le 2 r.pd ++ le 1 r.rights ++ le 1 r.gen ++ le 1 r.fn ++ le 1 r.lgen ++ zeros 10

/-- A region entry written in a port's table, in the copy that the L2 TLB holds and to the memory behind it (R102, R104). -/
def putRegion (s : Sys) (hp i : Nat) (r : Region) (last : Bool) : Sys :=
  match (getHp s hp).regtab with
  | none => s
  | some t =>
    let s := modHp s hp fun h => { h with regtab := some { t with ents := tset t.ents i r, last := if last then i else t.last } }
    hostWrite (staleReads (regionPut s hp i r) hp (· == i)) hp 0 (t.bus + 32 * i) r.bytes false none

/-- Every PD of a function goes, with its regions and translations (R93, R101, R104). -/
def dropPds (s : Sys) (hp fn : Nat) : Sys :=
  let ids := (s.xl.pds.filter fun e => e.2.hp == hp && e.2.fn == fn).map (·.1)
  let s := ids.foldl invalPdAll s
  let gone : List (Nat × Region) := match (getHp s hp).regtab with
    | some t => t.ents.filter fun e => ids.contains e.2.pd && e.2.gen != 0
    | none => []
  let s := gone.foldl (fun s e => putRegion s hp e.1 { e.2 with gen := 0, lgen := e.2.gen } false) s
  { s with xl := { s.xl with pds := s.xl.pds.filter fun e => !ids.contains e.1 } }

/-- A function's registers, rings and vectors as step 4 of R93 leaves them: what a privileged requester set for it stays. -/
def Fn.afterFlr (g : Fn) : Fn :=
  { g with mbx := Mbx.reset, unmasked := [], msixPend := [], notifyMask := 0, notifyVec := 0, dump := Dump.reset, tph := false,
           stTab := [], flr := none, fnAbort := false, bme := false, ctrs := List.replicate 8 0 }

/-- Whether the device answers configuration requests yet (R325). -/
def served (s : Sys) : Bool := match s.dev.st with | .wiping | .boot => false | _ => true

/-- FLR_CLEANUP (R93, steps 3 and 4): once the abort has ended, the function is returned to its reset state. -/
def runFlrCleanup (_f : FuseBank) (s : Sys) (hp fn : Nat) : Sys :=
  if (getFn s hp fn).flr.isNone ∨
     (ctxsOf s hp fn).any (fun c => match getCtx s c with | some x => x.st == .aborting | none => false) = true then s
  else
    let me : Requester := .fn hp fn
    let s := endSessions s (fun x => x.who == me) 3 (fun w => w == me)
    let cs := ctxsOf s hp fn
    let s := cs.foldl (fun s c => freeCtx (dropSets s c) c) s
    let s := modFn (dropPds s hp fn) hp fn Fn.afterFlr
    let b := onLinkB s hp fn
    let busy := (List.range 64).any fun k => onLinkB s hp k == b && (getFn s hp k).flr.isSome
    settle (if busy then s else modLink s hp b fun l => { l with crs := !l.up || !served s, inReset := !l.up })

/-- HOST_PORT_RESET (R94): PERST (cause 1), hot reset (2) or link loss (3). The link is down, its reads
    clear and their tags serve the port's other link, its configuration is at reset values and its functions are reset. -/
def runHostPortReset (_f : FuseBank) (s : Sys) (hp : Nat) (linkB : Bool) (cause : Nat) : Sys :=
  let fns := fnsOfLink s hp linkB
  let s := modHp s hp fun h => { h with
    rdWait := h.rdWait.filter fun r => r.link != linkB, reads := h.reads.filter fun r => r.link != linkB }
  let s := modLink s hp linkB fun l =>
    { HLink.reset with crs := true, vfEn := l.vfEn, perst := l.perst || cause == 1, inReset := true }
  let s := readNext s hp
  let s := (fns.filter (· == 0)).foldl (fun s fn => flrStart s hp fn) s
  let s := vfClear s hp linkB
  settle (raise s { src := 64 + hp, cause, cls := 1, detail := 0, addr := 0, access := 0, master := 0, inst := hp })

/-- PERST_DEASSERT (R94, R325): the link may train. -/
def runPerstDeassert (_f : FuseBank) (s : Sys) (hp : Nat) (linkB : Bool) : Sys :=
  modLink s hp linkB fun l => { l with perst := false }

/-- HOST_LINK_TRAINED (R68, R71, R94, R325, R341): the link is up at a rate and width unless its PERST is low, phase 1 has not ended or its
    domains are not ON, and answers once no function of it is being reset. From 64 GT/s on it is in flit mode, below if both ends support it.
    Its reference clock runs. -/
def runHostLinkTrained (_f : FuseBank) (s : Sys) (hp : Nat) (linkB : Bool) (rate width : Nat) (flit : Bool) : Sys :=
  if s.dev.st = .wiping ∨ (getLink s hp linkB).perst ∨ s.pwr.hpOff.contains hp ∨ swdState s (96 + hp) ≠ 2 ∨ swdState s (100 + hp) ≠ 2 then s
  else
    let s := { s with pins := { s.pins with refHp := s.pins.refHp.set hp true } }
    let busy := (List.range 64).any fun k => onLinkB s hp k == linkB && (getFn s hp k).flr.isSome
    modLink s hp linkB fun l =>
      { l with up := true, crs := busy || !served s, inReset := busy, rate, width := if (getHp s hp).bifd then min 8 width else width,
               flit := flit || decide (64 ≤ rate) }

/-- VF_ENABLE_CLEAR (R93). -/
def runVfEnableClear (_f : FuseBank) (s : Sys) (hp : Nat) (linkB : Bool) : Sys := settle (vfClear s hp linkB)

/-- VF_ENABLE_SET (R93): each VF returns with its defaults. -/
def runVfEnableSet (_f : FuseBank) (s : Sys) (hp : Nat) (linkB : Bool) : Sys :=
  if (getLink s hp linkB).vfEn then s
  else
    let s := (vfsOfLink s hp linkB).foldl (fun s fn =>
      modFn s hp fn fun g => { Fn.reset fn s.upd.vfDb s.upd.msixPf s.upd.msixVf with flr := g.flr, bme := g.bme, fnAbort := g.fnAbort }) s
    modLink s hp linkB fun l => { l with vfEn := true }

/-- Whose read a tag is. -/
def readOf (s : Sys) (hp tag : Nat) : Option ReadE := (getHp s hp).reads.find? fun r => r.tag == tag

/-- The access of a read fetches descriptors. -/
def isFetch (s : Sys) (r : ReadE) : Bool := match getAcc s r.acc with | some a => a.kind == .fetch && !r.walk | none => false

/-- An event of a host port about one of its reads (Table 17.2). -/
def readFault (s : Sys) (hp : Nat) (r : ReadE) (cause : Nat) : Sys :=
  raise s { src := 64 + hp, cause, cls := 1, detail := r.tag, addr := r.bus, access := if isFetch s r then 4 else 1, master := 2,
            inst := hp * 64 + r.fn }

/-- A read has ended one way or the other: what it served goes on, and a drained context may leave DRAINED_PENDING. -/
def readOver (s : Sys) (hp : Nat) (r : ReadE) (res : Cause ⊕ Bytes) : Sys := drainCheck (settle (readEnd s hp r.tag res)) r.ctx

/-- HOST_READ_COMPLETION (R66, R108): data, or a completion that failed or was poisoned. -/
def runHostReadCompletion (_f : FuseBank) (s : Sys) (hp tag : Nat) (ok poisoned : Bool) (data : Bytes) : Sys :=
  match readOf s hp tag with
  | none => s
  | some r =>
    let s := if ok && poisoned then readFault s hp r 5 else s
    if ok && !poisoned then readOver (count s (64 + hp) 0x41 r.len) hp r (.inr data) else readOver s hp r (.inl .hostBus)

/-- The completion timeout of a read, in frames of 640 ns, not below the time of Device Control 2 (R69). -/
def ctoFrames (s : Sys) (hp : Nat) (r : ReadE) : Nat := ((getLink s hp r.link).ctoUs * 25 + 15) / 16

/-- HOST_COMPLETION_TIMEOUT (R69, R108): the read has been outstanding for the timeout of its link. -/
def runHostCompletionTimeout (_f : FuseBank) (s : Sys) (hp tag : Nat) : Sys :=
  match readOf s hp tag with
  | none => s
  | some r => if frame s < r.at_ + ctoFrames s hp r then s else readOver (readFault s hp r 4) hp r (.inl .hostTimeout)

/-- MSIX_VECTOR_UNMASK (R73): a pending message is sent, at once or when the function may send it (log entry 148). -/
def runMsixVectorUnmask (_f : FuseBank) (s : Sys) (hp fn vec : Nat) : Sys :=
  let g := getFn s hp fn
  if fnPresent s hp fn = false ∨ g.msixSize ≤ vec ∨ g.unmasked.contains vec ∨ g.flr.isSome then s
  else
    msixFlush (setFn s hp fn { g with unmasked := g.unmasked ++ [vec] }) hp fn

end Sys2Proof.Machine
end

