-- ==== Sys2Proof/Machine/Contexts.lean ====
section
/-!
DEFINITION. The commands on contexts (families 0x01 and the matching and scheduling commands of contexts: R64, R89, R92, R97 to R100,
R181, R182) and TE_CONFIG (R153), with the reach of a requester (R55, R97).
-/
namespace Sys2Proof.Machine

/-! ### Reach (R97, Table 5.1) -/

/-- A target function lies within the requester's reach: its own needs no session; another of the same host port, or any over MCTP,
    needs a session that permits the family. -/
def reachFn (f : FuseBank) (s : Sys) (q : MbxReq) (hp fn fam : Nat) : Option Status :=
  match q.who with
  | .fn h g =>
    if h = hp ∧ g = fn then none
    else if h ≠ hp ∨ g ≠ 0 then some .privilege
    else needSession f s q.who q.token fam true
  | .mctp _ => needSession f s q.who q.token fam true

/-- A named context: its function's reach; one that is FREE is reached only under a session that permits family 0x01. -/
def reachCtx (f : FuseBank) (s : Sys) (q : MbxReq) (c fam : Nat) : Option Status :=
  match getCtx s c with
  | some x => reachFn f s q x.hp x.fn fam
  | none => needSession f s q.who q.token 1 true

/-- A named PD; one that does not exist lies outside every reach. -/
def reachPd (f : FuseBank) (s : Sys) (q : MbxReq) (pd fam : Nat) : Option Status :=
  match tget s.xl.pds pd with
  | some x => reachFn f s q x.hp x.fn fam
  | none => some .privilege

/-- "PF" of Table 5.1: a session that permits the family, from a physical function of the host port named or over MCTP. -/
def needPf (f : FuseBank) (s : Sys) (q : MbxReq) (hp fam : Nat) : Option Status :=
  match needSession f s q.who q.token fam false with
  | some e => some e
  | none => match q.who with
    | .fn h _ => if h = hp then none else some .privilege
    | .mctp _ => none

/-- The requester is a function, not an MCTP endpoint: commands on the requester's own function have no meaning over MCTP. -/
def needFn (q : MbxReq) : Option Status := match q.who with | .fn _ _ => none | .mctp _ => some .privilege

/-- The requester is the function of a context: its own commands post no CTX_STATE (R63). -/
def ownCtx (s : Sys) (q : MbxReq) (c : Nat) : Bool :=
  match getCtx s c with | some x => q.who == .fn x.hp x.fn | none => false

/-- The first two bytes of a payload. -/
def arg0 (b : Bytes) : Nat := num b 0 2

/-- A command whose 4-byte payload is a CTXID and two reserved bytes. -/
def ctxSpec (opcode : Nat) (cls : RClass) (narrow : DevState → Bool) : Spec :=
  { opcode, cls, lenOk := fun l => l == 4, named := fun _ b => some (arg0 b), narrow, param := fun _ _ q => rsv q.payload 2 2,
    priv := fun f s q => reachCtx f s q (arg0 q.payload) 1 }

/-- The states besides the ordinary ones that take CTX_QUERY. -/
def inQF (st : DevState) : Bool := st == .quiesced || st == .fault
/-- QUIESCED takes the command. -/
def inQ' (st : DevState) : Bool := st == .quiesced

/-! ### CTX_CREATE (R98) -/

/-- A context as CTX_CREATE makes it. -/
def Ctx.new (hp fn : Nat) (b : Bytes) : Ctx :=
  { st := .created, hp, fn, slot := num b 0 2, pd := num b 2 2, sqLog := num b 4 1, eqLog := num b 5 1, sup := (num b 6 1).testBit 0,
    stV := (num b 6 1).testBit 1, stIdx := num b 7 1, sqBase := num b 8 8, eqBase := num b 16 8, headWb := num b 24 8,
    ringSt := false, cmdSt := false, dataSt := false, tail := 0, head := 0, headMoved := false, fetching := false, inl := [], eqTail := 0,
    eqPhase := true, eqHead := 0, eqUsed := 0, armed := false, unsig := [], waitEv := [], modCount := 1, modTime := 0, modVec := 0,
    modPend := none, weight := 16, weightPend := none, shaper := Shaper.reset, descs := [], nextSeq := 0, live := [], ringInval := none,
    eager := 16384, postedMax := 1024, unexpMax := 1024, onchip := 262144, ovfBase := 0, ovfPages := 0, ovfNext := 0, ovfRuns := [],
    posted := [], deferred := [], bound := none, abortOps := 0, abortDrop := 0 }

/-- CTX_CREATE's parameters (Table 5.2, R98). -/
def ctxCreateOk (s : Sys) (q : MbxReq) : Bool :=
  let b := q.payload
  let slotOk := match q.who with
    | .fn hp fn => decide (num b 0 2 < (getFn s hp fn).ctxQuota) &&
        !(s.ctxs.any fun e => e.2.hp == hp && e.2.fn == fn && e.2.slot == num b 0 2)
    | .mctp _ => true
  slotOk && decide (num b 2 2 < 4096) && decide (6 ≤ num b 4 1) && decide (num b 4 1 ≤ 16) && decide (6 ≤ num b 5 1) &&
    decide (num b 5 1 ≤ 16) && decide (num b 6 1 < 4) && decide (num b 7 1 < 64) && num b 8 8 % 4096 == 0 && num b 16 8 % 4096 == 0 &&
    num b 24 8 % 8 == 0

/-- The PD that CTX_CREATE names is the requester's function's. -/
def ownPd (s : Sys) (q : MbxReq) (pd : Nat) : Option Status :=
  match tget s.xl.pds pd with
  | some x => if q.who = .fn x.hp x.fn then none else some .privilege
  | none => some .privilege

/-- CTX_CREATE's traits. -/
def specCtxCreate : Spec :=
  { opcode := 0x0101, cls := .fast, lenOk := fun l => l == 32, named := fun _ _ => none, narrow := fun _ => false,
    param := fun _ s q => ctxCreateOk s q, priv := fun _ s q => ownPd s q (num q.payload 2 2) }

/-- The lowest CTXID that is free. -/
def freeCtxId (s : Sys) : Option Nat :=
  ((List.range (s.ctxs.length + 1)).find? fun i => (getCtx s i).isNone).filter fun i => decide (i < 65536)

/-- CTX_CREATE's effect. -/
def bodyCtxCreate (_f : FuseBank) (s : Sys) (q : MbxReq) : Ans :=
  match q.who, freeCtxId s with
  | .fn hp fn, some c => .done { s with ctxs := tset s.ctxs c (Ctx.new hp fn q.payload) } (le 2 c ++ zeros 2)
  | _, _ => .no .noResource

/-- CTX_CREATE (R98). -/
def runCtxCreate (f : FuseBank) (s : Sys) (q : MbxReq) : Sys := mbxRun specCtxCreate bodyCtxCreate f s q

/-! ### CTX_DESTROY, CTX_ACTIVATE, CTX_QUERY, CTX_RESUME (R63, R97, R99) -/

/-- A context is a member of a communicator (R211). -/
def inComm (s : Sys) (c : Nat) : Bool := s.ce.comms.any fun e => e.2.members.any fun m => m.ctx == c

/-- A context owns a placement set or is a member of one on this device (R231). -/
def inSet (s : Sys) (c : Nat) : Bool :=
  s.pe.sets.any fun e => e.2.owner == c || (e.2.kind != 0 && e.2.members.any fun m => m.2.ctx == c)

/-- CTX_DESTROY's effect. -/
def bodyCtxDestroy (_f : FuseBank) (s : Sys) (q : MbxReq) : Ans :=
  let c := arg0 q.payload
  match getCtx s c with
  | none => .no .stateConflict
  | some x =>
    if (x.st = .created ∨ x.st = .drained) ∧ inComm s c = false ∧ inSet s c = false then
      let s' := freeCtx s c
      .done (if ownCtx s q c then s' else adminFn s' x.hp x.fn { AEv.of 0xE2 with old := x.st.code, tag := c }) []
    else .no .stateConflict

/-- CTX_DESTROY's traits. -/
def specCtxDestroy : Spec :=
  ctxSpec 0x0102 .fast inQ'

/-- CTX_DESTROY (Table 3.19, R97). -/
def runCtxDestroy (f : FuseBank) (s : Sys) (q : MbxReq) : Sys := mbxRun specCtxDestroy bodyCtxDestroy f s q

/-- CTX_ACTIVATE's effect. -/
def bodyCtxActivate (_f : FuseBank) (s : Sys) (q : MbxReq) : Ans :=
  let c := arg0 q.payload
  match getCtx s c with
  | some x => if x.st = .created then .done (ctxTo s c .active (!ownCtx s q c)) [] else .no .stateConflict
  | none => .no .stateConflict

/-- CTX_ACTIVATE's traits. -/
def specCtxActivate : Spec :=
  ctxSpec 0x0103 .fast fun _ => false

/-- CTX_ACTIVATE (R99). -/
def runCtxActivate (f : FuseBank) (s : Sys) (q : MbxReq) : Sys :=
  mbxThen specCtxActivate bodyCtxActivate settle f s q

/-- The held fault that a context reports (Table 5.3). -/
def heldFault (s : Sys) (c : Nat) : Nat :=
  ((s.xl.holds.find? fun h => h.ctx == c && (h.kind == .cmd || h.kind == .data)).map (·.id)).getD 0

/-- CTX_QUERY's answer (Table 5.3). -/
def bodyCtxQuery (_f : FuseBank) (s : Sys) (q : MbxReq) : Ans :=
  let c := arg0 q.payload
  match getCtx s c with
  | none => .done s (zeros 16)
  | some x => .done s (le 1 x.st.code ++ le 1 (stallBits x) ++ le 2 x.pd ++ le 2 x.slot ++ le 2 x.head ++ le 4 (heldFault s c) ++
      le 4 (s.te.segs.filter fun g => g.ctx == c).length)

/-- CTX_QUERY's traits. -/
def specCtxQuery : Spec :=
  ctxSpec 0x0104 .fast inQF

/-- CTX_QUERY (Table 5.3). -/
def runCtxQuery (f : FuseBank) (s : Sys) (q : MbxReq) : Sys := mbxRun specCtxQuery bodyCtxQuery f s q

/-- CTX_RESUME's effect: RING clears once the ring has space (R99). -/
def bodyCtxResume (_f : FuseBank) (s : Sys) (q : MbxReq) : Ans :=
  let c := arg0 q.payload
  match getCtx s c with
  | none => .no .stateConflict
  | some x =>
    if x.st ≠ .stalled ∨ (x.ringSt = true ∧ x.cmdSt = false ∧ x.dataSt = false ∧ eqFull x = true) then .no .stateConflict
    else if eqFull x then .done s []
    else .done (unstall (modCtx s c fun y => { y with ringSt := false }) c (!ownCtx s q c)) []

/-- CTX_RESUME's traits. -/
def specCtxResume : Spec :=
  ctxSpec 0x0105 .fast fun _ => false

/-- CTX_RESUME (R99). -/
def runCtxResume (f : FuseBank) (s : Sys) (q : MbxReq) : Sys :=
  mbxThen specCtxResume bodyCtxResume settle f s q

/-! ### CTX_MODERATE, CTX_SCHED, FN_SHAPE, FN_QUOTA (R89, R92, R100) -/

/-- The MSI-X table size that bounds a context's vector. -/
def vecLimit (s : Sys) (c : Nat) : Nat := match getCtx s c with | some x => (getFn s x.hp x.fn).msixSize | none => 65536

/-- CTX_MODERATE's traits. -/
def specCtxModerate : Spec :=
  { opcode := 0x0106, cls := .fast, lenOk := fun l => l == 8, named := fun _ b => some (arg0 b), narrow := fun _ => false,
    param := fun _ s q => decide (num q.payload 2 2 ≤ 4096) && decide (num q.payload 6 2 < vecLimit s (arg0 q.payload)),
    priv := fun f s q => reachCtx f s q (arg0 q.payload) 1 }

/-- CTX_MODERATE's effect: the values wait for the next frame tick. -/
def bodyCtxModerate (_f : FuseBank) (s : Sys) (q : MbxReq) : Ans :=
  let c := arg0 q.payload
  match getCtx s c with
  | none => .no .stateConflict
  | some _ => .done (modCtx s c fun x => { x with modPend := some (num q.payload 2 2, num q.payload 4 2, num q.payload 6 2) }) []

/-- CTX_MODERATE (R89). -/
def runCtxModerate (f : FuseBank) (s : Sys) (q : MbxReq) : Sys := mbxRun specCtxModerate bodyCtxModerate f s q

/-- RATE and BURST of Table 4.12 are in range. -/
def shapeOk (b : Bytes) : Bool :=
  decide (num b 4 4 < 2 ^ 24) && (num b 4 4 == 0 || (decide (4224 ≤ num b 8 4) && decide (num b 8 4 ≤ 16777216)))

/-- CTX_SCHED's traits. -/
def specCtxSched : Spec :=
  { opcode := 0x0107, cls := .fast, lenOk := fun l => l == 12, named := fun _ b => some (arg0 b), narrow := fun _ => false,
    param := fun _ _ q => num q.payload 2 1 != 0 && rsv q.payload 3 1 && shapeOk q.payload,
    priv := fun f s q => reachCtx f s q (arg0 q.payload) 1 }

/-- CTX_SCHED's effect: the values wait for the next frame tick. -/
def bodyCtxSched (_f : FuseBank) (s : Sys) (q : MbxReq) : Ans :=
  let c := arg0 q.payload
  match getCtx s c with
  | none => .no .stateConflict
  | some _ => .done (modCtx s c fun x =>
      { x with weightPend := some (num q.payload 2 1),
               shaper := { x.shaper with pend := some (num q.payload 4 4, num q.payload 8 4) } }) []

/-- CTX_SCHED (R92). -/
def runCtxSched (f : FuseBank) (s : Sys) (q : MbxReq) : Sys := mbxRun specCtxSched bodyCtxSched f s q

/-- FN and HP in the first two bytes are in range. -/
def fnHpOk (b : Bytes) : Bool := decide (num b 0 1 < 64) && decide (num b 1 1 < 4)

/-- FN_SHAPE's traits. -/
def specFnShape : Spec :=
  { opcode := 0x0108, cls := .fast, lenOk := fun l => l == 12, named := fun _ b => some (namedFn (num b 1 1) (num b 0 1)),
    narrow := fun _ => false, param := fun _ _ q => fnHpOk q.payload && rsv q.payload 2 2 && shapeOk q.payload,
    priv := fun f s q => needPf f s q (num q.payload 1 1) 1 }

/-- FN_SHAPE's effect. -/
def bodyFnShape (_f : FuseBank) (s : Sys) (q : MbxReq) : Ans :=
  .done (modFn s (num q.payload 1 1) (num q.payload 0 1) fun g =>
    { g with shaper := { g.shaper with pend := some (num q.payload 4 4, num q.payload 8 4) } }) []

/-- FN_SHAPE (R92). -/
def runFnShape (f : FuseBank) (s : Sys) (q : MbxReq) : Sys := mbxRun specFnShape bodyFnShape f s q

/-- A function's BAR2 pages (R72). -/
def bar2Pages (s : Sys) (fn : Nat) : Nat := if fn = 0 then 32768 else s.upd.vfDb

/-- PDs that a function holds. -/
def pdCount (s : Sys) (hp fn : Nat) : Nat := (s.xl.pds.filter fun e => e.2.hp == hp && e.2.fn == fn).length

/-- FN_QUOTA's traits. -/
def specFnQuota : Spec :=
  { opcode := 0x0109, cls := .fast, lenOk := fun l => l == 8, named := fun _ b => some (namedFn (num b 1 1) (num b 0 1)),
    narrow := fun _ => false,
    param := fun _ s q => fnHpOk q.payload && rsv q.payload 6 2 && decide (num q.payload 2 2 ≤ bar2Pages s (num q.payload 0 1)),
    priv := fun f s q => needPf f s q (num q.payload 1 1) 1 }

/-- FN_QUOTA's effect. -/
def bodyFnQuota (_f : FuseBank) (s : Sys) (q : MbxReq) : Ans :=
  let fn := num q.payload 0 1
  let hp := num q.payload 1 1
  if s.ctxs.any (fun e => e.2.hp == hp && e.2.fn == fn && decide (num q.payload 2 2 ≤ e.2.slot)) ∨ num q.payload 4 2 < pdCount s hp fn then
    .no .stateConflict
  else .done (modFn s hp fn fun g => { g with ctxQuota := num q.payload 2 2, pdQuota := num q.payload 4 2 }) []

/-- FN_QUOTA (R100). -/
def runFnQuota (f : FuseBank) (s : Sys) (q : MbxReq) : Sys := mbxRun specFnQuota bodyFnQuota f s q

/-! ### CTX_ABORT, FN_ABORT (R64 to R67) -/

/-- CTX_ABORT's effect. -/
def bodyCtxAbort (_f : FuseBank) (s : Sys) (q : MbxReq) : Ans :=
  let c := arg0 q.payload
  if abortable s c then .wait (abortCtx s c (!ownCtx s q c)) (.ctxAbort c (frame s + 40)) else .no .stateConflict

/-- CTX_ABORT's traits. -/
def specCtxAbort : Spec :=
  ctxSpec 0x0110 .slow inQ'

/-- CTX_ABORT (R64, R65). -/
def runCtxAbort (f : FuseBank) (s : Sys) (q : MbxReq) : Sys := mbxThen specCtxAbort bodyCtxAbort settle f s q

/-- FN_ABORT's traits. -/
def specFnAbort : Spec :=
  { opcode := 0x0111, cls := .slow, lenOk := fun l => l == 4, named := fun _ b => some (namedFn (num b 1 1) (num b 0 1)), narrow := inQ',
    param := fun _ _ q => fnHpOk q.payload && rsv q.payload 2 2,
    priv := fun f s q => reachFn f s q (num q.payload 1 1) (num q.payload 0 1) 1 }

/-- FN_ABORT's effect. -/
def bodyFnAbort (_f : FuseBank) (s : Sys) (q : MbxReq) : Ans :=
  let fn := num q.payload 0 1
  let hp := num q.payload 1 1
  if (getFn s hp fn).fnAbort then .no .stateConflict
  else .wait (abortFn (modFn s hp fn fun g => { g with fnAbort := true }) hp fn (q.who != .fn hp fn)) (.fnAbort hp fn (frame s + 400) 0 0 0 0)

/-- FN_ABORT (R64 to R67). One that finds nothing to abort ends at once. -/
def runFnAbort (f : FuseBank) (s : Sys) (q : MbxReq) : Sys :=
  mbxThen specFnAbort bodyFnAbort (fun y => settle (fnAbortCheck y (num q.payload 1 1) (num q.payload 0 1))) f s q

/-! ### Matching settings (R181, R182) and TE_CONFIG (R153) -/

/-- ME_CTX_CONFIG's parameters (Table 7.9). -/
def meConfigOk (b : Bytes) : Bool :=
  rsv b 2 2 && decide (num b 4 4 ≤ 65536) && decide (1 ≤ num b 8 2) && decide (num b 8 2 ≤ 24576) && decide (1 ≤ num b 10 2) &&
    decide (num b 10 2 ≤ 24576) && decide (num b 12 4 ≤ 8388608) && num b 12 4 % 256 == 0 && num b 16 8 % 4096 == 0 &&
    decide (num b 24 4 ≤ 1048576) && rsv b 28 4

/-- ME_CTX_CONFIG's traits. -/
def specMeCtxConfig : Spec :=
  { opcode := 0x0120, cls := .fast, lenOk := fun l => l == 32, named := fun _ b => some (arg0 b), narrow := fun _ => false,
    param := fun _ _ q => meConfigOk q.payload, priv := fun f s q => reachCtx f s q (arg0 q.payload) 1 }

/-- ME_CTX_CONFIG's effect. -/
def bodyMeCtxConfig (_f : FuseBank) (s : Sys) (q : MbxReq) : Ans :=
  let c := arg0 q.payload
  let b := q.payload
  match getCtx s c with
  | none => .no .stateConflict
  | some x =>
    let moved := num b 16 8 != x.ovfBase || num b 24 4 != x.ovfPages
    if num b 8 2 < x.posted.length ∨ num b 10 2 < (unexpOf s c).length ∨ (moved = true ∧ ovfUsed x ≠ 0) then .no .stateConflict
    else .done (modCtx s c fun y =>
      { y with eager := num b 4 4, postedMax := num b 8 2, unexpMax := num b 10 2, onchip := num b 12 4, ovfBase := num b 16 8,
               ovfPages := num b 24 4, ovfNext := if moved then 0 else y.ovfNext }) []

/-- ME_CTX_CONFIG (R181). -/
def runMeCtxConfig (f : FuseBank) (s : Sys) (q : MbxReq) : Sys := mbxRun specMeCtxConfig bodyMeCtxConfig f s q

/-- ME_QUERY's answer (Table 7.10). -/
def bodyMeQuery (_f : FuseBank) (s : Sys) (q : MbxReq) : Ans :=
  let c := arg0 q.payload
  match getCtx s c with
  | none => .no .stateConflict
  | some x => .done s (le 2 x.posted.length ++ le 2 (unexpOf s c).length ++ le 4 (onChip s c) ++ le 4 (ovfUsed x) ++
      le 2 x.deferred.length ++ zeros 2)

/-- ME_QUERY's traits. -/
def specMeQuery : Spec :=
  ctxSpec 0x0121 .fast fun _ => false

/-- ME_QUERY (R182). -/
def runMeQuery (f : FuseBank) (s : Sys) (q : MbxReq) : Sys := mbxRun specMeQuery bodyMeQuery f s q

/-- S(L) of R153. -/
def retrySum (l : Nat) : Nat := if l ≤ 2 then 2 ^ (l + 1) - 1 else 8 * l - 9

/-- TE_CONFIG's parameters (Table 6.8). -/
def teConfigOk (b : Bytes) : Bool :=
  decide (32 ≤ num b 0 2) && decide (num b 0 2 ≤ 1024) && decide (1 ≤ num b 2 1) && decide (num b 2 1 ≤ 15) && rsv b 3 1 &&
    decide (1 ≤ num b 4 2) && decide (num b 4 2 ≤ 1024) && decide (64 ≤ num b 6 2) && decide (num b 6 2 ≤ 8192) && rsv b 8 4 &&
    decide (num b 0 2 * retrySum (num b 2 1) ≤ 16284)

/-- TE_CONFIG's effect. -/
def bodyTeConfig (_f : FuseBank) (s : Sys) (q : MbxReq) : Ans :=
  .done { s with te := { s.te with
    rto := num q.payload 0 2, retryLimit := num q.payload 2 1, nackLimit := num q.payload 4 2, peerIssue := num q.payload 6 2 } } []

/-- TE_CONFIG's traits. -/
def specTeConfig : Spec :=
  Spec.fast 0x0320 12 (fun _ _ q => teConfigOk q.payload) (sess 3)

/-- TE_CONFIG (R153). -/
def runTeConfig (f : FuseBank) (s : Sys) (q : MbxReq) : Sys :=
  mbxRun specTeConfig bodyTeConfig f s q

end Sys2Proof.Machine
end

