-- ==== Sys2Proof/Machine/Protect.lean ====
section
/-!
DEFINITION. The commands of protection domains, remote regions, address maps, stage 2 and translation faults (family 0x02: R96, R97,
R101 to R104, R106, R114, R116, R121, R122, R125).
-/
namespace Sys2Proof.Machine

/-! ### Protection domains (R101) -/

/-- The lowest PDID that is free. DESIGN CHOICE (log entry 130): R101 does not say which free PDID PD_CREATE returns; unsafe. -/
def freePdId (s : Sys) : Option Nat :=
  ((List.range (s.xl.pds.length + 1)).find? fun i => (tget s.xl.pds i).isNone).filter fun i => decide (i < 4096)

/-- PD_CREATE's parameters. -/
def pdCreateOk (b : Bytes) : Bool :=
  decide (num b 8 1 < 16) && rsv b 9 7 && (!(num b 8 1).testBit 0 || num b 0 8 % 4096 == 0)

/-- PD_CREATE's traits. -/
def specPdCreate : Spec := Spec.fast 0x0201 16 (fun _ _ q => pdCreateOk q.payload) fun _ _ q => needFn q

/-- The PD that PD_CREATE makes for a function. -/
def Pd.new (s : Sys) (hp fn : Nat) (b : Bytes) : Pd :=
  let fl := num b 8 1
  { hp, fn, tid := (getFn s hp fn).tid, root := num b 0 8, s1En := fl.testBit 0, adTrap := fl.testBit 1, sug := fl.testBit 2,
    dataStall := fl.testBit 3 }

/-- PD_CREATE's effect. -/
def bodyPdCreate (_f : FuseBank) (s : Sys) (q : MbxReq) : Ans :=
  match q.who, freePdId s with
  | .fn hp fn, some k =>
    if (getFn s hp fn).pdQuota ≤ pdCount s hp fn then .no .noResource
    else .done { s with xl := { s.xl with pds := tset s.xl.pds k (Pd.new s hp fn q.payload) } } (le 2 k ++ zeros 2)
  | _, _ => .no .noResource

/-- PD_CREATE (R101). -/
def runPdCreate (f : FuseBank) (s : Sys) (q : MbxReq) : Sys := mbxRun specPdCreate bodyPdCreate f s q

/-- A PDID and two reserved bytes; the upper bits of the PDID are reserved. -/
def pdOk (b : Bytes) (off : Nat) : Bool := decide (num b off 2 < 4096)

/-- PD_DESTROY's traits. -/
def specPdDestroy : Spec :=
  { Spec.fast 0x0202 4 (fun _ _ q => pdOk q.payload 0 && rsv q.payload 2 2) (fun f s q => reachPd f s q (arg0 q.payload) 2) with
    narrow := inQ' }

/-- Some port's region names a PD. -/
def pdHasRegion (s : Sys) (k : Nat) : Bool :=
  s.hps.any fun h => match h.regtab with | some t => t.ents.any fun e => e.2.gen != 0 && e.2.pd == k | none => false

/-- PD_DESTROY's effect. -/
def bodyPdDestroy (_f : FuseBank) (s : Sys) (q : MbxReq) : Ans :=
  let k := arg0 q.payload
  if s.ctxs.any (fun e => e.2.pd == k) || pdHasRegion s k then .no .stateConflict
  else
    let s := invalPdAll s k
    .done { s with xl := { s.xl with pds := tdel s.xl.pds k } } []

/-- PD_DESTROY (R101). -/
def runPdDestroy (f : FuseBank) (s : Sys) (q : MbxReq) : Sys := mbxRun specPdDestroy bodyPdDestroy f s q

/-! ### Regions (R102 to R104) -/

/-- The entry of a table at an index. -/
def RegTab.at_ (t : RegTab) (i : Nat) : Region := (tget t.ents i).getD Region.free

/-- The first free index after the last one allocated, wrapping (R103). -/
def RegTab.next (t : RegTab) : Option Nat :=
  ((List.range (min (t.ents.length + 1) (2 ^ t.log2))).map fun i => (t.last + 1 + i) % 2 ^ t.log2).find? fun i => (t.at_ i).gen == 0

/-- The generation after one, skipping 0. -/
def genAfter (g : Nat) : Nat := if (g + 1) % 256 = 0 then 1 else (g + 1) % 256

/-- REGION_REGISTER's parameters. -/
def regRegisterOk (b : Bytes) : Bool :=
  pdOk b 0 && decide (num b 2 1 < 8) && rsv b 3 5 && decide (1 ≤ num b 16 8) && decide (num b 16 8 ≤ 2 ^ 48) &&
    decide (num b 8 8 + num b 16 8 ≤ 2 ^ 48)

/-- REGION_REGISTER's traits. -/
def specRegionRegister : Spec :=
  Spec.fast 0x0203 24 (fun _ _ q => regRegisterOk q.payload) fun f s q => reachPd f s q (arg0 q.payload) 2

/-- REGION_REGISTER's effect. -/
def bodyRegionRegister (_f : FuseBank) (s : Sys) (q : MbxReq) : Ans :=
  let b := q.payload
  match tget s.xl.pds (num b 0 2) with
  | none => .no .noResource
  | some p =>
    match (getHp s p.hp).regtab with
    | none => .no .noResource
    | some t =>
      match t.next with
      | none => .no .noResource
      | some i =>
        let g := genAfter (t.at_ i).lgen
        let r : Region := { base := num b 8 8, len := num b 16 8, pd := num b 0 2, rights := num b 2 1, gen := g, fn := p.fn,
                            lgen := (t.at_ i).lgen }
        .done (putRegion s p.hp i r true) (le 4 (g * 2 ^ 24 + i))

/-- REGION_REGISTER (R103). -/
def runRegionRegister (f : FuseBank) (s : Sys) (q : MbxReq) : Sys := mbxRun specRegionRegister bodyRegionRegister f s q

/-- The host port whose table a requester's RKEY names: a function's own. Over MCTP no port is named, so none is reached (log
    entry 30). -/
def rkeyHp (q : MbxReq) : Option Nat := match q.who with | .fn hp _ => some hp | .mctp _ => none

/-- The region of an RKEY in the requester's port. -/
def rkeyRegion (s : Sys) (q : MbxReq) : Option Region := (rkeyHp q).bind fun hp => regionOf s hp (num q.payload 0 4)

/-- REGION_DEREGISTER's traits. -/
def specRegionDeregister : Spec :=
  { opcode := 0x0204, cls := .slow, lenOk := fun l => l == 4, named := fun _ _ => none, narrow := inQ',
    param := fun _ s q => (rkeyHp q).isNone || (rkeyRegion s q).isSome,
    priv := fun f s q => match rkeyHp q, rkeyRegion s q with
      | some hp, some r => reachFn f s q hp r.fn 2
      | _, _ => some .privilege }

/-- REGION_DEREGISTER's effect: GEN goes to LGEN at once; the end waits for the packets that passed the key check. -/
def bodyRegionDeregister (_f : FuseBank) (s : Sys) (q : MbxReq) : Ans :=
  let i := num q.payload 0 4 % 2 ^ 24
  match rkeyHp q, rkeyRegion s q with
  | some hp, some r => .wait (putRegion s hp i { r with gen := 0, lgen := r.gen } false) (.deregister hp i)
  | _, _ => .no .badParam

/-- REGION_DEREGISTER (R104). -/
def runRegionDeregister (f : FuseBank) (s : Sys) (q : MbxReq) : Sys := mbxThen specRegionDeregister bodyRegionDeregister settle f s q

/-- REGTAB_SET's parameters. -/
def regtabOk (b : Bytes) : Bool :=
  decide (num b 0 1 < 4) && rsv b 2 6 &&
    (num b 8 8 == 0 || (num b 8 8 % 4096 == 0 && decide (10 ≤ num b 1 1) && decide (num b 1 1 ≤ 24)))

/-- REGTAB_SET's traits. -/
def specRegtabSet : Spec := Spec.fast 0x0207 16 (fun _ _ q => regtabOk q.payload) fun f s q => needPf f s q (num q.payload 0 1) 2

/-- The entries that the handed-over memory holds: those in use, and the generations kept in free ones (R102). -/
def regEnts (log2 : Nat) (mem : List (Nat × Nat)) : Table Region :=
  mem.foldl (fun t e =>
    let r := Region.ofRaw e.2
    if e.1 < 2 ^ log2 ∧ (r.gen ≠ 0 ∨ r.lgen ≠ 0) then tset t e.1 (if r.gen = 0 then { Region.free with lgen := r.lgen } else r) else t) []

/-- REGTAB_SET's effect: entries of the port's earlier table leave the L2 TLB. -/
def bodyRegtabSet (_f : FuseBank) (s : Sys) (q : MbxReq) : Ans :=
  let b := q.payload
  let hp := num b 0 1
  let held := match (getHp s hp).regtab with | some t => t.ents.any fun e => e.2.gen != 0 | none => false
  if held then .no .busy
  else
    let t := if num b 8 8 = 0 then none else
      some { bus := num b 8 8, log2 := num b 1 1, last := 2 ^ num b 1 1 - 1, ents := regEnts (num b 1 1) q.mem }
    let s := { s with xl := { s.xl with l2 := s.xl.l2.filter fun e => match e with | .reg h _ _ => h != hp | .comb _ => true } }
    let s := staleReads s hp fun _ => true
    .done (modHp s hp fun h => { h with regtab := t }) []

/-- REGTAB_SET (R102). -/
def runRegtabSet (f : FuseBank) (s : Sys) (q : MbxReq) : Sys := mbxRun specRegtabSet bodyRegtabSet f s q

/-! ### Functions (R96, R106) -/

/-- FN_TENANT's traits. -/
def specFnTenant : Spec :=
  { Spec.fast 0x0205 4 (fun _ _ q => fnHpOk q.payload && pdOk q.payload 2) (fun f s q => needPf f s q (num q.payload 1 1) 2) with
    named := fun _ b => some (namedFn (num b 1 1) (num b 0 1)) }

/-- FN_TENANT's effect. -/
def bodyFnTenant (_f : FuseBank) (s : Sys) (q : MbxReq) : Ans :=
  let fn := num q.payload 0 1
  let hp := num q.payload 1 1
  if pdCount s hp fn ≠ 0 then .no .stateConflict
  else .done (modFn s hp fn fun g => { g with tid := num q.payload 2 2 }) []

/-- FN_TENANT (R96). -/
def runFnTenant (f : FuseBank) (s : Sys) (q : MbxReq) : Sys := mbxRun specFnTenant bodyFnTenant f s q

/-- FN_S2_SET's traits. -/
def specFnS2Set : Spec :=
  { Spec.fast 0x0206 16
    (fun _ _ q => fnHpOk q.payload && decide (num q.payload 2 1 < 4) && rsv q.payload 3 5 && num q.payload 8 8 % 4096 == 0)
    (fun f s q => needPf f s q (num q.payload 1 1) 2) with
    named := fun _ b => some (namedFn (num b 1 1) (num b 0 1)) }

/-- FN_S2_SET's effect. DESIGN CHOICE (log entry 131): translations and stage-2 walk entries made under the old root stay cached, since
    R106 names no removal; unsafe. -/
def bodyFnS2Set (_f : FuseBank) (s : Sys) (q : MbxReq) : Ans :=
  let fn := num q.payload 0 1
  let hp := num q.payload 1 1
  if ctxsOf s hp fn ≠ [] then .no .stateConflict
  else .done (modFn s hp fn fun g =>
    { g with s2En := (num q.payload 2 1).testBit 0, s2Ad := (num q.payload 2 1).testBit 1, s2Root := num q.payload 8 8 }) []

/-- FN_S2_SET (R106). -/
def runFnS2Set (f : FuseBank) (s : Sys) (q : MbxReq) : Sys := mbxRun specFnS2Set bodyFnS2Set f s q

/-! ### Host address map (R114) -/

/-- The windows of a request, by number. -/
def hostWindows (b : Bytes) : Table HWindow :=
  (List.range (num b 2 1)).map fun i =>
    let w := num b (16 + 16 * i) 8
    (num b 1 1 + i, { base := num b (8 + 16 * i) 8, last := bits w 12 40 * 4096, device := w.testBit 1, en := w.testBit 0 })

/-- A port's windows after a request. -/
def windowsAfter (s : Sys) (b : Bytes) : Table HWindow :=
  (hostWindows b).foldl (fun t e => tset t e.1 e.2) (getHp s (num b 0 1)).windows

/-- No enabled window has LAST below BASE, and no two enabled ones overlap. -/
def windowsOk (t : Table HWindow) : Bool :=
  t.all fun e => !e.2.en || (decide (e.2.base ≤ e.2.last) &&
    t.all fun g => g.1 == e.1 || !g.2.en || decide (g.2.last < e.2.base) || decide (e.2.last < g.2.base))

/-- HOSTMAP_SET's parameters. -/
def hostmapOk (s : Sys) (b : Bytes) : Bool :=
  decide (num b 0 1 < 4) && decide (1 ≤ num b 2 1) && decide (num b 1 1 + num b 2 1 ≤ 64) && rsv b 3 5 &&
    ((List.range (num b 2 1)).all fun i =>
      num b (8 + 16 * i) 8 % 4096 == 0 && bits (num b (16 + 16 * i) 8) 2 10 == 0 && bits (num b (16 + 16 * i) 8) 52 12 == 0) &&
    windowsOk (windowsAfter s b)

/-- HOSTMAP_SET's traits: its length follows COUNT. -/
def specHostmapSet (count : Nat) : Spec :=
  { opcode := 0x0208, cls := .fast, lenOk := fun l => decide (8 ≤ l) && l == 8 + 16 * count, named := fun _ _ => none,
    narrow := fun _ => false, param := fun _ s q => hostmapOk s q.payload, priv := fun f s q => needPf f s q (num q.payload 0 1) 2 }

/-- HOSTMAP_SET's effect. -/
def bodyHostmapSet (_f : FuseBank) (s : Sys) (q : MbxReq) : Ans :=
  .done (modHp s (num q.payload 0 1) fun h => { h with windows := windowsAfter s q.payload }) []

/-- HOSTMAP_SET (R114). -/
def runHostmapSet (f : FuseBank) (s : Sys) (q : MbxReq) : Sys := mbxRun (specHostmapSet (num q.payload 2 1)) bodyHostmapSet f s q

/-! ### Fault ring and resumption (R116, R121) -/

/-- A power of two within bounds. -/
def pow2In (n lo hi : Nat) : Bool := decide (lo ≤ n) && decide (n ≤ hi) && n == 2 ^ Nat.log2 n

/-- XLAT_FAULT_RING_SET's traits. -/
def specXlatFaultRingSet : Spec :=
  Spec.fast 0x0209 16
    (fun _ _ q => rsv q.payload 12 4 &&
      (num q.payload 0 8 == 0 || (num q.payload 0 8 % 4096 == 0 && pow2In (num q.payload 8 2) 64 4096)))
    fun _ _ q => needFn q

/-- A ring as its command sets it. -/
def EvRing.new (base count vector : Nat) : EvRing := { base, count, widx := 0, phase := true, unread := 0, vector }

/-- XLAT_FAULT_RING_SET's effect. -/
def bodyXlatFaultRingSet (_f : FuseBank) (s : Sys) (q : MbxReq) : Ans :=
  let b := q.payload
  match q.who with
  | .mctp _ => .no .privilege
  | .fn hp fn => .done (modMbx s hp fn fun m =>
      { m with xfHead := 0,
               xfault := if num b 0 8 = 0 then none else some (EvRing.new (num b 0 8) (num b 8 2) (num b 10 2)) }) []

/-- XLAT_FAULT_RING_SET (R116). -/
def runXlatFaultRingSet (f : FuseBank) (s : Sys) (q : MbxReq) : Sys := mbxRun specXlatFaultRingSet bodyXlatFaultRingSet f s q

/-- The held fault that a request names. -/
def holdOf (s : Sys) (b : Bytes) : Option Hold := s.xl.holds.find? fun h => h.id == num b 0 4

/-- XLAT_RESUME's traits. -/
def specXlatResume : Spec :=
  Spec.fast 0x020A 8
    (fun _ s q => decide (num q.payload 4 1 < 2) && rsv q.payload 5 3 &&
      (match holdOf s q.payload with | some h => num q.payload 4 1 == 0 || h.kind == .data | none => false))
    fun f s q => match holdOf s q.payload with
      | some h => if h.stage = 2 then needPf f s q (h.fnKey / 64) 2 else reachFn f s q (h.fnKey / 64) (h.fnKey % 64) 2
      | none => none

/-- The PD whose page a hold concerns. -/
def holdPd (s : Sys) (h : Hold) : Nat := match h.kind with | .inbound1 pd _ => pd | _ => pdidOf s h.ctx

/-- Every cached entry for a held fault's address is dropped. -/
def dropFor (s : Sys) (h : Hold) : Sys :=
  let s := invalRange s (holdPd s h) h.addr (h.addr + 1)
  if h.stage = 2 then invalFn s (· == h.fnKey) h.ipa (h.ipa + 1) else s

/-- A held access is retried from a fresh walk, or ends with XLAT_FAULT. Where the access is gone with its operation, there is nothing to
    retry and the reason clears (R99, R121). -/
def resumeAcc (s : Sys) (h : Hold) (fail own : Bool) : Sys :=
  match getAcc s h.acc with
  | none =>
    let more := fun (k : HoldKind) => s.xl.holds.any fun x => x.ctx == h.ctx && x.kind == k
    unstall (modCtx s h.ctx fun y => { y with
      cmdSt := y.cmdSt && (h.kind != .cmd || more .cmd), dataSt := y.dataSt && (h.kind != .data || more .data) }) h.ctx (!own)
  | some a =>
    let a := { a with held := false, retry := some own, bus := [], walk := none, got := [], want := 0, used := [] }
    let s := putAcc s a
    if fail then endAcc s a .xfault else accGo (accFuel a) s a

/-- XLAT_RESUME's effect. -/
def bodyXlatResume (_f : FuseBank) (s : Sys) (q : MbxReq) : Ans :=
  match holdOf s q.payload with
  | none => .no .badParam
  | some h =>
    let s := dropHolds (dropFor s h) fun x => x.id == h.id
    .done (match h.kind with
      | .cmd | .data => resumeAcc s h (num q.payload 4 1 == 1) (ownCtx s q h.ctx)
      | _ => s) []

/-- XLAT_RESUME (R121). -/
def runXlatResume (f : FuseBank) (s : Sys) (q : MbxReq) : Sys := mbxThen specXlatResume bodyXlatResume settle f s q

/-! ### Invalidation and age (R122, R125) -/

/-- XLAT_INVALIDATE's parameters (Table 5.9). -/
def invalOk (b : Bytes) : Bool :=
  let sc := num b 0 1
  decide (sc ≤ 4) && decide (num b 1 1 < 64) && decide (num b 2 1 < 4) && rsv b 3 1 && pdOk b 4 && rsv b 6 2 &&
    ((sc != 0 && sc != 2) || (num b 8 8 % 4096 == 0 && decide (1 ≤ num b 16 8) && decide (num b 16 8 ≤ 2 ^ 36)))

/-- The function that XLAT_INVALIDATE of scopes 2 and 3 names. -/
def invalNamed (b : Bytes) : Option Nat :=
  match num b 0 1 with
  | 2 | 3 => some (namedFn (num b 2 1) (num b 1 1))
  | _ => none

/-- XLAT_INVALIDATE's traits. -/
def specXlatInvalidate : Spec :=
  { opcode := 0x020B, cls := .slow, lenOk := fun l => l == 24, named := fun _ b => invalNamed b, narrow := inQ',
    param := fun _ _ q => invalOk q.payload,
    priv := fun f s q => match num q.payload 0 1 with
      | 0 | 1 => reachPd f s q (num q.payload 4 2) 2
      | 2 | 3 => needPf f s q (num q.payload 2 1) 2
      | _ => needSession f s q.who q.token 2 false }

/-- XLAT_INVALIDATE's effect on the structures, and the accesses that its end waits for. -/
def invalidate (s : Sys) (b : Bytes) : Sys × List Nat :=
  let sc := num b 0 1
  let pages := sc == 0 || sc == 2
  let lo := if pages then num b 8 8 else 0
  let hi := if pages then num b 8 8 + 4096 * num b 16 8 else 2 ^ 64
  let fk := fnKey (num b 2 1) (num b 1 1)
  if sc ≤ 1 then
    (invalRange s (num b 4 2) lo hi,
     invalWaits s fun a => usesRange s a (num b 4 2) lo hi)
  else
    let which := fun (k : Nat) => sc == 4 || k == fk
    (invalFns s which lo hi (sc != 2), invalWaits s fun a => which (fnKey a.hp a.fn))

/-- XLAT_INVALIDATE's effect. -/
def bodyXlatInvalidate (_f : FuseBank) (s : Sys) (q : MbxReq) : Ans :=
  let (s', ids) := invalidate s q.payload
  .wait s' (.invalidate ids)

/-- XLAT_INVALIDATE (R122). -/
def runXlatInvalidate (f : FuseBank) (s : Sys) (q : MbxReq) : Sys := mbxThen specXlatInvalidate bodyXlatInvalidate settle f s q

/-- XLAT_AGE's effect: the value is taken up at the next epoch tick. -/
def bodyXlatAge (_f : FuseBank) (s : Sys) (q : MbxReq) : Ans :=
  .done { s with xl := { s.xl with agePend := some (num q.payload 0 2) } } []

/-- XLAT_AGE's traits. -/
def specXlatAge : Spec :=
  Spec.fast 0x020C 4 (fun _ _ q => rsv q.payload 2 2) (sess 2)

/-- XLAT_AGE (R125). -/
def runXlatAge (f : FuseBank) (s : Sys) (q : MbxReq) : Sys :=
  mbxRun specXlatAge bodyXlatAge f s q

end Sys2Proof.Machine
end

