-- ==== Sys2Proof/Machine/CollRows.lean ====
section
/-!
DEFINITION. The rows of the collective engine: packets it takes (R204, R205), its timers, and the commands of family 0x04 (R185 to R188,
R208 to R212).
-/
namespace Sys2Proof.Machine

/-! ### Taking a packet (R204, R205) -/

/-- The engine drops a packet, counts it and records it with the CX port it came in by (R204, R205, R428). -/
def colDrop (s : Sys) (cx : Nat) (p : Packet) : Sys := trace (count s 84 0x01 1) p 8 cx 0x01

/-- The next packet of the engine, if its OP is one of those a row takes, with the CX port it came in by. -/
def colTake (s : Sys) (ok : Nat → Bool) : Option (Nat × Packet × Sys) :=
  match s.ce.colIn with
  | [] => none
  | (cx, p) :: rest => if ok p.op then some (cx, p, { s with ce := { s.ce with colIn := rest } }) else none

/-- LEN agrees with PLEN, and the payload is whole (R129, R204). -/
def colLenOk (p : Packet) : Bool := p.len == lenFor p.payLen && p.payload.length == p.payLen && p.payOk

/-- INPUT of a packet. -/
def colInput (p : Packet) : Nat := p.sctx % 1024

/-- The sender of a multicast copy is the parent: a copy keeps the SFEID of the engine that put it in (log entry 32). -/
def colFrom (c : Comm) (p : Packet) : Nat := if p.rmode = 2 then (c.parent.map (·.feid)).getD p.sfeid else p.sfeid

/-- The sender is a member device's anchor. -/
def isMember (s : Sys) (c : Comm) (feid : Nat) : Bool := (devOfFeid s feid).isSome && (anchorOf s c.list ((devOfFeid s feid).getD 0)) == some feid

/-- The sender check of R205, with the senders that creation and REDUCE name (log entry 32). -/
def colSenderOk (s : Sys) (c : Comm) (p : Packet) : Bool :=
  let near := (neighbours c).any fun q => q.feid == colFrom c p
  match p.op with
  | 0x08 | 0x0A | 0x0C => true
  | 0x09 => c.list.head? == some p.sfeid
  | 0x0B => near || c.list.head? == some p.sfeid
  | 0x02 => near || (p.rmode != 2 && hdrCop (p.w56 / 65536) == 2 && isMember s c p.sfeid)
  | _ => near

/-- The checks of R205 in order; the communicator if all pass. -/
def colAdmit (s : Sys) (p : Packet) : Option Comm :=
  match getComm s p.dctx with
  | none => none
  | some c =>
    if colLenOk p && p.tid == c.tid && (p.rmode == 2 || p.op == 0x08 || p.tinc == s.start.incarn) && colSenderOk s c p &&
       (if p.op = 1 then decide (c.nlocal ≤ colInput p) && decide (colInput p < c.inputs.length) &&
          decide ((c.inputs.getD (colInput p) []).length < c.depth)
        else colInput p == 0) then some c
    else none

/-- A packet from a neighbour has been received (R208). -/
def colHeard (s : Sys) (c : Comm) (p : Packet) : Sys :=
  modComm s p.dctx fun x => modPeerCol x (colFrom c p) fun q =>
    { q with recv := if countedOp p.op then (q.recv + 1) % 2 ^ 32 else q.recv, last := frame s + 4 * s.ce.beatFrames }

/-- One packet taken, checked and handed on with the CX port it came in by; one beyond the MPL is dropped as it is delivered (R262). -/
def colRow (s : Sys) (ok : Nat → Bool) (act : Sys → Nat → Comm → Packet → Sys) : Sys :=
  match colTake s ok with
  | none => s
  | some (cx, p, s) =>
    if tooOld s p then trace (count s cx 0x10 1) p 8 cx 0x10
    else
      let s := trace s p 5 cx 0
      match colAdmit s p with
      | none => colDrop s cx p
      | some c => act (colHeard s c p) cx c p

/-! ### Creation (R187, R188) -/

/-- A COL_JOIN at the leader. -/
def joinHere (s : Sys) (cx : Nat) (c : Comm) (p : Packet) : Sys :=
  let k := p.dctx
  let same := sub p.payload 0 8 == c.digest && num p.payload 8 4 == c.n && num p.payload 12 1 == c.slotLog && num p.payload 13 1 == c.depth
  let s' := modComm s k fun c => { c with joins := (c.joins.filter fun j => j.1 != p.sfeid) ++ [(p.sfeid, bits p.operand 16 12)] }
  if c.leader = false ∨ p.payload.length ≠ 16 then colDrop s cx p
  else if c.st ≠ .joining then s
  else if same then (if c.setupSent then s else treeWanted s' k)
  else failCreate s' k 0x0103 true

/-- COL_JOIN_RECEIVE. A leader whose own member list is not read does not hold the MGID yet. -/
def runColJoinReceive (_f : FuseBank) (s : Sys) : Sys := settle (colRow s (· == 0x08) joinHere)

/-- COL_JOIN_RESEND: every 64 frames until COL_SETUP arrives. -/
def runColJoinResend (_f : FuseBank) (s : Sys) (mgid : Nat) : Sys :=
  match getComm s mgid with
  | some c =>
    match c.joinAt with
    | some t => if c.st = .joining ∧ c.leader = false ∧ c.setup = false ∧ c.refused = false ∧ t + 64 ≤ frame s then sendJoin s mgid else s
    | none => s
  | none => s

/-- A COL_SETUP: the leader's incarnation is known where it is the parent or a child. -/
def setupIn (s : Sys) (cx : Nat) (c : Comm) (p : Packet) : Sys :=
  let b := p.payload
  if b.length ≠ 16 + 4 * num b 6 2 then colDrop s cx p
  else if c.st ≠ .joining ∨ c.setup ∨ c.refused then s
  else
    let kid := ((List.range (num b 6 2)).map fun i => num b (16 + 4 * i) 4).find? fun e => e % 2 ^ 20 == p.sfeid
    let (s, inc) :=
      if (num b 0 4).testBit 31 = false ∧ num b 0 4 % 2 ^ 20 = p.sfeid then (s, num b 8 2 % 4096)
      else match kid with
        | some e => (s, e / 2 ^ 20)
        | none => (draw s, (Config.word s.free).toNat % 4096)
    setupHere (modComm s p.dctx fun c => { c with joins := [(p.sfeid, inc)] }) p.dctx b

/-- COL_SETUP_RECEIVE (R187, step 4). -/
def runColSetupReceive (_f : FuseBank) (s : Sys) : Sys := settle (colRow s (· == 0x09) setupIn)

/-- A COL_READY at the leader. -/
def readyIn (s : Sys) (cx : Nat) (c : Comm) (p : Packet) : Sys :=
  if c.leader = false ∨ (c.joins.any fun j => j.1 == p.sfeid) = false then colDrop s cx p
  else readyAt s p.dctx p.sfeid (p.operand % 256 == 0)

/-- COL_READY_RECEIVE (R187, step 5). -/
def runColReadyReceive (_f : FuseBank) (s : Sys) : Sys := settle (colRow s (· == 0x0A) readyIn)

/-- A result chunk from the parent goes on to the children and to the local members; that of a REDUCE is for this device alone. One that has
    overtaken COL_GO waits for it (DEDUCED, log entry 26). -/
def downIn (s : Sys) (_cx : Nat) (c : Comm) (p : Packet) : Sys :=
  if c.st = .joining ∧ c.setup = true then modComm s p.dctx fun c => { c with early := c.early ++ [p] }
  else if c.st ≠ .ready then s
  else
    let alone := p.op == 2 && hdrCop (p.w56 / 65536) == 2 && !p.w56.testBit 29
    downHere (if alone then s else sendDown s p.dctx p (p.rmode != 2)) p.dctx p

/-- COL_GO at a device (R187, step 6): READY is entered, and what has overtaken COL_GO on its way down is taken up. -/
def goIn (s : Sys) (p : Packet) : Sys :=
  let was := ((getComm s p.dctx).map (·.early)).getD []
  let t := goHere s p.dctx (p.rmode != 2)
  if ((getComm t p.dctx).map fun c => c.st == .ready).getD false && ((getComm s p.dctx).map fun c => c.st == .joining).getD false then
    was.foldl (fun s q => match getComm s q.dctx with | some c => downIn s 64 c q | none => s)
      (modComm t p.dctx fun c => { c with early := [] })
  else t

/-- COL_GO_RECEIVE (R187, step 6). -/
def runColGoReceive (_f : FuseBank) (s : Sys) : Sys := settle (colRow s (· == 0x0B) fun s _ _ p => goIn s p)

/-- A COL_FAIL: with a mailbox status it ends a creation (R188), without one the communicator has failed (R209). -/
def failIn (s : Sys) (_cx : Nat) (c : Comm) (p : Packet) : Sys :=
  if c.st = .joining ∧ bits p.operand 16 16 ≠ 0 then failCreate s p.dctx (bits p.operand 16 16) false
  else failComm s p.dctx (p.operand % 256) (bits p.operand 32 20) (some p.sfeid)

/-- COL_FAIL_RECEIVE. -/
def runColFailReceive (_f : FuseBank) (s : Sys) : Sys := settle (colRow s (· == 0x0C) failIn)

/-- JOIN_TIMER_EXPIRY (R188): before COL_GO, creation ends with TIMEOUT. -/
def runJoinTimerExpiry (_f : FuseBank) (s : Sys) (mgid : Nat) : Sys :=
  match getComm s mgid with
  | some c => if c.st = .joining ∧ c.started ≤ epoch s then settle (failCreate s mgid 0x0401 true) else s
  | none => s

/-! ### Data, credits, beats (R191 to R193, R208) -/

/-- A COL_UP: its chunk goes into a slot of its input. -/
def upIn (s : Sys) (c : Comm) (p : Packet) : Sys :=
  if c.st ≠ .ready then s
  else putChunk s p.dctx (colInput p)
    { cseq := p.w56 % 65536, expo := p.w56.testBit 29, off := p.offset, data := p.payload, hdr := bits p.w56 16 14,
      msglen := p.msglen % 2 ^ 32, root := bits p.operand 32 32, arr := 0 }

/-- OPs that Table 8.9 has but COL_UP. -/
def knownOp (op : Nat) : Bool :=
  op == 2 || op == 3 || op == 4 || op == 5 || op == 8 || op == 9 || op == 0x0A || op == 0x0B || op == 0x0C

/-- COL_UP_RECEIVE. A packet with an OP that Table 8.9 does not have is dropped here. -/
def runColUpReceive (_f : FuseBank) (s : Sys) : Sys :=
  colRow s (fun op => !knownOp op) fun s cx c p => if p.op = 1 then upIn s c p else colDrop s cx p

/-- CONTRIBUTION_READ (R191). -/
def runContributionRead (_f : FuseBank) (s : Sys) (mgid ctx : Nat) : Sys := settle (contribute s mgid ctx)

/-- CHUNK_COMBINE (R192). -/
def runChunkCombine (_f : FuseBank) (s : Sys) (mgid : Nat) : Sys :=
  if ((List.range 8).all fun k => swdState s (137 + k) != 2) = true then s else settle (combine s mgid)

/-- COL_DOWN_RECEIVE (R193). -/
def runColDownReceive (_f : FuseBank) (s : Sys) : Sys := settle (colRow s (· == 0x02) downIn)

/-- COL_DONE_RECEIVE (R193, R198). -/
def runColDoneReceive (_f : FuseBank) (s : Sys) : Sys := settle (colRow s (· == 0x03) downIn)

/-- COL_CRED_RECEIVE (R191): credits come back from the parent. -/
def runColCredReceive (_f : FuseBank) (s : Sys) : Sys :=
  colRow s (· == 0x04) fun s _ c p =>
    if c.parent.map (·.feid) = some p.sfeid then modComm s p.dctx fun c => { c with credits := c.credits + p.operand % 65536 } else s

/-- COL_CRED_SEND (R191): credits owed to the children are returned. -/
def runColCredSend (_f : FuseBank) (s : Sys) (mgid : Nat) : Sys :=
  match getComm s mgid with
  | none => s
  | some c =>
    if c.st ≠ .ready then s
    else (c.children.filter fun q => q.owed != 0).foldl (fun s q =>
      let s := modComm s mgid fun c => { c with children := c.children.map fun x => if x.feid == q.feid then { x with owed := 0 } else x }
      toPeer s mgid q.feid (colPkt s mgid c q.feid q.inc 0x04 (q.owed % 65536) [])) s

/-- COL_BEAT_SEND (R208): a beat to the parent and to each child. -/
def runColBeatSend (_f : FuseBank) (s : Sys) (mgid : Nat) : Sys :=
  match getComm s mgid with
  | none => s
  | some c =>
    if c.st ≠ .ready ∨ frame s < c.beatAt then s
    else (neighbours c).foldl (fun s q => colSend s (colPkt s mgid c q.feid q.inc 0x05 q.sent []))
      (modComm s mgid fun c => { c with beatAt := frame s + s.ce.beatFrames })

/-- `a` stands behind `b` in modulo 2^32 counting. -/
def behind32 (a b : Nat) : Bool := decide (a ≠ b) && decide ((b + 2 ^ 32 - a) % 2 ^ 32 < 2 ^ 31)

/-- A beat: what the neighbour's previous beat had counted must have arrived. -/
def beatIn (s : Sys) (_cx : Nat) (c : Comm) (p : Packet) : Sys :=
  match (neighbours c).find? fun q => q.feid == p.sfeid with
  | none => s
  | some q =>
    if c.st ≠ .ready then s
    else if behind32 q.recv q.prevSent then failComm s p.dctx 6 q.feid none
    else modComm s p.dctx fun c => modPeerCol c q.feid fun x => { x with prevSent := p.operand % 2 ^ 32 }

/-- COL_BEAT_RECEIVE (R208). -/
def runColBeatReceive (_f : FuseBank) (s : Sys) : Sys := settle (colRow s (· == 0x05) beatIn)

/-- NEIGHBOUR_LOST (R208): nothing has come from a neighbour for 4 BEAT_FRAMES. -/
def runNeighbourLost (_f : FuseBank) (s : Sys) (mgid feid : Nat) : Sys :=
  match getComm s mgid with
  | none => s
  | some c =>
    if c.st = .ready ∧ ((neighbours c).any fun q => q.feid == feid && decide (q.last ≤ frame s)) = true then
      settle (failComm s mgid 6 feid none)
    else s

/-! ### Commands (R185, R186, R211, R212) -/

/-- An MGID is granted to a tenant: the last command that covers it for that tenant decides; at reset tenant 0 has every MGID. -/
def granted (s : Sys) (k tid : Nat) : Bool :=
  match (s.ce.grants.filter fun g => decide (g.1 ≤ k) && decide (k < g.1 + g.2.1) && g.2.2.1 == tid).getLast? with
  | some g => !g.2.2.2
  | none => tid == 0

/-- The tenant of a context. -/
def ctxTid (s : Sys) (c : Nat) : Nat := ((pdOf s c).map (·.tid)).getD 0

/-- COMM_CREATE's parameters (Table 8.2). -/
def commCreateOk (b : Bytes) : Bool :=
  decide (1 ≤ num b 4 4) && decide (num b 4 4 ≤ 162800) && decide (num b 8 4 < num b 4 4) && decide (8 ≤ num b 12 1) &&
    decide (num b 12 1 ≤ 12) && decide (1 ≤ num b 13 1) && decide (num b 13 1 ≤ 8) && rsv b 14 2 && num b 16 8 % 4 == 0 && rsv b 24 8

/-- The tenant of a context may use an MGID: it is granted (R185, R186), and no communicator of another tenant is being created under it here
    (DESIGN CHOICE, log entry 137). -/
def mgidFor (s : Sys) (k ctx : Nat) : Bool :=
  granted s k (ctxTid s ctx) && (match getComm s k with | some c => c.st != .joining || c.tid == ctxTid s ctx | none => true)

/-- COMM_CREATE's traits. -/
def specCommCreate : Spec :=
  { opcode := 0x0401, cls := .long, lenOk := fun l => l == 32, named := fun _ b => some (arg0 b), narrow := fun _ => false,
    param := fun _ _ q => commCreateOk q.payload,
    priv := fun f s q => match reachCtx f s q (arg0 q.payload) 4 with
      | some e => some e
      | none => if (getCtx s (arg0 q.payload)).isSome && !mgidFor s (num q.payload 2 2) (arg0 q.payload) then some .privilege else none }

/-- A communicator as the first COMM_CREATE of a device makes it. -/
def Comm.new (tid deadline : Nat) : Comm :=
  { st := .joining, tid, n := 0, slotLog := 0, depth := 0, digest := [], list := [], members := [], nlocal := 0, leader := false,
    started := deadline, joinAt := none, joins := [], setupSent := false, readys := [], isRoot := false, setup := false, parent := none,
    pinput := 0, children := [], blocks := 0, inputs := [], credits := 0, ops := [], agot := [], early := [], nextArr := 0, fstatus := 0,
    origin := 0, beatAt := 0, treeQ := none, tree := none, passed := [] }

/-- The endpoint of a context's host port; a port without one has none that a list could name. -/
def ctxFeid (s : Sys) (x : Ctx) : Nat := ((getHp s x.hp).ownFeid).getD (2 ^ 20)

/-- COMM_CREATE's effect: the device enters JOINING and reads the list. -/
def bodyCommCreate (_f : FuseBank) (s : Sys) (q : MbxReq) : Ans :=
  let b := q.payload
  let ctx := arg0 b
  let k := num b 2 2
  match getCtx s ctx with
  | none => .no .stateConflict
  | some x =>
    let c := (getComm s k).getD (Comm.new (ctxTid s ctx) (epoch s + s.ce.joinEpochs))
    let feid := ctxFeid s x
    if (x.st ≠ .created ∧ x.st ≠ .active) ∨ c.st ≠ .joining ∨ c.members.any (fun m => m.ctx == ctx || m.feid == feid) = true then
      .no .stateConflict
    else
      let m : ColMember := { rank := num b 8 4, feid, ctx, digest := [], nmemb := num b 4 4, slotLog := num b 12 1, depth := num b 13 1,
                             ready := false, nextCseq := 0, reading := [] }
      let s := { s with ce := { s.ce with comms := tset s.ce.comms k { c with members := c.members ++ [m] } } }
      .wait (startAcc s ctx .lread (num b 16 8) (4 * num b 4 4) [] 0 (.colList k ctx 0) none) (.commCreate k ctx)

/-- COMM_CREATE (R186, R187). -/
def runCommCreate (f : FuseBank) (s : Sys) (q : MbxReq) : Sys := mbxThen specCommCreate bodyCommCreate settle f s q

/-- A command of 4 bytes that names a context and an MGID. -/
def specComm (opcode : Nat) (cls : RClass) (narrow : DevState → Bool) : Spec :=
  { opcode, cls, lenOk := fun l => l == 4, named := fun _ b => some (arg0 b), narrow, param := fun _ _ _ => true,
    priv := fun f s q => reachCtx f s q (arg0 q.payload) 4 }

/-- COMM_DESTROY's effect. A context without that membership is refused (log entry 33). -/
def bodyCommDestroy (_f : FuseBank) (s : Sys) (q : MbxReq) : Ans :=
  match memberOf s (num q.payload 2 2) (arg0 q.payload) with
  | none => .no .stateConflict
  | some _ => .done (leave s (num q.payload 2 2) (arg0 q.payload)) []

/-- COMM_DESTROY's traits. -/
def specCommDestroy : Spec :=
  specComm 0x0402 .slow inQ'

/-- COMM_DESTROY (R211). -/
def runCommDestroy (f : FuseBank) (s : Sys) (q : MbxReq) : Sys := mbxThen specCommDestroy bodyCommDestroy settle f s q

/-- COMM_QUERY's answer (Table 8.10). -/
def bodyCommQuery (_f : FuseBank) (s : Sys) (q : MbxReq) : Ans :=
  match memberOf s (num q.payload 2 2) (arg0 q.payload) with
  | none => .no .stateConflict
  | some (c, m) => .done s (commBytes c m)

/-- COMM_QUERY's traits. -/
def specCommQuery : Spec :=
  specComm 0x0403 .fast fun _ => false

/-- COMM_QUERY (Table 8.1). -/
def runCommQuery (f : FuseBank) (s : Sys) (q : MbxReq) : Sys := mbxRun specCommQuery bodyCommQuery f s q

/-- The count of MGIDs that a request covers: 0 stands for 65,536. -/
def grantCount (b : Bytes) : Nat := if num b 2 2 = 0 then 65536 else num b 2 2

/-- MGID_GRANT's traits. -/
def specMgidGrant : Spec :=
  Spec.fast 0x0410 8
    (fun _ _ q => decide (num q.payload 0 2 + grantCount q.payload ≤ 65536) && pdOk q.payload 4 && decide (num q.payload 6 1 < 2) && rsv q.payload 7 1)
    (sess 4)

/-- MGID_GRANT's effect. -/
def bodyMgidGrant (_f : FuseBank) (s : Sys) (q : MbxReq) : Ans :=
  let b := q.payload
  let lo := num b 0 2
  let n := grantCount b
  if s.ce.comms.any (fun e => decide (lo ≤ e.1) && decide (e.1 < lo + n)) = true then .no .stateConflict
  else .done { s with ce := { s.ce with grants := s.ce.grants ++ [(lo, n, num b 4 2, (num b 6 1).testBit 0)] } } []

/-- MGID_GRANT (R185). -/
def runMgidGrant (f : FuseBank) (s : Sys) (q : MbxReq) : Sys := mbxRun specMgidGrant bodyMgidGrant f s q

/-- COL_CONFIG's traits. -/
def specColConfig : Spec :=
  Spec.fast 0x0411 8 (fun _ _ q => decide (1 ≤ num q.payload 0 2) && decide (64 ≤ num q.payload 2 2) && rsv q.payload 4 4) (sess 4)

/-- COL_CONFIG's effect: timers started from now on take the values. -/
def bodyColConfig (_f : FuseBank) (s : Sys) (q : MbxReq) : Ans :=
  .done { s with ce := { s.ce with joinEpochs := num q.payload 0 2, beatFrames := num q.payload 2 2 } } []

/-- COL_CONFIG (R212). -/
def runColConfig (f : FuseBank) (s : Sys) (q : MbxReq) : Sys := mbxRun specColConfig bodyColConfig f s q

end Sys2Proof.Machine
end

