-- ==== Sys2Proof/Machine/PlaceRows.lean ====
section
/-!
DEFINITION. The placement engine's batch and the commit of what it decided (R222 to R230), and the commands of family 0x05 (R215 to R217,
R231, R233 to R235).
-/
namespace Sys2Proof.Machine

/-! ### Eligibility and inputs (R222, R223) -/

/-- The owner context's host port. -/
def setHp (s : Sys) (p : Pset) : Nat := ((getCtx s p.owner).map (·.hp)).getD 0

/-- The device of an endpoint can be reached. -/
def reachable (s : Sys) (hp feid : Nat) : Bool :=
  match epCoord s.rt.act feid with | some c => hasRoute s hp feid c | none => false

/-- A member is eligible at a tick (R222). -/
def memberElig (s : Sys) (p : Pset) (m : PMember) : Bool :=
  !m.removing && (match p.kind with
    | 0 => reachable s (setHp s p) m.dfeid
    | _ => ctxActive s m.ctx && (match getCtx s m.ctx with | some x => !(linkOf s x.hp x.fn).inReset | none => false) && (p.kind != 1 || m.armed))

/-- The eligibility mask of a set. -/
def eligMask (s : Sys) (p : Pset) : Nat := (p.members.map fun e => if memberElig s p e.2 then 2 ^ e.1 else 0).sum

/-- Occupancy of a host port's ejection buffer on a scale of 0 to 255. -/
def ejScale (s : Sys) (hp : Nat) : Nat := min 255 (255 * ((getHp s hp).ej.map fun e => e.2.len).sum / 8192)

/-- CONG of Table 9.4 toward a coordinate (R250): the least cost of R253 by 32, or on this device the host port's occupancy. In the own group
    it is the queue of the port that leads there by 32, and 255 without one (DESIGN CHOICE, log entry 153). -/
def congTo (s : Sys) (c : Nat) : Nat :=
  if c / 4 = myCoord s / 4 then ejScale s (c % 4)
  else if c / 256 = myGroup s then
    min 255 ((match devPort s.rt.act (c / 4 % 64) with | some p => qOf s p | none => 255 * 32) / 32)
  else match bestSlot s (c / 256) false with
    | some (_, k) => min 255 (k / 32)
    | none => 255

/-- The device at the far end of a slot, where the wiring map or a neighbour's HELLO names it. -/
def slotFar (s : Sys) (g k : Nat) : Option Nat :=
  match slotOf s.rt.act g k with
  | none => none
  | some (dev, port) =>
    if dev = myDev s then (wireOf s port).map (·.farDev)
    else match devPort s.rt.act dev with
      | none => none
      | some lp => (getNp s lp).hello.bind fun h => (h.globs.find? fun e => e.1 == g && e.2.2.1 == port).map fun e => e.2.2.2.1

/-- HOPS of Table 9.4: the fewest hops of a minimal path (R15, log entry 35). -/
def hopsTo (s : Sys) (c : Nat) : Nat :=
  let g := c / 256
  let d := c / 4 % 64
  if g = myGroup s then (if d = myDev s then 0 else 1)
  else ((List.range 8).filter fun k => slotWorks s g k).foldl (fun a k =>
    min a ((if slotOwn s g k then 0 else 1) + 1 + (if slotFar s g k = some d then 0 else 1))) 3

/-- OUT of Table 9.4. -/
def outTo (s : Sys) (c : Nat) : Nat := min 255 ((s.te.segs.filter fun g => g.dev == c / 4).length / 4)

/-- FILL of Table 9.4. -/
def fillOf (s : Sys) (c : Nat) : Nat := match getCtx s c with | some x => 255 * x.eqUsed / 2 ^ x.eqLog | none => 0

/-- rescore's score of a member (R223, R224). -/
def scoreOf (s : Sys) (p : Pset) (m : PMember) : Nat :=
  let w := s.pe.pol
  let sum := match p.kind with
    | 0 =>
      let c := (epCoord s.rt.act m.dfeid).getD 0
      w.wHint * m.hint + w.wCong * congTo s c + w.wHops * hopsTo s c * 64 + w.wOut * outTo s c
    | 1 => w.wHint * m.hint + w.wCong * ejScale s (((getCtx s m.ctx).map (·.hp)).getD 0)
    | _ => w.wHint * m.hint + w.wFill * fillOf s m.ctx
  min (sum / 16) 1023

/-- The shares that scores give under a spread (R224). -/
def sharesOf (spread : Nat) (scores : List (Nat × Option Nat)) : Table (Nat × Option Nat) :=
  let best := (scores.filterMap (·.2)).foldl min 1023
  scores.map fun e => match e.2 with
    | some v => (e.1, if v ≤ best + spread then best + spread - v + 1 else 0, some v)
    | none => (e.1, 0, none)

/-- rescore of R224 for a set: share and score by member. -/
def rescore (s : Sys) (p : Pset) : Table (Nat × Option Nat) :=
  sharesOf s.pe.pol.spread (p.members.map fun e => (e.1, if p.elig.testBit e.1 then some (scoreOf s p e.2) else none))

/-! ### Route candidates (R228) -/

/-- The candidates toward a group as scored now, ties to the lower group. -/
def candScores (s : Sys) (d : Nat) : List (Nat × Nat) :=
  let ok := fun i => i != d && i != myGroup s && ((List.range 8).any fun k => slotWorks s i k) && decide (digest s i d < 15)
  (((s.rt.act.grp.map (·.1)).filter ok).map fun i => (i, 17 * (ownDigest s i + digest s i d))).mergeSort
    fun a b => decide (a.2 < b.2) || (a.2 == b.2 && decide (a.1 ≤ b.1))

/-- The worse of two candidates. -/
def worse (a b : Nat × Nat) : Nat × Nat := if a.2 < b.2 ∨ (a.2 = b.2 ∧ a.1 < b.1) then b else a

/-- A newcomer joins the four, or replaces the worst in force if it scores at least 16 lower; with the number replaced. -/
def candStep (acc : List (Nat × Nat) × Nat) (n : Nat × Nat) : List (Nat × Nat) × Nat :=
  let (l, k) := acc
  if l.length < 4 then (l ++ [n], k)
  else
    let w := l.foldl worse (0, 0)
    if n.2 + 16 ≤ w.2 then ((l.filter fun e => e.1 != w.1) ++ [n], k + 1) else (l, k)

/-- The decision for a destination group: those in force that still qualify are kept as they stand, and newcomers follow. -/
def candDecide (s : Sys) (d : Nat) : Cands × Nat :=
  let sc := candScores s d
  let old := candsOf s d
  let keep := sc.filter fun e => old.contains e.1
  let (l, n) := (sc.filter fun e => !old.contains e.1).foldl candStep (keep, 0)
  let l := l.mergeSort fun a b => decide (a.2 < b.2) || (a.2 == b.2 && decide (a.1 ≤ b.1))
  ({ list := l, frame := ((tget s.pe.cands d).map (·.frame)).getD 0 }, n)

/-! ### The batch (R227) -/

/-- The sets of a batch: queued ones, oldest first, then those due for a refresh, oldest first. -/
def batchSets (s : Sys) : List (Nat × Bool) :=
  let ad := s.pe.sets.filter fun e => e.2.mode == 0
  let asc := fun (l : List (Nat × Nat)) => l.mergeSort fun a b => decide (a.2 ≤ b.2)
  let q := asc (ad.filterMap fun e => match e.2.queued with | some f => if f ≤ frame s then some (e.1, f) else none | none => none)
  let r := asc ((ad.filter fun e => e.2.queued.isNone && decide (e.2.lastCommit + s.pe.pol.refresh ≤ frame s)).map fun e => (e.1, e.2.lastCommit))
  (q.map fun e => (e.1, true)) ++ r.map fun e => (e.1, false)

/-- The destination groups of a batch: triggered ones, oldest first, then the round robin, without repeats. -/
def batchGroups (s : Sys) : List Nat :=
  let trig := ((s.pe.candQ.filter fun e => decide (e.2 ≤ frame s)).map (·.1)).eraseDups
  let rr := (List.range 17).map fun i => (s.pe.rr + i) % 925
  ((trig ++ rr).filter fun d => d != myGroup s).eraseDups.take 16

/-- The tree steps of a batch (Table 9.5): up to 1,024 member devices, the creation that has waited longest first. -/
def batchSteps (s : Sys) : Table Nat :=
  let q := (s.ce.comms.filterMap fun e => e.2.treeQ.map fun x => (e.1, x.1, x.2)).mergeSort fun a b => decide (a.2.1 ≤ b.2.1)
  (q.foldl (fun (a : Table Nat × Nat) e =>
    let n := min e.2.2 a.2
    if n = 0 then a else (tset a.1 e.1 n, a.2 - n)) ([], 1024)).1

/-- Those steps, with the tree of each creation whose last ones they are, from this tick's inputs (R214, R223, R229). -/
def batchTrees (s : Sys) : Table (Nat × Option TreePlan) :=
  (batchSteps s).map fun e => (e.1, e.2, (getComm s e.1).bind fun c => c.treeQ.bind fun q =>
    if q.2 ≤ e.2 then some (treeOf s (memberDevs s c.list)) else none)

/-- What the batch of the frame that begins decides: up to 256 sets and 16 groups, as this tick's inputs have it, and tree steps (R223,
    R227). What is due and does not fit, and what the batch does not complete, carries over from this frame on. -/
def planTick (s : Sys) : Sys :=
  let all := batchSets s
  let ds := batchGroups s
  let old := s.pe.candQ.map (·.1)
  let n := (ds.filter fun d => !old.contains d).length
  let s := all.foldl (fun s e => modSet s e.1 fun p => { p with queued := some (p.queued.getD (frame s)) }) s
  { s with pe := { s.pe with
    plan := { sets := (all.take 256).foldl (fun t e => match getSet s e.1 with | some p => tset t e.1 (rescore s p) | none => t) [],
              cands := ds.foldl (fun t d => tset t d (candDecide s d)) [], trees := batchTrees s },
    candQ := s.pe.candQ ++ (ds.filter fun d => !old.contains d).map fun d => (d, frame s), rr := (s.pe.rr + n) % 925 } }

/-- PLACEMENT_BATCH (R31, R227): task 2 completes, and what it decided waits in the shadow for the tick. -/
def runPlacementBatch (_f : FuseBank) (s : Sys) : Sys :=
  if stopped s 2 then s else { s with pe := { s.pe with batchDone := true } }

/-! ### The commit (R31, R33, R227, R230) -/

/-- Shares put in force at a tick; the counters of the round robin start anew. -/
def putShares (s : Sys) (k : Nat) (t : Table (Nat × Option Nat)) : Sys :=
  modSet s k fun p => { p with
    members := tmap p.members fun i m => match tget t i with
      | some (sh, sc) => { m with share := sh, score := sc, cur := 0 }
      | none => { m with share := 0, score := none, cur := 0 },
    ftCommit := s.time.ft, lastCommit := frame s, queued := none }

/-- Tree steps taken (R227): a creation whose member devices have all been stepped through has its tree, and its COL_SETUPs go out (R187,
    step 3). -/
def putTree (s : Sys) (k n : Nat) (tree : Option TreePlan) : Sys :=
  match getComm s k with
  | none => s
  | some c =>
    match c.treeQ with
    | none => s
    | some (fr, left) =>
      match tree with
      | none => modComm s k fun c => { c with treeQ := some (fr, left - n) }
      | some t => setupAll (modComm s k fun c => { c with treeQ := none, tree := some t }) k

/-- What the batch of the last frame decided comes into force as a whole, and is counted (R31, R232). -/
def putPlan (s : Sys) : Sys :=
  let p := s.pe.plan
  let sets := p.sets.filter fun e => (getSet s e.1).isSome
  let s := sets.foldl (fun s e => putShares s e.1 e.2) s
  let s := { s with pe := { s.pe with
    cands := p.cands.foldl (fun t e => tset t e.1
      { e.2.1 with frame := if e.2.1.list.map (·.1) = candsOf s e.1 then e.2.1.frame else frame s }) s.pe.cands,
    candQ := s.pe.candQ.filter fun e => (tget p.cands e.1).isNone || decide (frame s ≤ e.2) } }
  let s := p.trees.foldl (fun s e => putTree s e.1 e.2.1 e.2.2) s
  count (count (count s 87 0x01 (sets.length + p.cands.length + (p.trees.map (·.2.1)).sum)) 87 0x06 (p.cands.map fun e => e.2.2).sum)
    87 0x07 (p.trees.map (·.2.1)).sum

/-- The policy default: share 1 to every eligible member (Table 9.5). -/
def defaultShares (p : Pset) : Table (Nat × Option Nat) := p.members.map fun e => (e.1, if p.elig.testBit e.1 then 1 else 0, none)

/-- At a tick the last frame's batch is committed if it completed, else all its items carry over; items carried over 4 frames take their
    policy default (R31, R33, R227). The tick's own frame number is in force already. -/
def peCommit (s : Sys) : Sys :=
  let s := if s.pe.batchDone then putPlan s else s
  let s := { s with pe := { s.pe with batchDone := false } }
  let late := s.pe.sets.filter fun e => match e.2.queued with | some f => decide (f + 4 ≤ frame s) | none => false
  let lateG := s.pe.candQ.filter fun e => decide (e.2 + 4 ≤ frame s)
  let s := late.foldl (fun s e => putShares s e.1 (defaultShares e.2)) s
  let s := { s with pe := { s.pe with candQ := s.pe.candQ.filter fun e => !decide (e.2 + 4 ≤ frame s) } }
  let left := (s.pe.sets.filter fun e => match e.2.queued with | some f => decide (f < frame s) | none => false).length +
    (s.pe.candQ.filter fun e => decide (e.2 < frame s)).length +
    (s.ce.comms.filter fun e => match e.2.treeQ with | some x => decide (x.1 < frame s) | none => false).length
  count (count s 87 0x03 (late.length + lateG.length)) 87 0x02 left

/-- A set is triggered: it is sampled at the next tick and takes part in the batch that follows (R230). -/
def Pset.trigger (p : Pset) : Pset := if p.mode = 0 then { p with trig := true } else p

/-- A set whose trigger a tick has found waits for the batch that begins (R227). -/
def Pset.takeTrig (p : Pset) (f : Nat) : Pset :=
  if p.trig then { p with trig := false, queued := some (p.queued.getD f) } else p

/-- Working slots of each group, and the pairs of groups between which a digest shows a working link (R228, R250). -/
def linksNow (s : Sys) : Table Nat × List Nat :=
  ((s.rt.act.grp.map fun e => (e.1, ((List.range 8).map fun k => if slotWorks s e.1 k then 2 ^ k else 0).sum)).filter fun e => e.2 ≠ 0,
   (s.rt.dig.filter fun e => digest s (e.1 / 1024) (e.1 % 1024) < 15).map (·.1))

/-- A link to or from a group that has gone down or come up since the last tick triggers the candidates of the groups at its ends (R227,
    R230). -/
def linkTick (s : Sys) : Sys :=
  let (l, g) := linksNow s
  let moved := ((s.pe.links ++ l).map (·.1)).filter fun d => decide (tget l d ≠ tget s.pe.links d)
  let far := ((g.filter fun k => !s.pe.digs.contains k) ++ s.pe.digs.filter fun k => !g.contains k).flatMap fun k => [k / 1024, k % 1024]
  let new := (moved ++ far).eraseDups.filter fun d => !(s.pe.candQ.any fun e => e.1 == d) && d != myGroup s
  { s with pe := { s.pe with links := l, digs := g, candQ := s.pe.candQ ++ new.map fun d => (d, frame s) } }

/-- Hints and steering tags, the policy and the eligibility masks are taken up at a frame tick; a change of eligibility triggers the set
    (R222, R230, R233, R234). -/
def eligTick (s : Sys) : Sys :=
  let s := { s with pe := { s.pe with
    pol := s.pe.polPend.getD s.pe.pol, polPend := none,
    sets := tmap s.pe.sets fun _ p => { p with members := tmap p.members fun _ m =>
      { m with rearmed := false, hint := m.hintPend.getD m.hint, hintPend := none, stV := m.stV || m.stPend.isSome, stIdx := m.stPend.getD m.stIdx,
               stPend := none } } } }
  { s with pe := { s.pe with sets := tmap s.pe.sets fun _ p =>
      let e := eligMask s p
      (if e = p.elig then p else { p.trigger with elig := e }).takeTrig (frame s) } }

/-- The placement engine at a frame tick: what was decided is committed, the inputs are taken up, and the batch of the frame that begins is
    drawn up. -/
def peTick (s : Sys) : Sys := planTick (linkTick (eligTick (peCommit s)))

/-! ### Commands -/

/-- Sets whose owner belongs to a function. -/
def setsOf (s : Sys) (hp fn : Nat) : Nat :=
  (s.pe.sets.filter fun e => match getCtx s e.2.owner with | some x => x.hp == hp && x.fn == fn | none => false).length

/-- The lowest PSETID that is free. -/
def freeSetId (s : Sys) : Option Nat :=
  ((List.range (s.pe.sets.length + 1)).find? fun i => (getSet s i).isNone).filter fun i => decide (i < 16384)

/-- A new member (R217, R220). -/
def PMember.new (ctx dfeid rkey base len : Nat) (stV : Bool) (stIdx : Nat) : PMember :=
  { ctx, dfeid, rkey, base, len, stV, stIdx, stPend := none, hint := 0, hintPend := none, armed := true, removing := false, share := 0,
    score := none, cur := 0, chosen := 0 }

/-- PSET_CREATE's traits. -/
def specPsetCreate : Spec :=
  { opcode := 0x0501, cls := .fast, lenOk := fun l => l == 8, named := fun _ b => some (arg0 b), narrow := fun _ => false,
    param := fun _ _ q => decide (num q.payload 2 1 < 3) && decide (num q.payload 3 1 < 3) && decide (num q.payload 4 1 < 8) && rsv q.payload 5 3,
    priv := fun f s q => reachCtx f s q (arg0 q.payload) 5 }

/-- PSET_CREATE's effect. -/
def bodyPsetCreate (_f : FuseBank) (s : Sys) (q : MbxReq) : Ans :=
  let b := q.payload
  let c := arg0 b
  match getCtx s c with
  | none => .no .stateConflict
  | some x =>
    if x.st ≠ .created ∧ x.st ≠ .active then .no .stateConflict
    else if s.pe.pol.fnMax ≤ setsOf s x.hp x.fn then .no .noResource
    else match freeSetId s with
    | none => .no .noResource
    | some k =>
      let key := (Config.joinKeyLessOne s.free).val + 1
      let p : Pset :=
        { kind := num b 2 1, mode := num b 3 1, fixed := num b 4 1, owner := c, pd := x.pd, joinkey := key,
          members := if num b 2 1 = 2 then [(0, PMember.new c 0 0 0 0 false 0)] else [], elig := 0, ftCommit := 0,
          lastCommit := frame s, queued := none, trig := false, destroying := false }
      .done { draw s with pe := { s.pe with sets := tset s.pe.sets k (if num b 2 1 = 2 then p.trigger else p) } }
        (le 2 k ++ zeros 2 ++ le 4 key)

/-- PSET_CREATE (R216). -/
def runPsetCreate (f : FuseBank) (s : Sys) (q : MbxReq) : Sys := mbxRun specPsetCreate bodyPsetCreate f s q

/-- The requester is the function of a context. -/
def isFnOf (s : Sys) (q : MbxReq) (c : Nat) : Bool := match getCtx s c with | some x => q.who == .fn x.hp x.fn | none => false

/-- The owner's function, or a session over it (R97, Table 3.18). -/
def ownerReach (f : FuseBank) (s : Sys) (q : MbxReq) (p : Pset) : Option Status :=
  match getCtx s p.owner with | some x => reachFn f s q x.hp x.fn 5 | none => some .privilege

/-- The owner's function, or a member's function that acts on its own member (Table 9.6). A set that does not exist is within no reach. -/
def memberReach (f : FuseBank) (s : Sys) (q : MbxReq) (k : Nat) (mine : Pset → Bool) : Option Status :=
  match getSet s k with
  | none => some .privilege
  | some p => if mine p then none else ownerReach f s q p

/-- A member of a set belongs to the requester's function. -/
def ownMember (s : Sys) (q : MbxReq) (p : Pset) (i : Nat) : Bool :=
  p.kind != 0 && (match tget p.members i with | some m => isFnOf s q m.ctx | none => false)

/-- PSET_DESTROY's traits. -/
def specPsetDestroy : Spec :=
  { opcode := 0x0502, cls := .slow, lenOk := fun l => l == 4, named := fun _ _ => none, narrow := inQ',
    param := fun _ _ q => rsv q.payload 2 2, priv := fun f s q => memberReach f s q (arg0 q.payload) fun _ => false }

/-- A posted receive names a set. -/
def setPosted (s : Sys) (k : Nat) : Bool :=
  s.ctxs.any fun e => (e.2.posted ++ e.2.deferred).any fun r => r.pset == some k

/-- PSET_DESTROY's effect. -/
def bodyPsetDestroy (_f : FuseBank) (s : Sys) (q : MbxReq) : Ans :=
  let k := arg0 q.payload
  if setPosted s k || ((getSet s k).map (·.destroying)).getD true then .no .stateConflict
  else .wait (modSet s k fun p => { p with destroying := true, members := tmap p.members fun _ m => { m with removing := true } })
    (.psetDestroy k)

/-- PSET_DESTROY (R231). -/
def runPsetDestroy (f : FuseBank) (s : Sys) (q : MbxReq) : Sys := mbxThen specPsetDestroy bodyPsetDestroy settle f s q

/-- PSET_ADD's parameters: those of every kind, then those of the set's kind (R217, Table 9.3). -/
def psetAddOk (s : Sys) (b : Bytes) : Bool :=
  decide (num b 2 1 < 8) && decide (num b 3 1 < 2) && decide (num b 10 1 < 64) && rsv b 11 1 && decide (num b 12 4 < 2 ^ 20) && rsv b 20 4 &&
    (match getSet s (num b 0 2) with
     | none => true
     | some p => match p.kind with
       | 0 => rsv b 32 8 && (epCoord s.rt.act (num b 12 4)).isSome
       | 1 => decide (1 ≤ num b 32 8) && decide (num b 32 8 < 2 ^ 32)
       | _ => rsv b 24 16)

/-- PSET_ADD's right: the owner's function for REMOTE, else the member context's own with the JOINKEY (Table 9.3). -/
def psetAddPriv (f : FuseBank) (s : Sys) (q : MbxReq) : Option Status :=
  let b := q.payload
  let c := num b 8 2
  match getSet s (num b 0 2) with
  | none => some .privilege
  | some p =>
    if p.kind = 0 then ownerReach f s q p
    else if isFnOf s q c && num b 4 4 == p.joinkey &&
        (if p.kind = 1 then ctxTid s c == ctxTid s p.owner else pdidOf s c == p.pd) then none
    else some .privilege

/-- PSET_ADD's traits. -/
def specPsetAdd : Spec :=
  { Spec.fast 0x0503 40 (fun _ s q => psetAddOk s q.payload) psetAddPriv with
    narrow := fun _ => false,
    named := fun s b => match getSet s (num b 0 2) with
      | some p => if p.kind = 0 then none else some (num b 8 2)
      | none => none }

/-- PSET_ADD's effect. -/
def bodyPsetAdd (_f : FuseBank) (s : Sys) (q : MbxReq) : Ans :=
  let b := q.payload
  let i := num b 2 1
  match getSet s (num b 0 2) with
  | none => .no .privilege
  | some p =>
    if (tget p.members i).isSome ∨ (p.kind = 2 ∧ i = 0) ∨ p.destroying then .no .stateConflict
    else
      let st := p.kind == 1 && (num b 3 1).testBit 0
      let m := PMember.new (num b 8 2) (num b 12 4) (num b 16 4) (num b 24 8) (num b 32 8) st (if p.kind = 1 then num b 10 1 else 0)
      .done (modSet s (num b 0 2) fun p => { (p.trigger) with members := tset p.members i m }) []

/-- PSET_ADD (R217). -/
def runPsetAdd (f : FuseBank) (s : Sys) (q : MbxReq) : Sys := mbxRun specPsetAdd bodyPsetAdd f s q

/-- PSET_REMOVE's traits. -/
def specPsetRemove : Spec :=
  { opcode := 0x0504, cls := .slow, lenOk := fun l => l == 8, named := fun _ _ => none, narrow := inQ',
    param := fun _ s q => decide (num q.payload 2 1 < 8) && rsv q.payload 3 1 &&
      (match getSet s (arg0 q.payload) with
       | some p => !(p.kind == 2 && num q.payload 2 1 == 0) && (tget p.members (num q.payload 2 1)).isSome
       | none => true),
    priv := fun f s q => memberReach f s q (arg0 q.payload) fun p => ownMember s q p (num q.payload 2 1) && num q.payload 4 4 == p.joinkey }

/-- PSET_REMOVE's effect. A member that is being removed already is refused (DESIGN CHOICE, log entry 78). -/
def bodyPsetRemove (_f : FuseBank) (s : Sys) (q : MbxReq) : Ans :=
  let k := arg0 q.payload
  let i := num q.payload 2 1
  match (getSet s k).bind fun p => tget p.members i with
  | none => .no .badParam
  | some m =>
    if m.removing then .no .stateConflict
    else .wait (modMember (modSet s k fun p => p.trigger) k i fun m => { m with removing := true }) (.psetRemove k i)

/-- PSET_REMOVE (R231). -/
def runPsetRemove (f : FuseBank) (s : Sys) (q : MbxReq) : Sys := mbxThen specPsetRemove bodyPsetRemove settle f s q

/-- PSET_HINT's traits. Its payload has no place for a JOINKEY: a member's function acts on its own member without it (log entry 34). -/
def specPsetHint : Spec :=
  Spec.fast 0x0505 8
    (fun _ s q => decide (num q.payload 2 1 < 8) && decide (num q.payload 3 1 < 8) && decide (num q.payload 5 1 < 64) && rsv q.payload 6 2 &&
      (match getSet s (arg0 q.payload) with
       | some p => (tget p.members (num q.payload 2 1)).isSome && !((num q.payload 3 1).testBit 0 && p.kind != 1)
       | none => true))
    fun f s q => memberReach f s q (arg0 q.payload) fun p => ownMember s q p (num q.payload 2 1)

/-- PSET_HINT's effect. With ST_V 0 the member keeps its steering tag and whether it has one (DESIGN CHOICE, log entry 152). -/
def bodyPsetHint (_f : FuseBank) (s : Sys) (q : MbxReq) : Ans :=
  let b := q.payload
  let k := arg0 b
  let i := num b 2 1
  let fl := num b 3 1
  match (getSet s k).bind fun p => tget p.members i with
  | none => .no .badParam
  | some m =>
    if fl.testBit 0 ∧ m.armed then .no .stateConflict
    else
      let s := modMember s k i fun m =>
        { m with armed := m.armed || fl.testBit 0, rearmed := m.rearmed || fl.testBit 0, stPend := if fl.testBit 1 then some (num b 5 1) else m.stPend,
                 hintPend := if fl.testBit 2 then some (num b 4 1) else m.hintPend }
      .done (modSet s k fun p => if fl.testBit 2 then p.trigger else p) []

/-- PSET_HINT (R233). -/
def runPsetHint (f : FuseBank) (s : Sys) (q : MbxReq) : Sys := mbxRun specPsetHint bodyPsetHint f s q

/-- PSET_QUERY's answer (Table 9.7). SHARE under FIXED and EQUAL is what the mode gives an eligible member, 0 for another (DESIGN CHOICE, log
    entry 154). -/
def psetBytes (p : Pset) : Bytes :=
  let mask := fun (g : PMember → Bool) => (p.members.map fun e => if g e.2 then 2 ^ e.1 else 0).sum
  le 1 p.kind ++ le 1 p.mode ++ le 1 (mask fun _ => true) ++ le 1 p.elig ++ le 2 p.owner ++
    le 1 (if p.kind = 1 then mask (·.armed) else 0) ++ zeros 1 ++ le 8 p.ftCommit ++
    (List.range 8).flatMap fun i => match tget p.members i with
      | some m => le 2 (if p.mode = 0 ∨ p.elig.testBit i then shareOf p i m else 0) ++ le 2 (m.score.getD 0xFFFF) ++ le 4 m.chosen
      | none => zeros 2 ++ le 2 0xFFFF ++ zeros 4

/-- PSET_QUERY's effect. -/
def bodyPsetQuery (_f : FuseBank) (s : Sys) (q : MbxReq) : Ans :=
  match getSet s (arg0 q.payload) with | some p => .done s (psetBytes p) | none => .no .privilege

/-- PSET_QUERY's traits. -/
def specPsetQuery : Spec :=
  Spec.fast 0x0506 4 (fun _ _ q => rsv q.payload 2 2) fun f s q =>
    memberReach f s q (arg0 q.payload) fun p => p.members.any fun m => ownMember s q p m.1

/-- PSET_QUERY (Table 9.7). -/
def runPsetQuery (f : FuseBank) (s : Sys) (q : MbxReq) : Sys :=
  mbxRun specPsetQuery bodyPsetQuery f s q

/-- PE_POLICY's parameters (Table 9.8). -/
def pePolicyOk (b : Bytes) : Bool :=
  decide (num b 2 1 < 16) && decide (num b 3 1 < 2) && decide (num b 4 2 ≤ 1023) && decide (1 ≤ num b 6 2) && decide (num b 6 2 ≤ 1024) &&
    decide (1 ≤ num b 8 2) && decide (num b 8 2 ≤ 16384) && rsv b 10 6

/-- PE_POLICY's effect: the values wait for the next frame tick. -/
def bodyPePolicy (_f : FuseBank) (s : Sys) (q : MbxReq) : Ans :=
  let b := q.payload
  let p : PePol :=
    { wHint := num b 0 1 % 16, wCong := num b 0 1 / 16, wFill := num b 1 1 % 16, wHops := num b 1 1 / 16, wOut := num b 2 1 % 16,
      rootPolicy := num b 3 1, spread := num b 4 2, refresh := num b 6 2, fnMax := num b 8 2 }
  .done { s with pe := { s.pe with polPend := some p } } []

/-- PE_POLICY's traits. -/
def specPePolicy : Spec :=
  Spec.fast 0x0510 16 (fun _ _ q => pePolicyOk q.payload) (sess 5)

/-- PE_POLICY (R234). -/
def runPePolicy (f : FuseBank) (s : Sys) (q : MbxReq) : Sys :=
  mbxRun specPePolicy bodyPePolicy f s q

/-- PE_ROUTE_QUERY's answer (R235). -/
def bodyPeRouteQuery (_f : FuseBank) (s : Sys) (q : MbxReq) : Ans :=
  let c := (tget s.pe.cands (arg0 q.payload)).getD { list := [], frame := 0 }
  .done s (((List.range 4).flatMap fun i => le 2 ((c.list[i]?.map (·.1)).getD 0x3FF)) ++
    ((List.range 4).flatMap fun i => le 2 ((c.list[i]?.map (·.2)).getD 0xFFFF)) ++ le 4 c.frame)

/-- PE_ROUTE_QUERY's traits. -/
def specPeRouteQuery : Spec :=
  Spec.fast 0x0511 4 (fun _ s q => decide (arg0 q.payload ≤ 924) && arg0 q.payload != myGroup s && rsv q.payload 2 2) (sess 5)

/-- PE_ROUTE_QUERY (R235). -/
def runPeRouteQuery (f : FuseBank) (s : Sys) (q : MbxReq) : Sys :=
  mbxRun specPeRouteQuery
    bodyPeRouteQuery f s q

end Sys2Proof.Machine
end

