-- ==== Sys2Proof/Machine/MbxRows.lean ====
section
/-!
DEFINITION. The commands of the device and of sessions (family 0x00: R51, R54, R56 to R61, R365, R366) and the expiries that go with them.
-/
namespace Sys2Proof.Machine

/-- A command of family 0x00 that every served state takes. -/
def specDev (opcode n : Nat) (cls : RClass) (param : FuseBank → Sys → MbxReq → Bool) (priv : FuseBank → Sys → MbxReq → Option Status) : Spec :=
  { opcode, cls, lenOk := fun l => l == n, named := fun _ _ => none, narrow := fun _ => true, param, priv }

/-! ### IDENTIFY, GET_STATE, ADMIN_RING_SET, MBX_RESULT -/

/-- Host port and function of a requester; 0xFF over MCTP. -/
def whoBytes (w : Requester) : Bytes := match w with | .fn hp fn => le 1 hp ++ le 1 fn | .mctp _ => le 1 0xFF ++ le 1 0xFF

/-- IDENTIFY's answer (Table 3.14); the ROM responder reports no coordinate and no versions (R366). -/
def identifyBytes (f : FuseBank) (s : Sys) (w : Requester) : Bytes :=
  let rom := early s
  let v := fun n => if rom then 0 else n
  let cv := !rom && (s.start.fru.isSome || cvOf s.rt.act)
  le 1 f.order ++ le 1 0x21 ++ le 1 (v 4) ++ le 1 (v 2) ++ le 2 (v Config.ccPatch.toNat) ++ le 1 0 ++ le 1 (v Config.tarnMajor.toNat) ++
    le 1 (v Config.tarnMinor.toNat) ++ zeros 1 ++ le 2 (v Config.tarnPatch.toNat) ++
    le 4 ((if cv then myCoord s else 0) + 2 ^ 31 * b2n cv) ++ le 2 s.start.incarn ++ le 1 s.dev.st.code ++ le 1 (lifecycle f s).code ++
    whoBytes w ++ zeros 2 ++ le 8 f.uid ++ le 8 (npMask f) ++ zeros 8

/-- IDENTIFY's effect. -/
def bodyIdentify (f : FuseBank) (s : Sys) (q : MbxReq) : Ans := .done s (identifyBytes f s q.who)

/-- IDENTIFY's traits. -/
def specIdentify : Spec :=
  specDev 0x0001 0 .fast (fun _ _ _ => true) noSess

/-- IDENTIFY (Table 3.14). -/
def runIdentify (f : FuseBank) (s : Sys) (q : MbxReq) : Sys := mbxRun specIdentify bodyIdentify f s q

/-- GET_STATE's answer (Table 3.15). -/
def stateBytes (s : Sys) (w : Requester) : Bytes :=
  let ab := match w with | .fn hp fn => (getFn s hp fn).fnAbort | .mctp _ => false
  le 1 s.dev.st.code ++ le 1 s.dev.prev.code ++ le 1 (b2n (degr s) + 2 * b2n ab) ++ le 1 (s.svc.pend.filter fun p => p.who == w).length ++
    zeros 4 ++ le 8 s.dev.ftTrans

/-- GET_STATE's effect. -/
def bodyGetState (_f : FuseBank) (s : Sys) (q : MbxReq) : Ans := .done s (stateBytes s q.who)

/-- GET_STATE's traits. -/
def specGetState : Spec :=
  specDev 0x0002 0 .fast (fun _ _ _ => true) noSess

/-- GET_STATE (Table 3.15). -/
def runGetState (f : FuseBank) (s : Sys) (q : MbxReq) : Sys := mbxRun specGetState bodyGetState f s q

/-- ADMIN_RING_SET's parameters; over MCTP only whether the address is 0 counts (R365). -/
def adminRingOk (q : MbxReq) : Bool :=
  rsv q.payload 10 6 && (num q.payload 0 8 == 0 || (match q.who with
    | .fn _ _ => num q.payload 0 8 % 4096 == 0 && pow2In (num q.payload 8 2) 64 4096
    | .mctp _ => true))

/-- ADMIN_RING_SET's effect. -/
def bodyAdminRingSet (_f : FuseBank) (s : Sys) (q : MbxReq) : Ans :=
  let b := q.payload
  match q.who with
  | .fn hp fn => .done (modMbx s hp fn fun m =>
      { m with adminHead := 0, admin := if num b 0 8 = 0 then none else some (EvRing.new (num b 0 8) (num b 8 2) 0) }) []
  | .mctp eid =>
    let rest := s.svc.subs.filter (· != eid)
    .done { s with svc := { s.svc with subs := if num b 0 8 = 0 then rest else rest ++ [eid] } } []

/-- ADMIN_RING_SET's traits. -/
def specAdminRingSet : Spec :=
  specDev 0x0003 16 .fast (fun _ _ q => adminRingOk q) noSess

/-- ADMIN_RING_SET (R51, R365). -/
def runAdminRingSet (f : FuseBank) (s : Sys) (q : MbxReq) : Sys :=
  mbxRun specAdminRingSet bodyAdminRingSet f s q

/-- The accepted command that a tag names. -/
def pendOf (s : Sys) (who : Requester) (tag : Nat) : Option Pend := s.svc.pend.find? fun p => p.who == who && p.tag == tag

/-- MBX_RESULT's traits. -/
def specMbxResult : Spec :=
  specDev 0x0004 4 .fast (fun _ s q => rsv q.payload 2 2 && (pendOf s q.who (arg0 q.payload)).isSome) noSess

/-- MBX_RESULT (R54): the stored result goes out as it is, and its tag is free. -/
def runMbxResult (f : FuseBank) (s : Sys) (q : MbxReq) : Sys :=
  mbxGate s 0x0004 q fun s =>
    let pre := preCheck specMbxResult f s q
    let s := touchSession s q.who q.token
    match pre, (pendOf s q.who (arg0 q.payload)).map (·.res) with
    | none, some (some r) =>
      let s := { s with svc := { s.svc with pend := s.svc.pend.filter fun p => !(p.who == q.who && p.tag == arg0 q.payload) } }
      let s := respond s q.who q.tag r
      if q.flags.testBit 0 then postDone s q.who q.tag 0x0004 0 else s
    | some e, _ => finishNow s q 0x0004 e none [] true
    | none, _ => finishNow s q 0x0004 .busy none [] true

/-! ### DEV_QUIESCE, DEV_RESUME (R60, R61) -/

/-- DEV_QUIESCE's effect: no descriptor is fetched from now on. -/
def bodyDevQuiesce (_f : FuseBank) (s : Sys) (_q : MbxReq) : Ans :=
  if (s.dev.st ≠ .ready ∧ s.dev.st ≠ .degraded) ∨ s.dev.quiescing then .no .stateConflict
  else .wait { s with dev := { s.dev with quiescing := true } } .quiesce

/-- A slow command on the device state, which FAULT does not take. -/
def specQuiesce (opcode : Nat) : Spec :=
  { specDev opcode 0 .slow (fun _ _ _ => true) (sess 0) with narrow := fun _ => false }

/-- DEV_QUIESCE's traits. -/
def specDevQuiesce : Spec :=
  specQuiesce 0x0005

/-- DEV_QUIESCE (R61). -/
def runDevQuiesce (f : FuseBank) (s : Sys) (q : MbxReq) : Sys := mbxRun specDevQuiesce bodyDevQuiesce f s q

/-- Nothing that the device has fetched or started is left to run (R61). -/
def quiet (s : Sys) : Bool :=
  s.te.ops.isEmpty && s.te.segs.isEmpty &&
    s.ctxs.all fun e => !(e.2.st == .active || e.2.st == .stalled) || (e.2.descs.isEmpty && !e.2.fetching)

/-- QUIESCE_COMPLETE (R61): QUIESCED is entered and the command ends. Where the device has left READY and DEGRADED meanwhile (a staging lock
    has opened, a FATAL fault), the command ends OK and the state stays (DESIGN CHOICE, log entry 124: R61 does not say). -/
def runQuiesceComplete (_f : FuseBank) (s : Sys) : Sys :=
  if s.dev.quiescing ∧ quiet s then
    let s := { s with dev := { s.dev with quiescing := false } }
    let s := match s.dev.st with | .ready | .degraded => setDev s .quiesced | _ => s
    endWait s (fun w => w == .quiesce) .ok []
  else s

/-- DEV_RESUME's effect. -/
def bodyDevResume (_f : FuseBank) (s : Sys) (_q : MbxReq) : Ans :=
  if s.dev.st = .quiesced then .done (setDev s (readyOr s)) [] else .no .stateConflict

/-- DEV_RESUME's traits. -/
def specDevResume : Spec :=
  specQuiesce 0x0006

/-- DEV_RESUME (Table 3.10). -/
def runDevResume (f : FuseBank) (s : Sys) (q : MbxReq) : Sys := mbxRun specDevResume bodyDevResume f s q

/-! ### Sessions (R56 to R59) -/

/-- A session key slot. -/
def keySlot (s : Sys) (k : Nat) : KeySlot := s.sec.keys.getD k { key := none, mask := 0, fails := 0, until_ := 0 }

/-- A session key slot changed. -/
def modKey (s : Sys) (k : Nat) (g : KeySlot → KeySlot) : Sys := { s with sec := { s.sec with keys := s.sec.keys.modify k g } }

/-- Sessions are opened from a physical function or over MCTP (R55). -/
def noVf : FuseBank → Sys → MbxReq → Option Status := fun _ _ q => if isVf q.who then some .privilege else none

/-- A requester's challenge is taken away. -/
def dropChal (s : Sys) (who : Requester) : Sys := { s with sec := { s.sec with chals := s.sec.chals.filter fun c => c.who != who } }

/-- SESSION_OPEN's effect. -/
def bodySessionOpen (f : FuseBank) (s : Sys) (q : MbxReq) : Ans :=
  let k := num q.payload 0 1
  match lifecycle f s with
  | .blank | .fieldDebug => .no .stateConflict
  | _ =>
    if epoch s < (keySlot s k).until_ then .no .busy
    else
      let n := le 32 (Config.nonce s.free).toNat
      let s := dropChal (draw s) q.who
      .done { s with sec := { s.sec with chals := s.sec.chals ++ [{ who := q.who, slot := k, nonce := n, epoch := epoch s }] } } n

/-- SESSION_OPEN's traits. -/
def specSessionOpen : Spec :=
  specDev 0x0010 4 .fast (fun _ _ q => decide (num q.payload 0 1 < 16) && rsv q.payload 1 3) noVf

/-- SESSION_OPEN (R56, R58, R383). -/
def runSessionOpen (f : FuseBank) (s : Sys) (q : MbxReq) : Sys :=
  mbxRun specSessionOpen bodySessionOpen f s q

/-- The proof of R57. -/
def proofOf (f : FuseBank) (key nonce : Bytes) (w : Requester) (slot : Nat) : Bytes :=
  kmac256 key (nonce ++ le 8 f.uid ++ whoBytes w ++ le 1 slot) 32 "JA64-SESSION"

/-- A failed proof counts on its slot and starts the back-off (R58); its epochs are counted from the number of the epoch of the failure, so
    that the first can be shorter than a whole epoch (DESIGN CHOICE, log entry 123: R58 does not say how the count begins). -/
def backOff (s : Sys) (k : Nat) : Sys :=
  let n := (keySlot s k).fails + 1
  let s := modKey s k fun x => { x with fails := n, until_ := epoch s + min 1024 (2 ^ (n - 1)) }
  logW s 0x0013 1 0xFFFF (k + 256 * min 255 n)

/-- The proof offered to an open challenge is right. -/
def proofOk (f : FuseBank) (s : Sys) (q : MbxReq) (c : Challenge) : Bool :=
  match (keySlot s c.slot).key with
  | some key => proofOf f key c.nonce q.who c.slot == sub q.payload 4 32
  | none => false

/-- A session opened. FAMILIES shows the family bits 0 to 11 of the mask (Table 3.16, R375). -/
def openSession (s : Sys) (who : Requester) (c : Challenge) : Sys × Bytes :=
  let tok := (Config.tokenLessOne s.free).val + 1
  let fam := (keySlot s c.slot).mask
  let s := draw s
  ({ s with sec := { s.sec with sessions := s.sec.sessions ++
      [{ who, token := tok, slot := c.slot, families := fam, lastEpoch := epoch s, nonce := c.nonce, keySets := 0 }] } },
   le 8 tok ++ le 2 (fam % 0x1000) ++ zeros 2 ++ le 4 s.upd.idle)

/-- SESSION_PROVE's effect. -/
def bodySessionProve (f : FuseBank) (s : Sys) (q : MbxReq) : Ans :=
  match s.sec.chals.find? fun c => c.who == q.who && c.slot == num q.payload 0 1 with
  | none => .no .authFail
  | some c =>
    if proofOk f s q c = false then .doneAs (backOff s c.slot) .authFail []
    else
      let s := modKey s c.slot fun x => { x with fails := 0, until_ := 0 }
      if 4 ≤ (s.sec.sessions.filter fun x => sameLimit x.who q.who).length then .doneAs s .noResource []
      else
        let (s, b) := openSession s q.who c
        .done s b

/-- SESSION_PROVE's traits. -/
def specSessionProve : Spec := specDev 0x0011 36 .fast (fun _ _ q => decide (num q.payload 0 1 < 16) && rsv q.payload 1 3) noVf

/-- SESSION_PROVE (R57 to R59): the challenge is consumed whatever the status (R49). -/
def runSessionProve (f : FuseBank) (s : Sys) (q : MbxReq) : Sys :=
  mbxThen specSessionProve bodySessionProve (fun y => dropChal y q.who) f s q

/-- SESSION_CLOSE needs a live session of the requester and no family (R59). -/
def ownSession : FuseBank → Sys → MbxReq → Option Status := fun _ s q =>
  if isVf q.who then some .privilege else if (sessionOf s q.who q.token).isSome then none else some .noSession

/-- SESSION_CLOSE's effect. -/
def bodySessionClose (_f : FuseBank) (s : Sys) (q : MbxReq) : Ans :=
  .done (endSessions s (fun x => x.who == q.who && x.token == q.token) 1 fun _ => false) []

/-- SESSION_CLOSE's traits. -/
def specSessionClose : Spec :=
  specDev 0x0012 0 .fast (fun _ _ _ => true) ownSession

/-- SESSION_CLOSE (R59). -/
def runSessionClose (f : FuseBank) (s : Sys) (q : MbxReq) : Sys :=
  mbxRun specSessionClose bodySessionClose f s q

/-- SESSION_IDLE_EXPIRY (R34, R59): at an epoch tick the idle count has reached the limit; an overrun of task 10 leaves it to the next epoch. -/
def runSessionIdleExpiry (_f : FuseBank) (s : Sys) (token : Nat) : Sys :=
  endSessions s (fun x => x.token == token && !s.time.epNow.testBit 10 && decide (x.lastEpoch + 1 + s.upd.idle ≤ epoch s)) 2 fun _ => false

/-- CHALLENGE_EXPIRY (R56): 1,024 epochs are counted as a difference of epoch numbers, so that a challenge opened late in an epoch lives
    almost one epoch less than 1.342 s (DESIGN CHOICE, log entry 123: R56 does not say how the count begins). -/
def runChallengeExpiry (_f : FuseBank) (s : Sys) (who : Requester) : Sys :=
  { s with sec := { s.sec with chals := s.sec.chals.filter fun c => !(c.who == who && decide (c.epoch + 1024 ≤ epoch s)) } }

end Sys2Proof.Machine
end

