-- ==== Sys2Proof/Machine/Lanes.lean ====
section
/-!
DEFINITION. Lanes, forward error correction and training of the network ports (chapter 12), and the loss of reference clocks (R442).
-/
namespace Sys2Proof.Machine

/-! ### Training (R272, R302, R313, R328) -/

/-- The FEC mode that lane settings give the transmitter (R308, Table 12.1): 1 RS(544,514), 2 short-reach. -/
def SlCfg.txMode (c : SlCfg) : Nat := if c.fec = 0 then (if c.chan = 2 then 1 else 2) else c.fec

/-- A port in a cage is held in DOWN (R328, R349, R357, R360): the cage is not POWERED with power-good, its module is not ready, or its
    data path has a fault. -/
def cageHolds (s : Sys) (p : Nat) : Bool :=
  match wireOf s p with
  | some e =>
    e.cageV && (!((getCage s e.cage).st == .powered && (getCage s e.cage).pg && (getCage s e.cage).ready) || (getNp s p).modFault ||
      (getNp s p).modMiss)
  | none => false

/-- A port enters TRAINING: settings that wait are taken up and its transmitter's FEC mode is fixed (R308, R316). -/
def enterTraining (s : Sys) (p : Nat) : Sys :=
  modNp s p fun n =>
    let c := n.slNext.getD n.sl
    { n with st := .training, phase := 1, initAt := frame s, sl := c, slNext := none, txFec := c.txMode, rxFec := 0, aligned := false,
             lane0 := { n.lane0 with trained := false }, lane1 := { n.lane1 with trained := false } }

/-- LINK_HOLDOFF_EXPIRY (R272): 16 frames in DOWN with fewer than 8 failed attempts, no hold by a cage, and a locked quad PLL. -/
def runLinkHoldoffExpiry (_f : FuseBank) (s : Sys) (port : Nat) : Sys :=
  let n := getNp s port
  if n.st = .down ∧ n.holdFrom + 16 ≤ frame s ∧ n.attempts < 8 ∧ cageHolds s port = false ∧ quadLocked s (port / 2) = true ∧
     s.pwr.tripped = false then enterTraining s port
  else s

/-- Lanes of a mask changed. -/
def onLanes (n : NPrt) (mask : Nat) (g : Lane → Lane) : NPrt :=
  { n with lane0 := if mask.testBit 0 then g n.lane0 else n.lane0, lane1 := if mask.testBit 1 then g n.lane1 else n.lane1 }

/-- Lane 1 arrives `skew` UI after lane 0, and with the SLIP delays the lanes of a mask lie within the 160 UI that the hardware absorbs
    (R314). -/
def skewOk (n : NPrt) (mask : Nat) (skew : Int) : Bool :=
  let d := skew + n.lane1.slip - n.lane0.slip
  mask != 3 || (decide (-160 ≤ d) && decide (d ≤ 160))

/-- A dropped lane has completed training alone: it is trained, and watched from this epoch on while it is locked (R292). -/
def laneTrained (s : Sys) (l : Lane) : Lane := { l with trained := true, lockEpoch := if l.lock then some (epoch s) else none }

/-- TRAINING_PHASE_DONE (R313): the next phase, without phase 2 on a C2M channel, and after phase 3 INIT with the mode found (R308), unless
    the skew is too large (R314). On a port in UP it is the dropped lane that trains alone, phase by phase (R292; log entry 81). -/
def runTrainingPhaseDone (_f : FuseBank) (s : Sys) (port rxFec : Nat) (skew : Int) : Sys :=
  let n := getNp s port
  if quadLocked s (port / 2) = false then s
  else if n.st = .up then
    let m := 3 - n.rxLanes
    if n.addPhase = 1 then
      modNp s port fun n => { onLanes n m (fun l => { l with sd := true, lock := true }) with addPhase := if n.sl.chan = 2 then 3 else 2 }
    else if n.addPhase = 2 then modNp s port fun n => { n with addPhase := 3 }
    else if n.addPhase = 3 then modNp s port fun n => { onLanes n m (laneTrained s) with addPhase := 0 }
    else s
  else if n.st ≠ .training then s
  else if n.phase = 1 then
    modNp s port fun n =>
      { onLanes n n.sl.train (fun l => { l with sd := true, lock := true, trained := decide (n.sl.chan = 2) }) with
        phase := if n.sl.chan = 2 then 3 else 2, initAt := frame s }
  else if n.phase = 2 then
    modNp s port fun n => { onLanes n n.sl.train (fun l => { l with trained := true }) with phase := 3, initAt := frame s }
  else if (rxFec = 1 ∨ rxFec = 2) ∧ skewOk n n.sl.train skew = true then
    modNp (enterInit s port) port fun n => { n with rxFec := rxFec, serFec := rxFec }
  else s

/-- The bound of a training phase in frames (Table 12.4): 2 ms, 500 ms, 2 ms. -/
def phaseBound (phase : Nat) : Nat := if phase = 2 then 781250 else 3125

/-- TRAINING_PHASE_TIMEOUT (R313): a phase at its bound returns the port to DOWN; `signal`: phase 1 had signal on every lane. -/
def runTrainingPhaseTimeout (_f : FuseBank) (s : Sys) (port : Nat) (signal : Bool) : Sys :=
  let n := getNp s port
  if n.st = .training ∧ n.initAt + phaseBound n.phase ≤ frame s then
    modNp s port fun n =>
      { n.idle with st := .down, holdFrom := frame s, attempts := n.attempts + 1,
                    trainResult := if n.phase = 1 then (if signal then 3 else 2) else n.phase + 2 }
  else s

/-! ### Detectors (R296, R302, R311, R312) -/

/-- One lane of a port changed. -/
def modLane (s : Sys) (p k : Nat) (g : Lane → Lane) : Sys := modNp s p fun n => onLanes n (2 ^ k) g

/-- A lane is active in the receive mask of an UP port. -/
def laneActive (n : NPrt) (k : Nat) : Bool := (n.st == .up || n.st == .init) && n.rxLanes.testBit k

/-- Lane k of a port. -/
def laneOf (n : NPrt) (k : Nat) : Lane := if k = 0 then n.lane0 else n.lane1

/-- LOS_ASSERT (R311): the assertion is counted, and the condition runs from here. -/
def runLosAssert (_f : FuseBank) (s : Sys) (port lane : Nat) : Sys :=
  let n := getNp s port
  let s := if laneActive n lane && (laneOf n lane).sd then count s port 0x25 1 else s
  reDetect (modLane s port lane fun l => { l with sd := false }) port

/-- LOS_CLEAR (R296, R311): where the condition clears before the port is declared down, it stays UP. -/
def runLosClear (_f : FuseBank) (s : Sys) (port lane : Nat) : Sys :=
  reDetect (modLane s port lane fun l => { l with sd := true }) port

/-- LOCK_LOSS (R292, R311): an active lane lost while the other stays locked asks for its FORCED drop at once. A lane change that this
    device asked for and that is not forced gives way (log entry 36). -/
def runLockLoss (_f : FuseBank) (s : Sys) (port lane : Nat) : Sys :=
  let n := getNp s port
  let act := laneActive n lane
  let s := if act && (laneOf n lane).lock then count s port 0x26 1 else s
  let s := reDetect (modLane s port lane fun l => { l with lock := false, lockEpoch := none }) port
  let other := 1 - lane
  let drop := act && n.st == .up && n.rxLanes == 3 && (if other = 0 then n.lane0.lock else n.lane1.lock) &&
    !((n.lreq.map (·.forced)).getD false)
  if drop then
    let s := if n.lreq.isSome then laneAbandon s port .stateConflict else s
    laneRequest s port (2 ^ other) true none
  else s

/-- LOCK_REGAIN (R292, R311): a dropped lane is watched from this epoch on. -/
def runLockRegain (_f : FuseBank) (s : Sys) (port lane : Nat) : Sys :=
  if quadLocked s (port / 2) = false then s
  else
    let act := laneActive (getNp s port) lane
    reDetect (modLane s port lane fun l =>
      { l with lock := true, lockEpoch := if act then none else if l.trained then l.lockEpoch.or (some (epoch s)) else none }) port

/-- ALIGNMENT_LOSS (R312): 8 uncorrectable units in a row. With an active lane out of lock the loss is that lane's; otherwise it counts
    as loss of lock on every active lane. -/
def runAlignmentLoss (_f : FuseBank) (s : Sys) (port : Nat) : Sys :=
  let n := getNp s port
  if n.st ≠ .up ∨ n.aligned = false then s
  else
    let locked := allActive n fun l => l.lock
    reDetect (modNp (count s port 0x27 1) port fun n => { n with aligned := false, alignLost := locked }) port

/-- ALIGNMENT_FOUND (R292, R294, R312): decoding resumes; where a FORCED request of this side waits, on its mask, to which the receiver
    switches now. -/
def runAlignmentFound (_f : FuseBank) (s : Sys) (port : Nat) : Sys :=
  let n := getNp s port
  if n.st ≠ .up then s
  else
    let s := reDetect (modNp s port fun n => { n with aligned := true, alignLost := false }) port
    match n.lreq with
    | some q => if q.forced then laneDone (rxSwitch s port q.mask) port else s
    | none => s

/-- LOS_DECLARE (R296): at the first tick by which the loss has lasted a whole frame, the port is down with cause LOS or LOCK. -/
def runLosDeclare (_f : FuseBank) (s : Sys) (port : Nat) : Sys :=
  let n := getNp s port
  let due := fun (d : Option Nat) => match d with | some k => decide (k + 2 ≤ frame s) | none => false
  if n.st ≠ .up then s
  else if due n.losAt then portDown s port 1
  else if due n.lockAt then portDown s port 2
  else s

/-- The pattern that a port generates goes out, or with 0 ends in electrical idle (R302, R317). -/
def patternOut (s : Sys) (p pat : Nat) : Sys :=
  let n := getNp s p
  if n.st = .disabled ∧ n.prbs.gen = true then emit s (.pattern p n.prbs.lanes pat) else s

/-- A quad's PLL is out of lock (R302): its transmitters go to electrical idle, its receivers report loss of lock, and the clocks source
    records QUAD_PLL, unless the quad is powered down. A port in training or INIT goes back to DOWN without a failed attempt (log entry 37).
    A quad that is fused off has no PLL (R301). -/
def pllUnlock (f : FuseBank) (s : Sys) (quad : Nat) : Sys :=
  if quadLocked s quad = false ∨ portEnabled f (2 * quad) = false then s
  else
    let s := { s with pwr := { s.pwr with quadLock := s.pwr.quadLock.set quad false } }
    let s := [2 * quad, 2 * quad + 1].foldl (fun s p =>
      let n := getNp s p
      let s := count s p 0x26 ((List.range 2).filter fun k => laneActive n k && (laneOf n k).lock).length
      let s := modNp s p fun n => onLanes n 3 fun l => { l with lock := false, lockEpoch := none }
      match n.st with
      | .training | .init => modNp s p fun n => { n.idle with st := .down, holdFrom := frame s }
      | _ => reDetect (patternOut s p 0) p) s
    if swdState s quad = 2 then fault s 114 3 2 quad 0 quad else s

/-- QUAD_PLL_UNLOCK (R302). -/
def runQuadPllUnlock (f : FuseBank) (s : Sys) (quad : Nat) : Sys := pllUnlock f s quad

/-- QUAD_PLL_RELOCK (R302): locked for 1 ms, the quad may train its ports again. Lanes of a port that is still UP lock again. -/
def runQuadPllRelock (f : FuseBank) (s : Sys) (quad : Nat) : Sys :=
  if quadLocked s quad = true ∨ portEnabled f (2 * quad) = false then s
  else
    let s := { s with
      pwr := { s.pwr with quadLock := s.pwr.quadLock.set quad true },
      pins := { s.pins with refSl := s.pins.refSl.set (quad / 8) true } }
    [2 * quad, 2 * quad + 1].foldl (fun s p =>
      reDetect (modNp (patternOut s p (getNp s p).prbs.pattern) p fun n => onLanes n 3 fun l => { l with lock := l.sd }) p) s

/-- REFCLK_LOSS (R442): REFCLK_SL0 to 3, or the reference of host port `ref` less 4, whose links go down. CORE_PLL, which is FATAL, comes
    before the quads' events of the same source. -/
def runRefclkLoss (f : FuseBank) (s : Sys) (ref : Nat) : Sys :=
  if ref < 4 then
    let s := { s with pins := { s.pins with refSl := s.pins.refSl.set ref false } }
    let s := if ref = 0 then fault s 114 4 3 0 0 0 else s
    (List.range 8).foldl (fun s i => pllUnlock f s (8 * ref + i)) s
  else
    let hp := ref - 4
    let s := { s with pins := { s.pins with refHp := s.pins.refHp.set hp false } }
    let s := runHostPortReset f s hp false 3
    if (getHp s hp).bifd then runHostPortReset f s hp true 3 else s

/-! ### Lane commands (R315 to R318) -/

/-- The port of a lane command exists (R316). -/
def slPort (f : FuseBank) (q : MbxReq) : Bool := portEnabled f (num q.payload 0 1)

/-- SL_CONFIG's parameters (Table 12.6). -/
def slConfigOk (f : FuseBank) (q : MbxReq) : Bool :=
  let b := num q.payload 1 1
  slPort f q && bits b 0 2 != 3 && bits b 2 2 != 3 && bits b 4 2 != 0 && bits b 6 2 == 0 && bits (num q.payload 2 1) 6 2 == 0 && rsv q.payload 3 1

/-- SL_CONFIG's effect: it waits for the next entry to TRAINING (R316). -/
def bodySlConfig (_f : FuseBank) (s : Sys) (q : MbxReq) : Ans :=
  let p := num q.payload 0 1
  let b := num q.payload 1 1
  let c : SlCfg := { chan := bits b 0 2, fec := bits b 2 2, train := bits b 4 2, swapInv := num q.payload 2 1, serWarn := num q.payload 4 4 }
  match (getNp s p).st with
  | .disabled | .down => .done (modNp s p fun n => { n with slNext := some c }) []
  | _ => .no .stateConflict

/-- SL_CONFIG's traits. -/
def specSlConfig : Spec :=
  Spec.fast 0x0350 8 (fun f _ q => slConfigOk f q) (sess 3)

/-- SL_CONFIG (R316). -/
def runSlConfig (f : FuseBank) (s : Sys) (q : MbxReq) : Sys :=
  mbxRun specSlConfig bodySlConfig f s q

/-- One lane in SL_STATUS (Table 12.7). -/
def laneBytes (n : NPrt) (k : Nat) (l : Lane) : Bytes :=
  le 1 (b2n l.sd + 2 * b2n l.lock + 4 * bits n.rxLanes k 1 + 8 * bits n.txLanes k 1) ++ le 1 l.snr ++ le 2 l.eyeH ++ le 2 l.eyeW ++
    le 2 l.freq ++ le 5 l.txfir ++ zeros 1 ++ le 2 l.slip

/-- SL_STATUS's answer (Table 12.7). -/
def slStatusBytes (n : NPrt) : Bytes :=
  le 1 (n.rxFec + 4 * n.txFec + 16 * b2n n.aligned) ++ le 1 n.trainResult ++ le 1 n.sl.chan ++ zeros 5 ++ le 8 n.corrUnits ++
    le 8 n.uncorrUnits ++ le 8 n.corrSyms ++ zeros 16 ++ laneBytes n 0 n.lane0 ++ laneBytes n 1 n.lane1

/-- SL_STATUS's effect: CLEAR sets the counters to 0 after they are read (R316). -/
def bodySlStatus (_f : FuseBank) (s : Sys) (q : MbxReq) : Ans :=
  let p := num q.payload 0 1
  let t := if num q.payload 1 1 = 1 then modNp s p fun n => { n with corrUnits := 0, uncorrUnits := 0, corrSyms := 0 } else s
  .done t (slStatusBytes (getNp s p))

/-- SL_STATUS's traits. -/
def specSlStatus : Spec :=
  Spec.fast 0x0351 4 (fun f _ q => slPort f q && decide (num q.payload 1 1 < 2) && rsv q.payload 2 2) (sess 3)

/-- SL_STATUS (R316). -/
def runSlStatus (f : FuseBank) (s : Sys) (q : MbxReq) : Sys :=
  mbxRun specSlStatus bodySlStatus f s q

/-- Counts that the checker has made join those of a port (R317, R318): bit errors of the named lanes, under LOCKSTEP13Q mismatched symbols
    in the place of lane 1's, and the unit intervals checked. The port is DISABLED. -/
def prbsAdd (n : NPrt) (err0 err1 ui : Nat) : Prbs :=
  let w := n.prbs
  if n.st = .disabled ∧ w.check = true then
    { w with err0 := w.err0 + (if w.lanes.testBit 0 ∧ w.pattern ≠ 4 then err0 else 0), err1 := w.err1 + (if w.lanes.testBit 1 then err1 else 0),
             ui := w.ui + (if w.lanes = 0 then 0 else ui) }
  else w

/-- What the checker has counted since the last EPOCH_TICK or SL_PRBS, which the request brings (log entry 81). -/
def memAt (q : MbxReq) (k : Nat) : Nat := ((q.mem.find? fun e => e.1 == k).map (·.2)).getD 0

/-- SL_PRBS's effect (R317, R318): the counts since the last SL_PRBS go out and start anew, and the named lanes send the pattern, or send it no
    longer. -/
def bodySlPrbs (_f : FuseBank) (s : Sys) (q : MbxReq) : Ans :=
  let p := num q.payload 0 1
  let b := num q.payload 1 1
  let n := getNp s p
  if n.st ≠ .disabled then .no .stateConflict
  else
    let c := prbsAdd n (memAt q 0) (memAt q 1) (memAt q 2)
    let pat := num q.payload 2 1
    let w : Prbs := { lanes := if pat = 0 then 0 else if pat = 4 then 3 else bits b 0 2, gen := b.testBit 2 && pat != 0, check := b.testBit 3 && pat != 0 && pat != 3,
                      pattern := pat, err0 := 0, err1 := 0, ui := 0 }
    let s := if (n.prbs.gen || w.gen) && quadLocked s (p / 2) then emit s (.pattern p (if w.gen then w.lanes else n.prbs.lanes) (if w.gen then pat else 0)) else s
    .done (modNp s p fun n => { n with prbs := w }) (le 8 c.err0 ++ le 8 c.err1 ++ le 8 c.ui)

/-- SL_PRBS's traits. -/
def specSlPrbs : Spec :=
  Spec.fast 0x0910 8 (fun f _ q => slPort f q && bits (num q.payload 1 1) 4 4 == 0 && decide (num q.payload 2 1 ≤ 4) &&
    rsv q.payload 3 5) (sess 9)

/-- SL_PRBS (R317). -/
def runSlPrbs (f : FuseBank) (s : Sys) (q : MbxReq) : Sys :=
  mbxRun specSlPrbs bodySlPrbs f s q

/-- SL_SLIP's effect (R316). -/
def bodySlSlip (_f : FuseBank) (s : Sys) (q : MbxReq) : Ans :=
  let p := num q.payload 0 1
  match (getNp s p).st with
  | .disabled | .down => .done (modLane s p (num q.payload 1 1) fun l => { l with slip := num q.payload 2 2 }) []
  | _ => .no .stateConflict

/-- SL_SLIP's traits. -/
def specSlSlip : Spec :=
  Spec.fast 0x0911 4 (fun f _ q => slPort f q && decide (num q.payload 1 1 ≤ 1) && decide (num q.payload 2 2 < 4096)) (sess 9)

/-- SL_SLIP (R316). -/
def runSlSlip (f : FuseBank) (s : Sys) (q : MbxReq) : Sys :=
  mbxRun specSlSlip
    bodySlSlip f s q

end Sys2Proof.Machine
end

