-- ==== Sys2Proof/Machine/Power.lean ====
section
/-!
DEFINITION. Power domains, regions, thermal control and module cages (chapter 14), sensors and their limits (R367, R368).
-/
namespace Sys2Proof.Machine

/-! ### Switched domains (R338 to R341) -/

/-- The state of a domain set. -/
def setSwd (s : Sys) (k v : Nat) : Sys := { s with pwr := { s.pwr with swd := s.pwr.swd.set k v } }

/-- DOMAIN_POWER_UP (R340): the first of those that wait starts, at most 4 in a frame. -/
def runDomainPowerUp (_f : FuseBank) (s : Sys) (swd : Nat) : Sys :=
  match s.pwr.waitUp with
  | k :: rest =>
    if k = swd ∧ s.pwr.started < 4 ∧ dark s = false then
      setSwd { s with pwr := { s.pwr with waitUp := rest, started := s.pwr.started + 1 } } swd 3
    else s
  | [] => s

/-- The two domains of a host port, or the domain alone, are all in a state. -/
def swdAll (s : Sys) (k v : Nat) : Bool :=
  if 96 ≤ k ∧ k < 104 then swdState s (96 + k % 4) == v && swdState s (100 + k % 4) == v else swdState s k == v

/-- A PWR_DOMAIN whose domains have reached their state ends. -/
def domainsOver (s : Sys) : Sys := endWait s (fun w => match w with | .domain k v => swdAll s k v | _ => false) .ok []

/-- DOMAIN_POWER_COMPLETE (R339, R340): the domain is ON; a port that waited for it enters DOWN. -/
def runDomainPowerComplete (_f : FuseBank) (s : Sys) (swd : Nat) : Sys :=
  if swdState s swd ≠ 3 ∨ dark s = true then s
  else
    let s := setSwd s swd 2
    let s := (List.range 64).foldl (fun s p => if (getNp s p).waitPwr && portPowered s p then portToDown s p else s) s
    domainsOver s

/-- What a domain that is OFF has lost (R339): with a host port's controller its translation buffers. A network port that is DISABLED and
    a host port after its reset hold nothing else. -/
def swdLost (s : Sys) (k : Nat) : Sys :=
  if k < 32 then [2 * k, 2 * k + 1].foldl (fun s p => modNp s p fun n => onLanes n 3 fun l =>
    { l with sd := false, lock := false, snr := 0, eyeH := 0, eyeW := 0, freq := 0, trained := false, lockEpoch := none }) s
  else if k < 96 then modNp s (k - 32) fun n => { n.idle with corrUnits := 0, uncorrUnits := 0, corrSyms := 0 }
  else if 100 ≤ k ∧ k < 104 then
    modHp s (k - 100) fun h => { h with ctlb := [], dtlb := [], rdy := [], reqQ := [], respQ := [], ej := [], respWait := [], reqWait := [] }
  else s

/-- DOMAIN_POWER_DOWN_COMPLETE (R339): a domain that is no longer wanted is OFF, one that PWR_DOMAIN retains is in RETAIN. -/
def runDomainPowerDownComplete (_f : FuseBank) (s : Sys) (swd : Nat) : Sys :=
  if swdState s swd ≠ 2 then s
  else if s.pwr.retain.contains swd then domainsOver (setSwd s swd 1)
  else if swdWant s swd then s
  else domainsOver (swdLost (setSwd s swd 0) swd)

/-- PWR_DOMAIN's parameters (R341). -/
def pwrDomainOk (q : MbxReq) : Bool :=
  let k := num q.payload 0 2
  let a := num q.payload 2 1
  rsv q.payload 3 1 && ((decide (96 ≤ k) && decide (k < 104) && (a == 0 || a == 2)) ||
    (((decide (137 ≤ k) && decide (k < 145)) || (decide (174 ≤ k) && decide (k < 178))) && (a == 1 || a == 2)))

/-- PWR_DOMAIN's effect (R341). -/
def bodyPwrDomain (f : FuseBank) (s : Sys) (q : MbxReq) : Ans :=
  let k := num q.payload 0 2
  let hp := k % 4
  match num q.payload 2 1 with
  | 0 =>
    if s.pwr.hpOff.contains hp then .done s []
    else
      let s := runHostPortReset f s hp false 3
      let s := if (getHp s hp).bifd then runHostPortReset f s hp true 3 else s
      .done { s with pwr := { s.pwr with hpOff := s.pwr.hpOff ++ [hp],
                                         waitUp := s.pwr.waitUp.filter fun d => d != 96 + hp && d != 100 + hp } } []
  | 1 =>
    let s := { s with pwr := { s.pwr with retain := s.pwr.retain.filter (· != k) ++ [k] } }
    if swdState s k = 1 then .done s [] else .wait s (.domain k 1)
  | _ =>
    let s := { s with pwr := { s.pwr with retain := s.pwr.retain.filter (· != k) } }
    let s := if k < 104 then
        swdRequest (swdRequest { s with pwr := { s.pwr with hpOff := s.pwr.hpOff.filter (· != hp) } } (96 + hp)) (100 + hp)
      else if swdState s k = 1 then setSwd s k 3 else s
    if swdAll s k 2 then .done s [] else .wait s (.domain k 2)

/-- A command of family 0x0A. -/
def specPwr (opcode n : Nat) (cls : RClass) (inFault : Bool) (param : FuseBank → Sys → MbxReq → Bool) : Spec :=
  { opcode, cls, lenOk := fun l => l == n, named := fun _ _ => none, narrow := fun _ => inFault, param, priv := sess 10 }

/-- PWR_DOMAIN's traits. -/
def specPwrDomain : Spec :=
  specPwr 0x0A02 4 .slow false fun _ _ q => pwrDomainOk q

/-- PWR_DOMAIN (R341). -/
def runPwrDomain (f : FuseBank) (s : Sys) (q : MbxReq) : Sys :=
  mbxRun specPwrDomain bodyPwrDomain f s q

/-! ### Regions (R342 to R346) -/

/-- The 12 adjacent pairs (R343). -/
def regionPairs : List (Nat × Nat) :=
  [(0, 1), (1, 2), (3, 4), (4, 5), (6, 7), (7, 8), (0, 3), (3, 6), (1, 4), (4, 7), (2, 5), (5, 8)]

/-- A region. -/
def getReg (s : Sys) (r : Nat) : Region9 := s.pwr.regions.getD r { level := 0, trim := 0, skew := false, vrun := 0, stretch := 0 }

/-- A region changed. -/
def modReg (s : Sys) (r : Nat) (g : Region9 → Region9) : Sys := { s with pwr := { s.pwr with regions := s.pwr.regions.modify r g } }

/-- The hottest of a region's four sensors. -/
def hottest (s : Sys) (r : Nat) : Int :=
  (List.range 4).foldl (fun a i => max a (s.pwr.temps.getD (4 * r + i) 0)) (s.pwr.temps.getD (4 * r) 0)

/-- A region's local VDD_CORE (R367). -/
def vlocal (s : Sys) (r : Nat) : Nat := s.pwr.volts.getD (2 * r) 0

/-- Two voltages differ by more than 100 mV. -/
def vApart (s : Sys) (a b : Nat) : Bool := decide (vlocal s a + 100 < vlocal s b) || decide (vlocal s b + 100 < vlocal s a)

/-- The throttle levels of R346 from the temperatures. -/
def levelTask (s : Sys) : Sys :=
  (List.range 9).foldl (fun s r =>
    let t := hottest s r
    modReg s r fun x => { x with level := if 800 ≤ t then min 8 (x.level + 1) else if t < 776 then x.level - 1 else x.level }) s

/-- The core voltage of R342, for the lowest voltage with positive margin and 15 mV above it: up to 10 mV toward the target within 650 to 850; the regions with negative margin at 850 throttle. -/
def voltTask (s : Sys) (m : EpochIn) : Sys :=
  let v := s.pwr.vcore
  let tgt := max 650 (min 850 (m.margin + 15))
  let nxt := if tgt < v then max tgt (v - 10) else min tgt (v + 10)
  let s := if v = 850 then m.negative.foldl (fun s r => modReg s r fun x => { x with level := min 8 (x.level + 1) }) s else s
  if m.avsOk then { s with pwr := { s.pwr with vcore := nxt } } else fault s 115 1 2 0 11 0

/-- The comparison of adjacent regions (R345); a voltage difference counts in the second epoch in a row. -/
def skewTask (s : Sys) : Sys :=
  let s := { s with pwr := { s.pwr with regions := s.pwr.regions.map fun x => { x with skew := false } } }
  regionPairs.foldl (fun s ab =>
    let (a, b) := ab
    let hot := decide (hottest s a + 240 < hottest s b) || decide (hottest s b + 240 < hottest s a)
    let v := vApart s a b
    let was := (getReg s a).vrun.testBit b
    let s := if v != was then modReg s a fun x => { x with vrun := if v then x.vrun + 2 ^ b else x.vrun - 2 ^ b } else s
    if hot || (v && was) then
      fault (modReg (modReg s a fun x => { x with skew := true }) b fun x => { x with skew := true }) 115 2 2 (a + 16 * b) 11 0
    else s) s

/-- A monitor's nominal value in mV (R368, Table 18.4). -/
def nominal (s : Sys) (v : Nat) : Nat :=
  if v < 18 then (if v % 2 = 0 then s.pwr.vcore - 10 * (getReg s (v / 2)).trim else 800)
  else if v < 20 then 900 else if v < 22 then 1200 else if v = 22 then 1800 else 800

/-- A reading in 16 bits, signed. -/
def s16 (t : Int) : Nat := (t % 65536).toNat

/-- SENSOR_WARN for thermal sensors (R368): once when a sensor reaches TWARN, and again only after it has fallen 2 degrees below it. -/
def tempWarn (s : Sys) : Sys :=
  (List.range 36).foldl (fun s i =>
    let t := s.pwr.temps.getD i 0
    if s.pwr.tHot.contains i then
      (if t ≤ ((s.pwr.twarn : Int) - 2) * 8 then { s with pwr := { s.pwr with tHot := s.pwr.tHot.filter (· != i) } } else s)
    else if (s.pwr.twarn : Int) * 8 ≤ t then
      { logW s 0x0010 1 0xFFFF (256 * i + 65536 * s16 t) with pwr := { s.pwr with tHot := s.pwr.tHot ++ [i] } }
    else s) s

/-- A voltage monitor warns when it departs from its nominal value by more than VWARN percent, with a hysteresis of 1 (R368). -/
def voltWarn (s : Sys) (mons : List Nat) : Sys :=
  mons.foldl (fun s i =>
    let v := s.pwr.volts.getD i 0
    let n := nominal s i
    let d := if v < n then n - v else v - n
    if s.pwr.vHot.contains i then
      (if d * 100 ≤ (s.pwr.vwarn - 1) * n then { s with pwr := { s.pwr with vHot := s.pwr.vHot.filter (· != i) } } else s)
    else if s.pwr.vwarn * n < d * 100 then
      fault { logW s 0x0010 1 0xFFFF (1 + 256 * i + 65536 * v) with pwr := { s.pwr with vHot := s.pwr.vHot ++ [i] } } 115 4 1 i 11 i
    else s) s

/-- The thermal readings that Tarn has refreshed, as often as once per frame (R367), and what they warn of; a read of none leaves them. The
    ROM of WIPING and BOOT keeps no log of them. -/
def senseTemps (s : Sys) (temps : List Int) : Sys :=
  if temps.isEmpty then s
  else
    let s : Sys := { s with pwr := { s.pwr with temps := temps, sampleFt := s.time.ft } }
    if early s then s else tempWarn s

/-- The epoch's limits and readings (R367, R368). -/
def senseEpoch (s : Sys) (m : EpochIn) : Sys :=
  let (tw, vw) := s.pwr.limPend.getD (s.pwr.twarn, s.pwr.vwarn)
  { s with pwr := { s.pwr with temps := m.temps, volts := m.volts, sampleFt := s.time.ft, twarn := tw, vwarn := vw, limPend := none } }

/-- An epoch while nothing but Tarn runs: its readings and their warnings go on (R347, R366, R367, R440). In standby only VDD_IO and VDD_AON,
    monitors 22 and 23, have a nominal value (log entry 159). -/
def darkEpoch (s : Sys) (m : EpochIn) : Sys :=
  voltWarn (tempWarn (senseEpoch s m)) (if s.pins.standby then [22, 23] else List.range 24)

/-- Task 9 and the voltage control of an epoch tick, with the readings taken at it. -/
def powerEpoch (s : Sys) (m : EpochIn) : Sys :=
  let s := senseEpoch s m
  let s := { s with pwr := { s.pwr with lastLevels := s.pwr.regions.map (·.level) } }
  let s := voltTask (levelTask s) m
  let s := { s with pwr := { s.pwr with regions := s.pwr.regions.mapIdx fun r x => { x with trim := min 10 (m.trims.getD r x.trim) } } }
  let s := skewTask s
  voltWarn (tempWarn s) (List.range 24)

/-- Every region at LEVEL 8 (R346). -/
def throttleAll (s : Sys) : Sys := { s with pwr := { s.pwr with regions := s.pwr.regions.map fun x => { x with level := 8 } } }

/-- DROOP_STRETCH (R342): the region's clock is stretched, and no data is lost. -/
def runDroopStretch (_f : FuseBank) (s : Sys) (region : Nat) : Sys := modReg s region fun x => { x with stretch := x.stretch + 1 }

/-! ### The cage loop (R350 to R357) -/

/-- ms(x) of R350 in samples. -/
def msSamples (x : Nat) : Nat := (x * 3125 + 1) / 2

/-- The power in the FET, in watts; 0 while the gate is off (R354). -/
def fetPower (g : Cage) (i : CageIn) : Rat := if g.gate then (((i.vin : Int) - (i.vout : Int)) * (i.cur : Int) : Int) / 1000000 else 0

/-- model_update of R354. -/
def modelNext (g : Cage) (i : CageIn) : Rat :=
  g.model + ((g.cfg.tamb : Rat) + fetPower g i * g.cfg.rth / 10 - g.model) * (8 / (125 * (g.cfg.tau : Rat)))

/-- breaker_update of R353. -/
def breakerNext (g : Cage) (cur : Nat) : Rat :=
  match (g.cfg.points.filter fun p => decide (p.1 * g.cfg.inom ≤ cur * 100)).getLast? with
  | some p => if p.2 = 0 then g.acc + 1 else g.acc + 64 / (1000000 * (p.2 : Rat))
  | none => max 0 (g.acc - 64 / 100000000)

/-- The gate off, in a state. -/
def Cage.off (g : Cage) (st : CageSt) : Cage := { g with st := st, gate := false, pg := false }

/-- The gate off with nothing left of the module: it is gone, or the cage is DISABLED. -/
def Cage.clear (g : Cage) (st : CageSt) : Cage :=
  { g.off st with
    timer := 0, acc := 0, deb := 0, delay := 0, step := 0, ready := false, lowPwr := false, mstate := 255, fast := false, back := false,
    fresh := false }

/-- A trip (R355). -/
def cageTrip (s : Sys) (c cause : Nat) : Sys :=
  let s := modCage s c fun g => { g.off .fault with cause := cause, trips := (g.trips + 1) % 2 ^ 32, fast := false, back := false }
  fault (logW s 0x000A 2 (96 + c) (c + 256 * cause)) (96 + c) cause 1 0 13 c

/-- A cage enters POWERED: its module is brought up from step 1 (R358). -/
def Cage.powerOn (g : Cage) (now : Nat) : Cage :=
  { g with st := .powered, step := 1, stepAt := now, ready := false, resetN := false, lpmode := true, lowPwr := true, mstate := 255 }

/-- start_conditions of R351. A lower-numbered cage that waits for the ramp alone goes first. -/
def startCage (s : Sys) (c : Nat) (i : CageIn) : Sys :=
  let g := getCage s c
  if g.st = .empty then
    modCage s c fun g => { g with deb := g.deb + 1, st := if 1563 ≤ g.deb + 1 then .wait else .empty, delay := 0 }
  else if i.vin < g.cfg.uv ∨ g.cfg.ov < i.vin then modCage s c fun g => { g with delay := 0 }
  else if g.delay + 1 < 156250 then modCage s c fun g => { g with delay := g.delay + 1 }
  else
    let others := ((s.pwr.cages.mapIdx fun k x => k != c && x.st == .ramp).filter id).length
    let first := (List.range c).any fun k => let x := getCage s k
      x.st == .wait && decide (156250 ≤ x.delay) && decide (x.model ≤ (x.cfg.trestart : Rat))
    if (g.cfg.trestart : Rat) < g.model ∨ 2 ≤ others ∨ first = true then modCage s c fun g => { g with delay := 156250 }
    else modCage s c fun g => { g with delay := 156250, st := .ramp, gate := true, ramp := 0, acc := 0, timer := 0, winBad := 0 }

/-- Power-good of a sample (R350 step 5). -/
def goodSample (g : Cage) (i : CageIn) : Bool := decide (i.vin ≤ i.vout + 150) && !i.lim && g.winBad == 0

/-- Steps 3 to 5 of R350 on a cage in RAMP or POWERED. -/
def runCage (s : Sys) (c : Nat) (i : CageIn) : Sys :=
  let s := modCage s c fun g => { g with timer := if i.lim then g.timer + 1 else 0, acc := breakerNext g i.cur,
                                         ramp := if g.st = .ramp then g.ramp + 1 else g.ramp }
  let g := getCage s c
  if g.fast then cageTrip s c 4
  else if g.back then cageTrip s c 6
  else if msSamples g.cfg.faultMs ≤ g.timer then cageTrip s c 1
  else if 1 ≤ g.acc then cageTrip s c 2
  else if (g.cfg.tmax : Rat) ≤ g.model then cageTrip s c 3
  else if g.st = .ramp ∧ msSamples g.cfg.rampMax ≤ g.ramp then cageTrip s c 5
  else
    let bad := if i.vin < g.cfg.uv ∨ g.cfg.ov < i.vin then g.winBad + 1 else 0
    if 2 ≤ bad then modCage s c fun g => { g.off .wait with winBad := bad, delay := 0, step := 0, ready := false, mstate := 255 }
    else
      let s := modCage s c fun g => { g with winBad := bad }
      let ok := goodSample (getCage s c) i
      let s := if g.st = .ramp ∧ ok = true then modCage s c fun g => g.powerOn (frame s) else s
      modCage s c fun g =>
        { g with pg := g.st == .powered && ok,
                 resetN := g.resetN || (g.st == .powered && g.step == 1 && decide (g.stepAt + 3125 ≤ frame s)) }

/-- The first sample after a restart of Tarn (R354): a gate found on is POWERED or in RAMP. -/
def freshCage (s : Sys) (c : Nat) (i : CageIn) : Sys :=
  let g := getCage s c
  let s := modCage s c fun g => { g with fresh := false }
  if g.gate = false then s
  else
    let bad := if i.vin < g.cfg.uv ∨ g.cfg.ov < i.vin then 1 else 0
    let ok := goodSample { g with winBad := bad } i
    modCage s c fun g =>
      { (if ok ∧ g.st ≠ .powered then g.powerOn (frame s) else g) with
               st := if ok then .powered else .ramp, pg := ok, ramp := 0, acc := 0, timer := 0, winBad := bad,
               model := (g.cfg.tamb : Rat) + fetPower g i * g.cfg.rth / 10 }

/-- One sample of one cage (R350). -/
def cageSample (s : Sys) (c : Nat) (i : CageIn) : Sys :=
  let s := modCage s c fun g => { g with model := modelNext g i, lim := i.lim, vin := i.vin, vout := i.vout, cur := i.cur, missed := 0 }
  let g := getCage s c
  if g.st = .disabled then s
  else if i.present = false then
    modCage s c fun g => g.clear .empty
  else if g.fresh ∧ g.gate = true then freshCage s c i
  else match g.st with
  | .fault | .disabled => s
  | .empty | .wait => startCage s c i
  | .ramp | .powered => runCage s c i

/-- A cage that is not POWERED, that has no power-good, or whose module has a data-path fault holds its ports DOWN (R328, R349, R357, R360):
    one that trains goes back without an attempt, and one in UP goes down as by LOS (log entry 162). -/
def holdPorts (s : Sys) : Sys :=
  if s.start.fru.isNone then s
  else (List.range 64).foldl (fun s p =>
    let n := getNp s p
    if n.st = .disabled ∨ n.st = .down ∨ cageHolds s p = false then s
    else if n.st = .up then portDown s p 1
    else modNp s p fun n => { n.idle with st := .down, holdFrom := frame s }) s

/-- Task 5: every cage of which a sample was taken, CG0 first (R350). -/
def cageTask (s : Sys) (l : List CageIn) : Sys :=
  holdPorts ((l.take 16).foldl (fun a i => (cageSample a.1 a.2 i, a.2 + 1)) (s, 0) |>.1)

/-- A missed sample of every cage; after three in a row every powered cage is off (R33, R355). -/
def cageMiss (s : Sys) : Sys :=
  let s := { s with pwr := { s.pwr with cages := s.pwr.cages.map fun g => { g with missed := g.missed + 1 } } }
  holdPorts ((List.range 16).foldl (fun s c =>
    let g := getCage s c
    if 3 ≤ g.missed ∧ (g.st = .ramp ∨ g.st = .powered) then cageTrip s c 7 else s) s)

/-- CAGE_FAST_TRIP (R352): the gate is off at once, and the next sample trips the cage. -/
def runCageFastTrip (_f : FuseBank) (s : Sys) (cage : Nat) : Sys :=
  if (getCage s cage).gate then modCage s cage fun g => { g with gate := false, fast := true } else s

/-- CAGE_BACKSTOP (R352). -/
def runCageBackstop (_f : FuseBank) (s : Sys) (cage : Nat) : Sys :=
  if (getCage s cage).gate then modCage s cage fun g => { g with gate := false, back := true } else s

/-- PGOOD_SUM: high while no cage is in RAMP and every POWERED cage has power-good (R433). -/
def pgoodSum (s : Sys) : Bool := s.pwr.cages.all fun g => g.st != .ramp && (g.st != .powered || g.pg)

/-! ### Modules (R328, R358 to R360) -/

/-- What Tarn logs of a module: ports without a fitting application, and copper beyond 2 m (R328). -/
def moduleLogs (s : Sys) (c : Nat) (mismatch : List Nat) (cableLen : Nat) : Sys :=
  (cagePorts s c).foldl (fun s p =>
    let miss := mismatch.contains p
    let s := modNp s p fun n => { n with modMiss := miss }
    let s := if miss then logW s 0x0003 1 0xFFFF (c + 256 * p) else s
    if ((wireOf s p).map (·.chan)) = some 1 ∧ 20 < cableLen then logW s 0x0004 1 0xFFFF (p + 65536 * cableLen) else s) s

/-- MODULE_BRINGUP (R358 steps 1 to 4): the module is out of reset and in ModuleLowPwr; one that asks for too much stays there, passive
    copper is ready, any other asks for high power. RESET_N is low for 2 ms first, and the wiring map has been read. `maxPower` is in 0.25 W, `cableLen` in 0.1 m. -/
def runModuleBringup (_f : FuseBank) (s : Sys) (cage : Nat) (passive : Bool) (maxPower : Nat) (mismatch : List Nat) (cableLen : Nat) : Sys :=
  let g := getCage s cage
  if g.st ≠ .powered ∨ g.step ≠ 1 ∨ frame s < g.stepAt + 3125 ∨ s.start.fruRead = false then s
  else
    let s := moduleLogs s cage mismatch cableLen
    let s := modCage s cage fun g => { g with resetN := true, mstate := 1, passive := passive }
    if g.cfg.inom * g.cfg.uv < maxPower * 250 * 1000 then
      logW (modCage s cage fun g => { g with step := 3, lowPwr := true }) 0x0006 2 0xFFFF (cage + 65536 * maxPower)
    else if passive then modCage s cage fun g => { g with step := 0, ready := true, lowPwr := false }
    else modCage s cage fun g => { g with step := 5, stepAt := frame s, lpmode := false, lowPwr := false, mstate := 2 }

/-- MODULE_READY (R358 step 5): data paths are active, C2M transmitters take the advertised taps, and the ports leave their hold. -/
def runModuleReady (_f : FuseBank) (s : Sys) (cage txfir : Nat) : Sys :=
  let g := getCage s cage
  if g.st = .powered ∧ (g.step = 5 ∨ g.step = 6) then
    let s := modCage s cage fun g => { g with step := 0, ready := true, mstate := 3 }
    (cagePorts s cage).foldl (fun s p =>
      if (getNp s p).sl.chan = 2 then modNp s p fun n => onLanes n 3 fun l => { l with txfir := txfir } else s) s
  else s

/-- MODULE_TIMEOUT (R358): ModuleLowPwr was not reached within 2 s of step 2, which the 2 ms of step 1 precede, or ModuleReady within
    10 s. -/
def runModuleTimeout (_f : FuseBank) (s : Sys) (cage : Nat) : Sys :=
  let g := getCage s cage
  if g.st ≠ .powered then s
  else if g.step = 1 ∧ g.stepAt + 3128125 ≤ frame s then
    logW (modCage s cage fun g => { g with step := 2, resetN := true }) 0x0005 2 0xFFFF (cage + 256 * 2)
  else if g.step = 5 ∧ g.stepAt + 15625000 ≤ frame s then
    logW (modCage s cage fun g => { g with step := 6 }) 0x0005 2 0xFFFF (cage + 256 * 5)
  else s

/-- MODULE_INTERRUPT (R360): `alarm` is the flag byte of a module alarm, `dpFault` the ports with a data-path fault. -/
def runModuleInterrupt (_f : FuseBank) (s : Sys) (cage : Nat) (alarm : Option Nat) (dpFault : List Nat) : Sys :=
  if (getCage s cage).st ≠ .powered then s
  else
    let s := holdPorts ((cagePorts s cage).foldl (fun s p => modNp s p fun n => { n with modFault := dpFault.contains p }) s)
    match alarm with
    | some a => fault s (96 + cage) 0x10 1 a 13 cage
    | none => s

/-- Every mapped port of a cage is DISABLED. -/
def cageIdle (s : Sys) (c : Nat) : Bool := (cagePorts s c).all fun p => (getNp s p).st == .disabled && !(getNp s p).waitPwr

/-- A module returns to ModuleLowPwr (R359). -/
def moduleLow (s : Sys) (c : Nat) : Sys :=
  if (getCage s c).st = .powered then
    modCage s c fun g => { g with lowPwr := true, lpmode := true, ready := false, mstate := if g.mstate = 255 then 255 else 1,
                                  step := if g.step = 5 ∨ g.step = 6 then 0 else g.step }
  else s

/-- MODULE_LOW_POWER (R359): every mapped port has been DISABLED for one whole epoch. -/
def runModuleLowPower (_f : FuseBank) (s : Sys) (cage : Nat) : Sys :=
  if cagePorts s cage ≠ [] ∧ cageIdle s cage = true ∧ 2 ≤ (getCage s cage).disEpochs ∧ (getCage s cage).lowPwr = false then moduleLow s cage else s

/-- The count of epoch ticks since every mapped port of a cage became DISABLED. -/
def cageEpoch (s : Sys) : Sys :=
  (List.range 16).foldl (fun s c => modCage s c fun g => { g with disEpochs := if cageIdle s c then g.disEpochs + 1 else 0 }) s

/-! ### Commands -/

/-- A settings record stored in a new copy of the slot whose area is written, in place of one of the same command and key (R361, R404). -/
def storeSet (s : Sys) (r : SetRec) : Sys :=
  let put := fun (x : Slot) =>
    let old := (x.newer.map (·.recs)).getD []
    x.save ((x.newer.map (·.fmt)).getD (num x.data 24 2)) ((old.filter fun o => !(o.opcode == r.opcode && o.key == r.key)) ++ [r])
  { s with upd := { s.upd with slots := s.upd.slots.modify (saveSlot s) put } }

/-- The four points of a CAGE_CONFIG. -/
def cagePoints (b : Bytes) : List (Nat × Nat) := (List.range 4).map fun k => (num b (24 + 4 * k) 1, num b (26 + 4 * k) 2)

/-- CAGE_CONFIG's values (Table 14.8). -/
def cageCfgOf (b : Bytes) : CageCfg :=
  { slew := num b 1 1, tmax := num b 2 1, tamb := num b 3 1, inom := num b 4 2, ilim := num b 6 2, uv := num b 8 2, ov := num b 10 2,
    faultMs := num b 12 1, trestart := num b 13 1, rth := num b 14 2, tau := num b 16 2, rampMax := num b 18 2, rsense := num b 20 2,
    points := cagePoints b }

/-- A value lies within bounds. -/
def within (lo v hi : Nat) : Bool := decide (lo ≤ v) && decide (v ≤ hi)

/-- The points rise in current and fall in time (R361). -/
def pointsOk : List (Nat × Nat) → Bool
  | a :: b :: t => decide (a.1 < b.1) && decide (b.2 < a.2) && pointsOk (b :: t)
  | _ => true

/-- CAGE_CONFIG's parameters (R361). -/
def cageConfigOk (b : Bytes) : Bool :=
  let c := cageCfgOf b
  within 0 (num b 0 1) 15 && within 1 c.slew 100 && within 100 c.tmax 175 && within 0 c.tamb 100 && within 500 c.inom 16000 &&
    decide (c.inom * 105 ≤ c.ilim * 100) && within 0 c.ilim 20000 && decide (c.uv < c.ov) && within 1 c.faultMs 40 &&
    decide (c.trestart < c.tmax) && within 1 c.rth 1000 && within 10 c.tau 10000 && within 1 c.rampMax 500 &&
    within 100 c.rsense 10000 && rsv b 22 2 && (List.range 4).all (fun k => rsv b (25 + 4 * k) 1) &&
    c.points.all (fun p => within 101 p.1 255 && decide (p.1 * c.inom < c.ilim * 100)) && pointsOk c.points

/-- A cage's configuration may change (R361). -/
def cageConfigFree (s : Sys) (c : Nat) : Bool := match (getCage s c).st with | .disabled | .empty | .fault => true | _ => false

/-- CAGE_CONFIG's effect: the values hold and are stored (R361). -/
def bodyCageConfig (_f : FuseBank) (s : Sys) (q : MbxReq) : Ans :=
  let c := num q.payload 0 1
  if cageConfigFree s c then
    .done (storeSet (modCage s c fun g => { g with cfg := cageCfgOf q.payload }) { opcode := 0x0A10, key := c, payload := q.payload }) []
  else .no .stateConflict

/-- CAGE_CONFIG's traits. -/
def specCageConfig : Spec :=
  specPwr 0x0A10 40 .fast false fun _ _ q => cageConfigOk q.payload

/-- CAGE_CONFIG (R361). -/
def runCageConfig (f : FuseBank) (s : Sys) (q : MbxReq) : Sys :=
  mbxRun specCageConfig bodyCageConfig f s q

/-- CAGE_CONTROL's effect (R349, R356, R359). -/
def bodyCageControl (_f : FuseBank) (s : Sys) (q : MbxReq) : Ans :=
  let c := num q.payload 0 1
  let g := getCage s c
  match num q.payload 1 1 with
  | 0 => .done (holdPorts (modCage s c fun g => g.clear .disabled)) []
  | 1 => .done (if g.st = .disabled then modCage s c fun g => { g with st := .empty, deb := 0 } else s) []
  | 2 => if g.st ≠ .fault ∨ (g.cfg.trestart : Rat) < g.model then .no .stateConflict
         else .done (modCage s c fun g => { g with st := .wait, delay := 0 }) []
  | 3 => if cageIdle s c then .done (moduleLow s c) [] else .no .stateConflict
  | _ => .done (moduleHigh s c) []

/-- CAGE_CONTROL's traits. -/
def specCageControl : Spec :=
  specPwr 0x0A11 4 .slow false fun _ _ q => within 0 (num q.payload 0 1) 15 && within 0 (num q.payload 1 1) 4 && rsv q.payload 2 2

/-- CAGE_CONTROL (R349). -/
def runCageControl (f : FuseBank) (s : Sys) (q : MbxReq) : Sys :=
  mbxRun specCageControl
    bodyCageControl f s q

/-- CAGE_STATUS's answer (Table 14.9). -/
def cageStatusBytes (g : Cage) : Bytes :=
  let pres := match g.st with | .disabled | .empty => false | _ => true
  le 1 g.st.code ++ le 1 (b2n pres + 2 * b2n g.pg + 4 * b2n g.lim + 8 * b2n g.lowPwr) ++ le 1 g.cause ++ le 1 g.mstate ++ le 2 g.vin ++
    le 2 g.vout ++ le 2 g.cur ++ le 2 (s16 (g.model * 8).floor) ++ le 2 (s16 (g.acc * 1000).floor) ++ le 2 (min 65535 g.timer) ++
    le 4 g.trips ++ zeros 4

/-- CAGE_STATUS's effect. -/
def bodyCageStatus (_f : FuseBank) (s : Sys) (q : MbxReq) : Ans := .done s (cageStatusBytes (getCage s (num q.payload 0 1)))

/-- CAGE_STATUS's traits. -/
def specCageStatus : Spec :=
  specPwr 0x0A12 4 .fast true fun _ _ q => within 0 (num q.payload 0 1) 15 && rsv q.payload 1 3

/-- CAGE_STATUS (Table 14.9). -/
def runCageStatus (f : FuseBank) (s : Sys) (q : MbxReq) : Sys :=
  mbxRun specCageStatus bodyCageStatus f s q

/-- What a CMIS access of a module touches: the module control bytes 26 to 30 of the lower memory, or Page 10h (log entry 38). -/
def cmisTouches (page off n : Nat) : Bool := (decide (off < 31) && decide (26 < off + n)) || (page == 0x10 && decide (128 < off + n))

/-- A module's memory is not described: a read answers free values. -/
def freeBytes (k : Nat) : Nat → Bytes
  | 0 => []
  | n + 1 => BitVec.truncate 8 (Config.word k) :: freeBytes (k + 1) n

/-- CMIS_ACCESS's effect (R362). -/
def bodyCmisAccess (_f : FuseBank) (s : Sys) (q : MbxReq) : Ans :=
  let b := q.payload
  let g := getCage s (num b 0 1)
  let n := num b 5 1
  if g.st ≠ .powered then .no .stateConflict
  else if num b 1 1 = 1 then
    (if (g.ready && !g.passive && cmisTouches (num b 3 1) (num b 4 1) n) ∨ g.step = 1 ∨ g.step = 5 ∨ g.step = 6 then .no .stateConflict else .done s [])
  else .done { s with free := s.free + n } (freeBytes s.free n)

/-- CMIS_ACCESS's traits: a write carries its data. -/
def specCmis (q : MbxReq) : Spec :=
  let w := num q.payload 1 1
  { specPwr 0x0A13 8 .slow (w == 0) (fun _ _ q =>
      within 0 (num q.payload 0 1) 15 && within 0 (num q.payload 1 1) 1 && within 1 (num q.payload 5 1) 128 && rsv q.payload 6 2) with
    lenOk := fun l => decide (8 ≤ l) && (if w = 1 then l == 8 + num q.payload 5 1 else l == 8) }

/-- CMIS_ACCESS (R362). -/
def runCmisAccess (f : FuseBank) (s : Sys) (q : MbxReq) : Sys := mbxRun (specCmis q) bodyCmisAccess f s q

/-- PWR_STATUS's answer (Table 14.6). -/
def pwrStatusBytes (s : Sys) : Bytes :=
  le 45 ((List.range 180).map fun k => swdState s k * 4 ^ k).sum ++ zeros 3 ++ le 2 s.pwr.vcore ++ zeros 2 ++
    (List.range 9).flatMap fun r => le 2 (s16 (hottest s r)) ++ le 2 (vlocal s r) ++ le 1 (getReg s r).level ++ le 1 (getReg s r).trim ++
      le 1 (b2n (getReg s r).skew) ++ zeros 1

/-- PWR_STATUS's effect. -/
def bodyPwrStatus (_f : FuseBank) (s : Sys) (_q : MbxReq) : Ans := .done s (pwrStatusBytes s)

/-- PWR_STATUS's traits. -/
def specPwrStatus : Spec :=
  specPwr 0x0A01 0 .fast true fun _ _ _ => true

/-- PWR_STATUS (Table 14.6). -/
def runPwrStatus (f : FuseBank) (s : Sys) (q : MbxReq) : Sys := mbxRun specPwrStatus bodyPwrStatus f s q

/-- SENSOR_READ's answer (Table 15.4). -/
def sensorBytes (s : Sys) : Bytes :=
  le 8 s.pwr.sampleFt ++ (List.range 36).flatMap (fun i => le 2 (s16 (s.pwr.temps.getD i 0))) ++
    (List.range 24).flatMap fun i => le 2 (s.pwr.volts.getD i 0)

/-- SENSOR_READ's effect. -/
def bodySensorRead (_f : FuseBank) (s : Sys) (_q : MbxReq) : Ans := .done s (sensorBytes s)

/-- SENSOR_READ's traits. -/
def specSensorRead : Spec :=
  specPwr 0x0A03 0 .fast false fun _ _ _ => true

/-- SENSOR_READ (R367). -/
def runSensorRead (f : FuseBank) (s : Sys) (q : MbxReq) : Sys := mbxRun specSensorRead bodySensorRead f s q

/-- SENSOR_LIMITS's effect: the values hold from the next epoch (R368). -/
def bodySensorLimits (_f : FuseBank) (s : Sys) (q : MbxReq) : Ans :=
  .done { s with pwr := { s.pwr with limPend := some (num q.payload 0 1, num q.payload 1 1) } } []

/-- SENSOR_LIMITS's traits. -/
def specSensorLimits : Spec :=
  specPwr 0x0A04 4 .fast false fun _ _ q => within 60 (num q.payload 0 1) 100 && within 1 (num q.payload 1 1) 10 && rsv q.payload 2 2

/-- SENSOR_LIMITS (R368). -/
def runSensorLimits (f : FuseBank) (s : Sys) (q : MbxReq) : Sys :=
  mbxRun specSensorLimits
    bodySensorLimits f s q

/-! ### Thermal trip (R347) -/

/-- A cage whose gate is turned off without a trip waits to start again (log entry 39). -/
def Cage.dark (g : Cage) : Cage :=
  match g.st with
  | .ramp | .powered => { g.off .wait with delay := 0, step := 0, ready := false, mstate := 255 }
  | _ => { g with gate := false }

/-- Everything that stands in switched domains is lost: what remains is Tarn's, Wellhead's, the flash and the pins. -/
def darken (s : Sys) : Sys :=
  let d := Sys.fresh s.pins.straps s.start.cause s.start.causeSrc
  let pend := s.svc.pend.filter fun p => p.tarn
  { d with
    time := s.time, dev := { s.dev with quiescing := false }, start := s.start,
    svc := { d.svc with pend := pend, subs := s.svc.subs, eids := s.svc.eids, onPcie := s.svc.onPcie, onI3c := s.svc.onI3c, fuseOp := s.svc.fuseOp },
    pwr := { s.pwr with swd := List.replicate 180 0, waitUp := [], tripped := true,
                        cages := s.pwr.cages.map Cage.dark },
    flt := s.flt, cnt := s.cnt, log := s.log, upd := { s.upd with pulls := [] },
    sec := { s.sec with keys := Sec.reset.keys, kek := none, ids := none, sessions := [], chals := [], reports := [], signing := none }, pins := s.pins, out := s.out, free := s.free }

/-- THERMAL_TRIP (R347): a sensor at 115 degrees or more. -/
def runThermalTrip (_f : FuseBank) (s : Sys) (sensor : Nat) (reading : Int) : Sys :=
  if reading < 920 ∨ s.pwr.tripped = true then s
  else
    let s := logW (darken s) 0x0009 3 115 (sensor + 65536 * s16 reading)
    fault s 115 3 3 sensor 11 sensor

end Sys2Proof.Machine
end

