-- ==== Sys2Proof/Machine/Time.lean ====
section
/-!
DEFINITION. Fabric Time on the links and its commands (R23 to R29, R36, R38, R39, R331).
-/
namespace Sys2Proof.Machine

/-- A port's next TIME is due: 8 frames after the last one (R24). -/
def timeDue (s : Sys) (n : NPrt) : Bool := match n.tm.sentAt with | some t => decide (t + 8 ≤ frame s) | none => true

/-- TIME_SEND (R24, Table 11.8): a trained port sends a TIME every 8 frames in every state from DISCOVERY on; its stamp is written as it
    leaves. -/
def runTimeSend (_f : FuseBank) (s : Sys) (port : Nat) : Sys :=
  let n := getNp s port
  if n.st ≠ .up ∨ early s = true ∨ timeDue s n = false then s
  else
    let s := modNp s port fun n => { n with tm := { n.tm with sentAt := some (frame s) } }
    ctlSend s port (.time { sync := s.time.sync.code, ev := n.tm.echoV, prio := s.time.rootPrio, hops := s.time.dist,
                            rootAddr := s.time.rootAddr, tx := 0, echoTx := n.tm.echoTx, echoRx := n.tm.echoRx })

/-- R331 admits an exchange for the single set: the time gate is open and the upstream has found the root or is it. -/
def gateAdmits (s : Sys) (m : TimeMsg) : Bool := s.start.gateOpen && (m.sync == 1 || m.sync == 2 || m.hops == 0)

/-- A TIME packet (R24 to R26, R276): the stamps are kept for the next TIME, the election runs, and an exchange with the upstream sets or
    slews Fabric Time. `rx` is the receive stamp. -/
def timeIn (s : Sys) (port : Nat) (hdr : CtlHdr) (m : TimeMsg) (rx : Nat) : Sys :=
  let (s, ok) := ctlIn s port hdr (.time m)
  if ok = false then s
  else
    let asym := (getNp s port).tm.asym
    let s := modNp s port fun n =>
      { n with tm := { n.tm with
          echoTx := m.tx, echoRx := rx, echoV := true, offer := some (m.prio, m.rootAddr, m.hops, m.sync),
          rtt := if m.ev then some (rttOf m.echoTx m.echoRx m.tx rx) else n.tm.rtt } }
    let s := elect s
    if m.ev = true ∧ s.time.upPort = some port then
      exchange s (offsetOf m.echoTx m.echoRx m.tx rx asym) (gateAdmits s m)
    else s

/-- Cycles of a second of Fabric Time (R29). -/
def ppsCycles : Nat := 1600000000

/-- PPS_EDGE (R29): the first edge after enabling is the origin; a later one within 10 us of its time disciplines the root's rate, and any
    other is a PPS fault. The edge expected is the nearest whole second after the origin (log entry 40); the origin's own edge is no accepted
    one for PPS_LOCK (log entry 119). A device in HOLDOVER holds its last rate (R28). -/
def runPpsEdge (_f : FuseBank) (s : Sys) (stamp : Nat) : Sys :=
  if s.time.ppsEn = false ∨ s.time.upPort ≠ none ∨ s.time.sync = .holdover then s
  else match s.time.ppsOrigin with
  | none => { s with time := { s.time with ppsOrigin := some (stamp / 16), ppsEdge := 0 } }
  | some o =>
    let k := max 1 ((stamp / 16 + ppsCycles / 2 - o) / ppsCycles)
    let err : Int := sdiff ((o + k * ppsCycles) * 16) stamp
    if err < -256000 ∨ 256000 < err then
      fault { s with time := { s.time with ppsLock := false, ppsFaults := s.time.ppsFaults + 1 } } 114 2 1 (err / 16 % 2 ^ 64).toNat 0 0
    else { s with time := { s.time with ppsEdge := k, ppsLock := true, rate := rateNext s.time.rate err } }

/-- FRAME_CONFIG's parameters (R38). -/
def frameConfigOk (s : Sys) (b : Bytes) : Bool :=
  decide (num b 8 1 ≤ 16) && decide (num b 9 1 < 16) && decide (num b 10 1 < 2) && rsv b 11 1 &&
    (num b 0 8 == 0 || decide (epoch s < num b 0 8))

/-- FRAME_CONFIG's effect: it waits for its epoch tick, in place of one that waited. -/
def bodyFrameConfig (_f : FuseBank) (s : Sys) (q : MbxReq) : Ans :=
  let b := q.payload
  let c : FrameCfg := { epoch := if num b 0 8 = 0 then epoch s + 1 else num b 0 8, colwin := num b 8 1, prio := num b 9 1, pps := num b 10 1 == 1 }
  .done { s with time := { s.time with pendCfg := some c } } []

/-- FRAME_CONFIG's traits. -/
def specFrameConfig : Spec :=
  Spec.fast 0x0310 12 (fun _ s q => frameConfigOk s q.payload) (sess 3)

/-- FRAME_CONFIG (R38). -/
def runFrameConfig (f : FuseBank) (s : Sys) (q : MbxReq) : Sys :=
  mbxRun specFrameConfig bodyFrameConfig f s q

/-- A FRAME_CONFIG in force: a new priority runs the election, PPS enabled anew looks for its origin, and without PPS a root in FREE_RUN is
    back at rate 0 (R29, R38, Table 2.1). -/
def applyFrameCfg (s : Sys) (c : FrameCfg) : Sys :=
  let fresh := c.pps && !s.time.ppsEn
  let s := { s with time := { s.time with
    pendCfg := none, colwin := c.colwin, prio := c.prio, ppsEn := c.pps, ppsOrigin := if fresh then none else s.time.ppsOrigin,
    ppsLock := s.time.ppsLock && c.pps, rate := if c.pps = false ∧ s.time.sync = .freeRun then 0 else s.time.rate } }
  elect s

/-- The epoch tick's part: a FRAME_CONFIG whose epoch has come (R38). -/
def frameCfgTick (s : Sys) : Sys :=
  match s.time.pendCfg with
  | some c => if c.epoch ≤ epoch s then applyFrameCfg s c else s
  | none => s

/-- A signed number as `n` bytes, modulo their range: an OFFSET beyond 16 signed bits is not saturated (log entry 120). -/
def sle (n : Nat) (v : Int) : Bytes := le n (v % (2 ^ (8 * n) : Nat)).toNat

/-- The fields of Table 2.7 as they stand. -/
def timeStatusBytes (s : Sys) : Bytes :=
  let t := s.time
  let root := t.upPort.isNone
  le 8 t.ft ++ le 1 (t.sync.code + 4 * b2n root + 8 * b2n (root && t.ppsLock)) ++ le 1 (t.upPort.getD 0x7F) ++
    le 3 (t.rootAddr % 2 ^ 18 + t.rootPrio % 16 * 2 ^ 18 + min 3 t.dist * 2 ^ 22) ++ le 1 t.colwin ++ sle 2 t.offset ++
    sle 4 (t.rate * 65536) ++ le 4 ((t.ovrFrame ||| t.epFrame) % 2048 + min 255 t.dist * 2 ^ 24) ++ le 8 (t.ppsOrigin.getD 0) ++
    le 8 ((t.pendCfg.map (·.epoch)).getD 0)

/-- The fields of TIME_STATUS are sampled at a frame tick (R39). -/
def sampleTime (s : Sys) : Sys := { s with time := { s.time with samp := some (timeStatusBytes s) } }

/-- TIME_STATUS's effect: what the last frame tick sampled, or before the first the fields as they stand. -/
def bodyTimeStatus (_f : FuseBank) (s : Sys) (_q : MbxReq) : Ans := .done s (s.time.samp.getD (timeStatusBytes s))

/-- TIME_STATUS's traits. -/
def specTimeStatus : Spec :=
  { Spec.fast 0x0311 0 (fun _ _ _ => true) noSess with narrow := fun _ => true }

/-- TIME_STATUS (R39), which FAULT takes too. -/
def runTimeStatus (f : FuseBank) (s : Sys) (q : MbxReq) : Sys :=
  mbxRun specTimeStatus bodyTimeStatus f s q

end Sys2Proof.Machine
end

