-- ==== Sys2Proof/Machine/Bundle.lean ====
section
/-!
DEFINITION. Bilermora bundles and image slots: the manifest and its checks (R389, R390), boot selection (R391), the measurement log
(R378), and the copies of settings (R404).
-/
namespace Sys2Proof.Machine

/-! ### The manifest (Tables 16.3 and 16.4) -/

/-- NCOMP. -/
def mComps (m : Bytes) : Nat := num m 6 1

/-- A component entry. -/
def mComp (m : Bytes) (k : Nat) : Bytes := sub m (64 + 48 * k) 48

/-- The component entries. -/
def mEntries (m : Bytes) : List Bytes := (List.range (mComps m)).map (mComp m)

/-- The manifest bytes that the signature covers. -/
def mSigned (m : Bytes) : Bytes := m.take (128 + 48 * mComps m)

/-- MDIGEST (R389). -/
def mDigest (m : Bytes) : Bytes := shake256 (mSigned m) 32

/-- PUBKEY. -/
def mKey (m : Bytes) : Bytes := sub m (64 + 48 * mComps m) 64

/-- SIGNATURE. -/
def mSig (m : Bytes) : Bytes := sub m (128 + 48 * mComps m) 29792

/-- SVN. -/
def mSvn (m : Bytes) : Nat := num m 16 8

/-- RELEASE. -/
def mRelease (m : Bytes) : Nat := num m 8 4

/-- HITLESS_OK. -/
def mHitless (m : Bytes) : Bool := (num m 7 1).testBit 0

/-- RAISE_FLOOR. -/
def mRaise (m : Bytes) : Bool := (num m 7 1).testBit 1

/-- The bytes of a component of a bundle. -/
def compBytes (m e : Bytes) : Bytes := sub m (num e 8 4) (num e 12 4)

/-- The component of a kind. -/
def compOf (m : Bytes) (kind : Nat) : Option Bytes := (mEntries m).find? fun e => num e 0 1 == kind

/-- How many components have a kind. -/
def kindCount (m : Bytes) (kind : Nat) : Nat := ((mEntries m).filter fun e => num e 0 1 == kind).length

/-- The stepping of this part: B1 (Table 0.2). -/
def stepping : Nat := 0x21

/-- The bits set in a thermometer field. -/
def popcount {w : Nat} (b : BitVec w) : Nat := ((List.range w).filter b.getLsbD).length

/-! ### Checks (Table 16.5) -/

/-- Check 1. -/
def check1 (m : Bytes) (staged : Nat) : Bool :=
  m.take 4 == ascii "BLMR" && num m 4 1 == 1 && decide (num m 5 1 < 4) && decide (3 ≤ mComps m) && decide (mComps m ≤ 8) &&
    decide (num m 7 1 < 4) && decide (num m 13 1 < 4) && rsv m 15 1 && rsv m 32 32 && (mEntries m).all (fun e => rsv e 1 3) &&
    num m 28 4 == staged

/-- Two components lie apart. -/
def apart (a b : Bytes) : Bool :=
  decide (num a 8 4 + num a 12 4 ≤ num b 8 4) || decide (num b 8 4 + num b 12 4 ≤ num a 8 4)

/-- No two of a list of components overlap. -/
def allApart : List Bytes → Bool
  | [] => true
  | a :: t => t.all (apart a) && allApart t

/-- Check 2. -/
def check2 (m : Bytes) : Bool :=
  kindCount m 3 == 1 && kindCount m 4 == 1 && kindCount m 5 == 1 && decide (kindCount m 9 ≤ 1) &&
    (mEntries m).all (fun e => [3, 4, 5, 9].contains (num e 0 1) && decide (num e 8 4 + num e 12 4 ≤ num m 28 4)) && allApart (mEntries m)

/-- Check 3. -/
def check3 (f : FuseBank) (m : Bytes) : Bool :=
  (num m 13 1).testBit (f.order - 1) && decide (num m 14 1 ≤ stepping) && rsv m 12 1

/-- Check 4. -/
def check4 (f : FuseBank) (m : Bytes) : Bool :=
  shake256 (mKey m) 32 == f.rootKeys.getD (num m 5 1) [] && !f.rootRev.getLsbD (num m 5 1)

/-- Check 5. -/
def check5 (m digest : Bytes) : Bool := Config.slhVerify (mKey m) "JA64-MANIFEST" (mSigned m) (mSig m) && mDigest m == digest

/-- Check 6. -/
def check6 (m : Bytes) : Bool := (mEntries m).all fun e => shake256 (compBytes m e) 32 == sub e 16 32

/-- The SVN that check 7 holds a bundle against beside the floor: that of the TRIAL or ACTIVE slot. -/
def slotFloor (s : Sys) : Nat :=
  match s.upd.slots.find? fun x => x.st == .trial with
  | some x => mSvn x.data
  | none => match s.upd.slots.find? fun x => x.st == .active with
    | some x => mSvn x.data
    | none => 0

/-- Check 7; at BOOT against the floor only. -/
def check7 (f : FuseBank) (s : Sys) (svn : Nat) (boot : Bool) : Bool :=
  decide (popcount f.svnFloor ≤ svn) && (boot || decide (slotFloor s ≤ svn))

/-- A slot. -/
def getSlot (s : Sys) (k : Nat) : Slot := s.upd.slots.getD k Slot.reset

/-- A slot changed. -/
def modSlot (s : Sys) (k : Nat) (g : Slot → Slot) : Sys := { s with upd := { s.upd with slots := s.upd.slots.modify k g } }

/-- A slot's state changed. -/
def slotTo (s : Sys) (k : Nat) (st : SlotSt) : Sys := modSlot s k fun x => { x with st := st }

/-- The first check of R390 that a slot's bundle fails; 0 if it passes all. -/
def bundleFail (f : FuseBank) (s : Sys) (k : Nat) (boot : Bool) : Nat :=
  let m := (getSlot s k).data
  if !check1 m m.length then 1 else if !check2 m then 2 else if !check3 f m then 3 else if !check4 f m then 4
  else if !check5 m (getSlot s k).mdigest then 5 else if !check6 m then 6 else if !check7 f s (mSvn m) boot then 7 else 0

/-! ### The flash (R387) -/

/-- The areas of the flash (Table 16.1); of two copies, `false` is A and `true` B. -/
inductive FlashArea where
  | bootRecord (b : Bool)
  | lastInc
  | keyStore (b : Bool)
  | identity
  | bundle (slot : Nat)
  | settings (slot : Nat) (b : Bool)
  | log
  deriving DecidableEq, Repr

/-- Where an area begins. Every one begins at an erase unit of 64 KiB. -/
def FlashArea.base : FlashArea → Nat
  | .bootRecord b => if b then 0x10000 else 0
  | .lastInc => 0x20000
  | .keyStore b => if b then 0x40000 else 0x30000
  | .identity => 0x50000
  | .bundle k => 0x1000000 + k * 0x3000000
  | .settings k b => 0x3000000 + k * 0x3000000 + if b then 0x80000 else 0
  | .log => 0x7000000

/-- How long an area is. -/
def FlashArea.size : FlashArea → Nat
  | .bootRecord _ | .lastInc | .keyStore _ => 0x10000
  | .identity => 0x20000
  | .bundle _ => 0x2000000
  | .settings _ _ => 0x80000
  | .log => 0x400000

/-! ### Boot selection (R391) -/

/-- The slot in a state. -/
def slotIn (s : Sys) (st : SlotSt) : Option Nat := (List.range 2).find? fun k => (getSlot s k).st == st

/-- The slot that the boot control record names, with the record as it then stands. A TRIAL slot that a reset finds is reverted. -/
def bootChoice (s : Sys) : Sys × Option Nat :=
  match slotIn s .trialNext with
  | some k => (slotTo (slotTo s k .trial) (1 - k) .backup, some k)
  | none =>
    match slotIn s .trial with
    | some k =>
      let s := { slotTo s k .invalid with upd := { (slotTo s k .invalid).upd with lastEnd := 5 } }
      if (getSlot s (1 - k)).st = .backup then (slotTo s (1 - k) .active, some (1 - k)) else (s, none)
    | none => (s, slotIn s .active)

/-- The slot to boot, after the checks and the fall-back (R391); none: the device stays in BOOT. -/
def bootSelect (f : FuseBank) (s : Sys) : Sys × Option Nat :=
  let (s, c) := bootChoice s
  match c with
  | none => (s, none)
  | some k =>
    if bundleFail f s k true = 0 then (s, some k)
    else
      let s := slotTo s k .invalid
      if (getSlot s (1 - k)).st = .backup ∧ bundleFail f s (1 - k) true = 0 then (slotTo s (1 - k) .active, some (1 - k))
      else (if (getSlot s (1 - k)).st = .backup then slotTo s (1 - k) .invalid else s, none)

/-! ### Measurements (R378) -/

/-- The 48 bytes of a measurement record (Table 15.10). -/
def Meas.bytes (m : Meas) : Bytes := le 1 m.kind ++ le 1 m.slot ++ zeros 2 ++ le 4 m.version ++ le 8 m.svn ++ fit 32 m.digest

/-- LOGDIGEST (Table 15.11). -/
def logDigest (l : List Meas) : Bytes := shake256 (l.flatMap Meas.bytes) 32

/-- The record of a component of a slot. -/
def compMeas (s : Sys) (k kind : Nat) : Meas :=
  let m := (getSlot s k).data
  let e := (compOf m kind).getD []
  { kind, slot := k, version := num e 4 4, svn := mSvn m, digest := shake256 (compBytes m e) 32 }

/-- A settings record as a copy holds it, padded to 4 bytes (R404). -/
def SetRec.bytes (r : SetRec) : Bytes :=
  let b := le 2 r.opcode ++ le 2 r.key ++ le 2 r.payload.length ++ r.payload
  b ++ zeros ((4 - b.length % 4) % 4)

/-- The settings copy of a slot that is in force: its 32-byte header and its records (R404). -/
def settingsCopy (k : Nat) (x : Slot) : Bytes :=
  let c := x.newer.getD { fmt := 1, gen := 0, recs := [] }
  let b := c.recs.flatMap SetRec.bytes
  ascii "KSET" ++ le 2 c.fmt ++ zeros 2 ++ le 4 c.gen ++ le 4 b.length ++ le 4 c.recs.length ++ le 4 (crc32 b) ++ le 1 k ++ zeros 7 ++ b

/-- Records of kinds 0x03 to 0x06 for a slot; that of its settings is taken over the copy in force (log entry 141). -/
def slotMeas (s : Sys) (k : Nat) : List Meas :=
  [compMeas s k 3, compMeas s k 4, compMeas s k 5,
   { kind := 6, slot := k, version := 0, svn := 0, digest := shake256 (settingsCopy k (getSlot s k)) 32 }]

/-- The fuse fields that are measured, as one number. -/
def fuseNat (f : FuseBank) : Nat :=
  f.order + 2 ^ 8 * f.npdis.toNat + 2 ^ 24 * f.lc.toNat + 2 ^ 27 * f.dbgCnt.toNat + 2 ^ 91 * f.rootRev.toNat + 2 ^ 95 * f.svnFloor.toNat

/-- The measurement log of a boot from a slot. -/
def bootMeas (f : FuseBank) (s : Sys) (k : Nat) : List Meas :=
  let m := (getSlot s k).data
  [{ kind := 1, slot := 0xFF, version := 0, svn := 0, digest := Config.romDigest },
   { kind := 2, slot := k, version := mRelease m, svn := mSvn m, digest := mDigest m }] ++ slotMeas s k ++
  [{ kind := 7, slot := 0xFF, version := 0, svn := 0, digest := Config.fuseDigest (fuseNat f) }]

/-- The log after a hitless activation of a slot: kinds 0x03 to 0x06 replaced, and one ACTIVATION record that binds the log as it was. -/
def hitlessMeas (s : Sys) (k : Nat) : List Meas :=
  let old := s.sec.meas
  let head := old.filter fun m => m.kind < 3
  let tail := old.filter fun m => m.kind == 7
  head ++ slotMeas s k ++ tail ++ [{ kind := 8, slot := k, version := 0, svn := 0, digest := logDigest old }]

end Sys2Proof.Machine
end

