-- ==== Sys2Proof/Machine/Settings.lean ====
section
/-!
DEFINITION. Settings (R404 to R406): their records, SETTINGS_SET, SETTINGS_SAVE, FRESHET_CONFIG, and their replay at a start of the CC.
-/
namespace Sys2Proof.Machine

/-! ### Commands of single settings (R397, R406) -/

/-- A power of two. -/
def isPow2 (v : Nat) : Bool := v != 0 && 2 ^ Nat.log2 v == v

/-- SETTINGS_SET's ranges (Table 16.10, R73). -/
def settingOk (s : Sys) (id v : Nat) : Bool :=
  match id with
  | 1 => within 1 v (2 ^ 24)
  | 2 => isPow2 v && within 16 v 512
  | 3 => within 1 v 2048 && decide (v + 63 * s.upd.msixVfNext ≤ 2048)
  | 4 => within 1 v 2048 && decide (s.upd.msixPfNext + 63 * v ≤ 2048)
  | 5 => within 64 v 65535
  | 6 => within 60 v 86400
  | 7 => within 768 v (2 ^ 24)
  | _ => false

/-- A setting takes a value. -/
def setSetting (u : Upd) (id v : Nat) : Upd :=
  match id with
  | 1 => { u with idlePend := some v }
  | 2 => { u with vfDbNext := v }
  | 3 => { u with msixPfNext := v }
  | 4 => { u with msixVfNext := v }
  | 5 => { u with settle := v }
  | 6 => { u with trialS := v }
  | 7 => { u with lockEpochs := v }
  | _ => u

/-- SETTINGS_SET's effect. -/
def bodySettingsSet (_f : FuseBank) (s : Sys) (q : MbxReq) : Ans :=
  .done { s with upd := setSetting s.upd (num q.payload 0 2) (num q.payload 4 4) } []

/-- SETTINGS_SET's traits. -/
def specSettingsSet : Spec :=
  Spec.fast 0x0811 8 (fun _ s q => settingOk s (num q.payload 0 2) (num q.payload 4 4) && rsv q.payload 2 2) (sess 8)

/-- SETTINGS_SET (R406). -/
def runSettingsSet (f : FuseBank) (s : Sys) (q : MbxReq) : Sys :=
  mbxRun specSettingsSet bodySettingsSet f s q

/-- FRESHET_CONFIG's parameters (R397). -/
def freshetConfigOk (f : FuseBank) (b : Bytes) : Bool :=
  decide (num b 0 1 < 4) && decide (num b 1 1 < 16) && rsv b 2 6 && (List.range 64).all fun p => !((num b 8 8).testBit p && fusedOff f p)

/-- FRESHET_CONFIG's effect. -/
def bodyFreshetConfig (_f : FuseBank) (s : Sys) (q : MbxReq) : Ans :=
  let b := q.payload
  .done { s with upd := { s.upd with frEn := (num b 0 1).testBit 0, frRelay := (num b 0 1).testBit 1, frDepth := num b 1 1, frMask := num b 8 8,
                                     frMaskSet := true } } []

/-- FRESHET_CONFIG's traits. -/
def specFreshetConfig : Spec :=
  Spec.fast 0x0808 16 (fun f _ q => freshetConfigOk f q.payload) (sess 8)

/-- FRESHET_CONFIG (R397). -/
def runFreshetConfig (f : FuseBank) (s : Sys) (q : MbxReq) : Sys :=
  mbxRun specFreshetConfig bodyFreshetConfig f s q

/-- PORTMASK in force: the local ports of the wiring map until FRESHET_CONFIG gives one (R397). -/
def freshetMask (s : Sys) : Nat :=
  if s.upd.frMaskSet then s.upd.frMask
  else match s.start.fru with
  | some r => ((r.entries.filter fun e => e.role == 0).map fun e => 2 ^ e.port).sum
  | none => 0

/-! ### Current values as records (R404, R406) -/

/-- A record without key. -/
def rec0 (opcode : Nat) (payload : Bytes) : SetRec := { opcode, key := 0, payload }

/-- FRAME_CONFIG's record: the values in force or waiting. -/
def recFrame (s : Sys) : SetRec :=
  let c := s.time.pendCfg.getD { epoch := 0, colwin := s.time.colwin, prio := s.time.prio, pps := s.time.ppsEn }
  rec0 0x0310 (zeros 8 ++ le 1 c.colwin ++ le 1 c.prio ++ le 1 (b2n c.pps) ++ zeros 1)

/-- TE_CONFIG's record. -/
def recTe (s : Sys) : SetRec := rec0 0x0320 (le 2 s.te.rto ++ le 1 s.te.retryLimit ++ zeros 1 ++ le 2 s.te.nackLimit ++ le 2 s.te.peerIssue ++ zeros 4)

/-- ROUTE_CONFIG's record. -/
def recRoute (s : Sys) : SetRec :=
  let c := s.rt.cfgPend.getD s.rt.cfg
  rec0 0x0304 (zeros 8 ++ le 1 (b2n s.rt.millpond + 2 * b2n c.nmEn) ++ zeros 1 ++ le 2 c.nmBias ++ le 2 c.revThresh ++ zeros 2 ++ le 2 c.mgRate ++
    le 2 c.mgBurst ++ le 2 c.dgRate ++ le 2 c.dgBurst)

/-- PE_POLICY's record. -/
def recPe (s : Sys) : SetRec :=
  let p := s.pe.polPend.getD s.pe.pol
  rec0 0x0510 (le 1 (p.wHint + 16 * p.wCong) ++ le 1 (p.wFill + 16 * p.wHops) ++ le 1 p.wOut ++ le 1 p.rootPolicy ++ le 2 p.spread ++ le 2 p.refresh ++
    le 2 p.fnMax ++ zeros 6)

/-- SL_CONFIG's record of a port. -/
def recSl (s : Sys) (p : Nat) : SetRec :=
  let c := (getNp s p).slNext.getD (getNp s p).sl
  { opcode := 0x0350, key := p, payload := le 1 p ++ le 1 (c.chan + 4 * c.fec + 16 * c.train) ++ le 1 c.swapInv ++ zeros 1 ++ le 4 c.serWarn }

/-- CAGE_CONFIG's record of a cage. -/
def recCage (s : Sys) (k : Nat) : SetRec :=
  let c := (getCage s k).cfg
  { opcode := 0x0A10, key := k,
    payload := le 1 k ++ le 1 c.slew ++ le 1 c.tmax ++ le 1 c.tamb ++ le 2 c.inom ++ le 2 c.ilim ++ le 2 c.uv ++ le 2 c.ov ++ le 1 c.faultMs ++
      le 1 c.trestart ++ le 2 c.rth ++ le 2 c.tau ++ le 2 c.rampMax ++ le 2 c.rsense ++ zeros 2 ++
      c.points.flatMap fun p => le 1 p.1 ++ zeros 1 ++ le 2 p.2 }

/-- SENSOR_LIMITS's record. -/
def recLimits (s : Sys) : SetRec :=
  let l := s.pwr.limPend.getD (s.pwr.twarn, s.pwr.vwarn)
  rec0 0x0A04 (le 1 l.1 ++ le 1 l.2 ++ zeros 2)

/-- FRESHET_CONFIG's record. -/
def recFreshet (s : Sys) : SetRec :=
  rec0 0x0808 (le 1 (b2n s.upd.frEn + 2 * b2n s.upd.frRelay) ++ le 1 s.upd.frDepth ++ zeros 6 ++ le 8 (freshetMask s))

/-- SETTINGS_SET's records. Of the two vector counts the one that shrinks comes first, so that each is allowed when it is replayed from the
    defaults (R73, R405). -/
def recSets (s : Sys) : List SetRec :=
  let u := s.upd
  let msix := [(3, u.msixPfNext), (4, u.msixVfNext)]
  let l : List (Nat × Nat) := [(1, u.idlePend.getD u.idle), (2, u.vfDbNext)] ++
    (if u.msixVfNext ≤ Upd.reset.msixVfNext then msix.reverse else msix) ++ [(5, u.settle), (6, u.trialS), (7, u.lockEpochs)]
  l.map fun e =>
    rec0 0x0811 (le 2 e.1 ++ zeros 2 ++ le 4 e.2)

/-- Every current value (R406). -/
def currentSets (f : FuseBank) (s : Sys) : List SetRec :=
  [recFrame s, recTe s, recRoute s, rec0 0x0411 (le 2 s.ce.joinEpochs ++ le 2 s.ce.beatFrames ++ zeros 4), recPe s,
   rec0 0x020C (le 2 (s.xl.agePend.getD s.xl.age) ++ zeros 2)] ++
  ((List.range 64).filter (portEnabled f)).map (recSl s) ++ (List.range 16).map (recCage s) ++ [recLimits s, recFreshet s] ++ recSets s

/-- The settings format that the release in a slot writes (R389). -/
def slotFmt (s : Sys) (k : Nat) : Nat := num (getSlot s k).data 24 2

/-- SETTINGS_SAVE's effect: the copy is being written. -/
def bodySettingsSave (f : FuseBank) (s : Sys) (_q : MbxReq) : Ans :=
  .wait s (.flash (.settings (saveSlot s) (slotFmt s (saveSlot s)) (currentSets f s)))

/-- SETTINGS_SAVE's traits. -/
def specSettingsSave : Spec :=
  { Spec.fast 0x0810 0 (fun _ _ _ => true) (sess 8) with cls := .slow }

/-- SETTINGS_SAVE (R406). -/
def runSettingsSave (f : FuseBank) (s : Sys) (q : MbxReq) : Sys :=
  mbxRun specSettingsSave bodySettingsSave f s q

/-! ### Replay (R405) -/

/-- A request as a stored record makes it. -/
def setReq (b : Bytes) : MbxReq := { who := .mctp 0, flags := 0, tag := 0, token := 0, payload := b, mem := [] }

/-- The state that a body leaves, or the state as it was where it refuses. -/
def tryBody (ok : Bool) (body : FuseBank → Sys → MbxReq → Ans) (f : FuseBank) (s : Sys) (b : Bytes) : Sys :=
  if ok then (match body f s (setReq b) with | .done s' _ => s' | _ => s) else s

/-- One stored record replayed; one that fails its command's checks is skipped. APPLY_EPOCH and the MODE of ROUTE_CONFIG are ignored
    (R404). -/
def replayOne (f : FuseBank) (s : Sys) (r : SetRec) : Sys :=
  let b := r.payload
  let q := setReq b
  let pok := fun (c : Spec) => c.lenOk b.length && c.param f s q
  match r.opcode with
  | 0x0310 => let b := zeros 8 ++ b.drop 8; tryBody (b.length == 12 && frameConfigOk s b) bodyFrameConfig f s b
  | 0x0320 => tryBody (b.length == 12 && teConfigOk b) bodyTeConfig f s b
  | 0x0304 =>
    let m := num b 8 1 / 2 * 2 + b2n s.rt.millpond
    let b := zeros 8 ++ le 1 m ++ b.drop 9
    tryBody (specRouteConfig.lenOk b.length && specRouteConfig.param f s (setReq b)) bodyRouteConfig f s b
  | 0x0411 => tryBody (pok specColConfig) bodyColConfig f s b
  | 0x0510 => tryBody (b.length == 16 && pePolicyOk b) bodyPePolicy f s b
  | 0x020C => tryBody (b.length == 4 && rsv b 2 2) bodyXlatAge f s b
  | 0x0350 => tryBody (b.length == 8 && slConfigOk f q) bodySlConfig f s b
  | 0x0A10 => if b.length == 40 && cageConfigOk b && cageConfigFree s (num b 0 1) then modCage s (num b 0 1) fun g => { g with cfg := cageCfgOf b } else s
  | 0x0A04 => tryBody (b.length == 4 && within 60 (num b 0 1) 100 && within 1 (num b 1 1) 10 && rsv b 2 2) bodySensorLimits f s b
  | 0x0808 => tryBody (b.length == 16 && freshetConfigOk f b) bodyFreshetConfig f s b
  | 0x0811 => tryBody (b.length == 8 && settingOk s (num b 0 2) (num b 4 4) && rsv b 2 2) bodySettingsSet f s b
  | _ => s

/-- The defaults of a release as records; FRESHET_CONFIG has none, since its PORTMASK follows the wiring map until one is given (R397). -/
def defaultSets (f : FuseBank) (s : Sys) : List SetRec :=
  (currentSets f (Sys.fresh s.pins.straps 1 0xFFFF)).filter fun r => r.opcode != 0x0808

/-- FRESHET_CONFIG and the vector counts as a release has them before any record. -/
def baseSets (s : Sys) (freshet : Bool) : Sys :=
  let d := Upd.reset
  let u : Upd := { s.upd with msixPfNext := d.msixPfNext, msixVfNext := d.msixVfNext }
  { s with upd := if freshet then { u with frEn := d.frEn, frRelay := d.frRelay, frDepth := d.frDepth, frMask := d.frMask, frMaskSet := d.frMaskSet }
                  else u }

/-- Records replayed in stored order. -/
def replay (f : FuseBank) (s : Sys) (l : List SetRec) (freshet : Bool) : Sys := l.foldl (replayOne f) (baseSets s freshet)

/-- A start of the CC from a slot: its settings are replayed, or its defaults are written, take effect, and SETTINGS_RESET is logged (R405). -/
def loadSettings (f : FuseBank) (s : Sys) (k : Nat) : Sys :=
  let x := getSlot s k
  match x.newer.filter fun c => decide (num x.data 26 2 ≤ c.fmt) && decide (c.fmt ≤ slotFmt s k) with
  | some c => replay f s c.recs false
  | none =>
    let l := defaultSets f s
    replay f (logW (modSlot s k fun x => x.save (slotFmt s k) l) 0x000D 1 0xFFFF k) l true

end Sys2Proof.Machine
end

