-- ==== Sys2Proof/Machine/Start.lean ====
section
/-!
DEFINITION. Resets, start-up and discovery (chapter 13, R439 to R441): what each reset leaves, WIPING, BOOT, the board's record, hellos,
autonomous tables and the switch to table mode.
-/
namespace Sys2Proof.Machine

/-! ### Resets (R320, R321, R381, R388, R439 to R441) -/

/-- Every record of the RAM ring is committed to flash (R321, R369). A full flash log loses its oldest sector of 2,048. -/
def commitLog (s : Sys) (which : LogRec → Bool) : Sys :=
  let recs := s.log.recs.map fun r => if r.inRam && which r then { r with inFlash := true } else r
  let fl := recs.filter (·.inFlash)
  let old := if 131072 < fl.length then (fl.take 2048).map (·.seq) else []
  { s with log := { s.log with
      recs := (recs.map fun r => if old.contains r.seq then { r with inFlash := false } else r).filter fun r => r.inFlash || r.inRam } }

/-- The log that a reset leaves: what flash holds (R369, R370). -/
def Log.afterReset (l : Log) : Log :=
  let fl := (l.recs.filter (·.inFlash)).map fun r => { r with inRam := false }
  { recs := fl, nextSeq := match fl.getLast? with | some r => r.seq + 1 | none => 0, boot := l.boot, lostNext := false }

/-- A slot as a reset leaves it: STAGING and STAGED become INVALID (R388). -/
def Slot.afterReset (x : Slot) : Slot :=
  match x.st with | .staging | .staged => { x with st := .invalid } | _ => x

/-- A cage when Tarn restarts (R354): a gate that is on is found on, one that is off starts from EMPTY at T_AMB. A gate that hardware has
    turned off since the last sample keeps its cause for the next one (R352, log entry 139). -/
def Cage.restart (g : Cage) : Cage :=
  if g.gate || g.fast || g.back then { g with fresh := true }
  else { g.off .empty with
    timer := 0, acc := 0, model := g.cfg.tamb, ramp := 0, winBad := 0, deb := 0, delay := 0, fast := false, back := false, fresh := false,
    step := 0, ready := false, lowPwr := false, mstate := 255 }

/-- A cage over a chip reset (R320, R328, R354): as a restart of Tarn leaves it, and what Tarn knew of its module is lost. Where its first
    sample qualifies power-good the cage enters POWERED, and the module is brought up anew (R358; log entry 161). -/
def Cage.chipReset (g : Cage) : Cage :=
  let g := g.restart
  if g.gate then { g with st := .ramp, pg := false, step := 0, stepAt := 0, ready := false, mstate := 255, passive := false, lowPwr := false,
                          disEpochs := 0 } else { g with disEpochs := 0, stepAt := 0, passive := false }

/-- A host link as a reset leaves it: down, with PERST as it stands. -/
def HLink.afterReset (l : HLink) : HLink := { HLink.reset with perst := l.perst }

/-- The state that a power-on or chip reset leaves (Table 13.1): reset values but for fuses, flash, straps and cage gates. -/
def afterReset (s : Sys) (st : Straps) (cause src : Nat) : Sys :=
  let d := Sys.fresh st cause src
  let power := cause == 1
  let hot := (s.pwr.tripped || s.start.thermHold) && !power
  bootWrite s { d with
    hps := if power then d.hps else d.hps.mapIdx fun i h => { h with a := (getHp s i).a.afterReset, b := (getHp s i).b.afterReset },
    start := { d.start with wiped := hot, thermHold := hot, bootHold := power && st.bootSrc },
    pwr := if power then d.pwr else { d.pwr with cages := s.pwr.cages.map Cage.chipReset, quadLock := s.pwr.quadLock },
    log := s.log.afterReset,
    upd := { d.upd with slots := s.upd.slots.map Slot.afterReset, run := s.upd.run, gen := s.upd.gen, trialWin := s.upd.trialWin,
                         bcrGen := s.upd.bcrGen, bcrA := s.upd.bcrA, bcrB := s.upd.bcrB },
    sec := { d.sec with copies := s.sec.copies, cert := s.sec.cert, certTail := s.sec.certTail,
                        certTotal := s.sec.certTotal, idpk := s.sec.idpk, lastInc := s.sec.lastInc,
                        fieldDebug := s.sec.dbgLatch && !power },
    pins := if power then d.pins else { d.pins with refSl := s.pins.refSl, refHp := s.pins.refHp },
    out := s.out, free := s.free }

/-- What Tarn does before a chip reset of causes 3 to 6 begins (R59, R321): the log is committed, and a subscribed MCTP endpoint is told that
    its session has ended. R59 gives reason 3 for these causes, R381 reason 5 for every session that a lifecycle transition, cause 5, ends:
    the model takes R381's for cause 5 (DEDUCED, log entry 125). -/
def beforeReset (s : Sys) (cause : Nat) : Sys :=
  if cause < 3 then s
  else
    let s := commitLog s fun _ => true
    s.sec.sessions.foldl (fun s x => match x.who with
      | .mctp _ => adminTo s x.who { AEv.of 0xE4 with reason := if cause = 5 then 5 else 3 }
      | .fn _ _ => s) s

/-- CHIP_RESET of a cause (R321); while Wellhead blows a fuse bit it waits for that bit (R441). With PWR_OK low there is none (R440). -/
def chipReset (s : Sys) (cause src : Nat) : Sys :=
  if s.pins.standby then s
  else if s.svc.fuseOp.isSome then { s with pins := { s.pins with deferred := s.pins.deferred.or (some cause) } }
  else afterReset (beforeReset s cause) s.pins.straps cause src

/-- POWER_ON_RESET (R439): the straps are sampled. -/
def runPowerOnReset (_f : FuseBank) (s : Sys) (straps : Straps) : Sys := afterReset s straps 1 0xFFFF

/-- RESET_N_ASSERT (R441): low for at least 1 us. In standby it does nothing (R440). -/
def runResetNAssert (_f : FuseBank) (s : Sys) : Sys := chipReset s 2 0xFFFF

/-- PWR_OK_FALL (R440): everything that is switched is off, every cage gate too, and Tarn serves in standby. -/
def runPwrOkFall (_f : FuseBank) (s : Sys) : Sys :=
  let t := darken s
  { t with pwr := { t.pwr with tripped := s.pwr.tripped }, svc := { t.svc with fuseOp := none },
           pins := { t.pins with pwrOk := false, standby := true, deferred := none } }

/-- CHIP_RESET's traits. -/
def specChipReset : Spec := specDev 0x07F0 0 .fast (fun _ _ _ => true) (sess 7)

/-- CHIP_RESET's response goes out first (R322). -/
def runChipReset (f : FuseBank) (s : Sys) (q : MbxReq) : Sys :=
  mbxGate s 0x07F0 q fun s =>
    let t := mbxServe specChipReset (fun _ s _ => .done s []) f s q
    if preCheck specChipReset f s q = none then chipReset t 3 0xFFFF else t

/-! ### WIPING and BOOT (R323, R348, R385, R391, R392) -/

/-- A draw of the incarnation (R323): not 0, and not the stored one where flash could be read. -/
def drawInc (k last : Nat) (flashOk : Bool) : Nat :=
  let v := (Config.incarnationPick k).val + 1
  if flashOk && v == last then v % 4095 + 1 else v

/-- A new incarnation is drawn and stored (R323). -/
def newInc (s : Sys) : Sys :=
  let v := drawInc s.free s.sec.lastInc s.start.flashOk
  let s := { draw s with start := { s.start with incarn := v } }
  if s.start.flashOk then { s with sec := { s.sec with lastInc := v } } else fault (logW s 0x000B 2 0xFFFF 0) 119 1 1 FlashArea.lastInc.base 12 0

/-- The copy of the key store with the higher generation; A where they are equal. -/
def newerCopy (l : List KeyCopy) : Nat :=
  match l with
  | [a, b] => if a.gen < b.gen then 1 else 0
  | _ => 0

/-- What a key is hidden with in a copy of the key store (R375): the slot is one byte and the generation four (log entry 158). -/
def keyPad (kek : Bytes) (slot gen : Nat) : Bytes := kmac256 kek (le 1 slot ++ le 4 gen) 32 "JA64-KEYSTORE"

/-- The tag of a slot in a copy of the key store (R375). -/
def keyTag (kek : Bytes) (slot gen mask : Nat) (enc : Bytes) : Bytes :=
  kmac256 kek (le 1 slot ++ le 4 gen ++ le 2 mask ++ enc) 32 "JA64-KEYTAG"

/-- The tag of a slot verifies in a copy, and is not among those found `bad` in flash. -/
def tagOk (l : List KeyCopy) (kek : Bytes) (bad : List (Nat × Nat)) (i k : Nat) : Bool :=
  match l[i]? with
  | none => false
  | some c => match c.slots[k]? with
    | none => false
    | some r => !bad.contains (i, k) && r.tag == keyTag kek k c.gen r.mask r.enc

/-- A slot as a copy of the key store holds it, its key brought back into the clear; a slot with MASK 0 holds none. -/
def copySlot (l : List KeyCopy) (kek : Bytes) (i k : Nat) : Option Bytes × Nat :=
  match l[i]? with
  | none => (none, 0)
  | some c => match c.slots[k]? with
    | none => (none, 0)
    | some r => (if r.mask = 0 then none else some (xorBytes r.enc (keyPad kek k c.gen)), r.mask)

/-- The copy from which a slot is loaded (R375): the newest whose tags all verify; where none is whole, the newest whose tag for that
    slot verifies. `bad` are tags, by copy and slot, that flash has spoilt. -/
def copyFor (l : List KeyCopy) (kek : Bytes) (bad : List (Nat × Nat)) (k : Nat) : Option Nat :=
  let order := [newerCopy l, 1 - newerCopy l]
  (order.find? fun i => (List.range 16).all fun j => tagOk l kek bad i j).or (order.find? fun i => tagOk l kek bad i k)

/-- Wellhead derives KEK, for the key store, in every state that has one: PROVISIONED and FIELD (R374), and BLANK, whose KEY_SETs are stored
    under it (log entry 158); not in FIELD_DEBUG or RETIRED (R383, R384), nor once UDS_LOCK is blown. -/
def deriveKek (f : FuseBank) (s : Sys) : Option Bytes :=
  match lifecycle f s with
  | .fieldDebug | .retired => none
  | _ => if (fusesNow f s).udsLock = 0 then some (shake256 (ascii "JA64-KEK" ++ le 32 f.uds.toNat) 32) else none

/-- The identity seeds that UDS gives (R374). -/
def idSeeds (f : FuseBank) : Bytes := shake256 (ascii "JA64-IDK" ++ le 32 f.uds.toNat) 96

/-- Wellhead derives IDS in PROVISIONED and FIELD (R374). -/
def deriveIds (f : FuseBank) (s : Sys) : Option Bytes :=
  match lifecycle f s with
  | .provisioned | .field => if (fusesNow f s).udsLock = 0 then some (idSeeds f) else none
  | _ => none

/-- The key store is loaded at BOOT (R375): a slot whose tag fails in every copy is empty, and KEYSTORE_FAIL is logged. Without KEK the store
    is not available (R383), and where both copies are erased nothing was ever stored. -/
def loadKeys (f : FuseBank) (s : Sys) (bad : List (Nat × Nat)) : Sys :=
  let l := s.sec.copies
  let s : Sys := { s with sec := { s.sec with keys := Sec.reset.keys, kek := deriveKek f s, ids := deriveIds f s } }
  if l.all fun c => c.slots.isEmpty then s
  else match deriveKek f s with
  | none => s
  | some kek =>
    let keys := (List.range 16).map fun k =>
      let e := match copyFor l kek bad k with | some i => copySlot l kek i k | none => (none, 0)
      ({ key := e.1, mask := e.2, fails := 0, until_ := 0 } : KeySlot)
    ((List.range 16).filter fun k => (copyFor l kek bad k).isNone).foldl (fun s k => logW s 0x000C 2 0xFFFF k)
      { s with sec := { s.sec with keys := keys } }

/-- Phase 2 of Table 13.3 up to the start of the CC (R375, R378, R391): the key store is loaded, a slot that passes its checks is selected, the
    boot control record is written, and the components of that slot are measured. Without a slot the device stays in BOOT. -/
def selectSlot (f : FuseBank) (s : Sys) (badTags : List (Nat × Nat)) : Sys :=
  let s := bootRead s
  let (t, c) := bootSelect f (loadKeys f s badTags)
  let s := bootWrite s t
  match c with
  | none => { s with start := { s.start with noSlot := true } }
  | some k => { s with start := { s.start with noSlot := false }, upd := { s.upd with run := k }, sec := { s.sec with meas := bootMeas f s k } }

/-- WIPING ends in BOOT (Table 3.10): the boot is counted and the incarnation drawn; in RETIRED the key store and identity areas are
    erased (R384); then the slot is selected, unless BOOT_SRC holds BOOT (R392). -/
def enterBoot (f : FuseBank) (s : Sys) (badTags : List (Nat × Nat)) : Sys :=
  let s := setDev { s with log := { s.log with boot := (s.log.boot + 1) % 65536 }, start := { s.start with wiped := false, thermHold := false } } .boot
  let s := newInc s
  let s := if lifecycle f s = .retired then { s with sec := { s.sec with copies := Sec.reset.copies, cert := [], certTail := [], certTotal := 0, idpk := none } } else s
  if s.start.bootHold then s else selectSlot f s badTags

/-- WIPE_COMPLETE (R324, R348, R385): a wrong MISR is FATAL and the device stays in WIPING; after a thermal trip it waits to cool. -/
def runWipeComplete (f : FuseBank) (s : Sys) (misrOk flashOk : Bool) (badTags : List (Nat × Nat)) : Sys :=
  if s.dev.st ≠ .wiping ∨ s.start.wiped = true ∨ s.start.misrBad = true ∨ s.pins.standby = true then s
  else if misrOk = false then fault { s with start := { s.start with misrBad := true } } 117 1 3 0 12 0
  else
    let s := { s with start := { s.start with wiped := true, flashOk := flashOk } }
    if s.start.thermHold then s else enterBoot f s badTags

/-- THERMAL_COOLDOWN_RELEASE (R348): every sensor reads below 95 degrees. -/
def runThermalCooldownRelease (f : FuseBank) (s : Sys) (temps : List Int) (badTags : List (Nat × Nat)) : Sys :=
  if s.dev.st = .wiping ∧ s.start.wiped = true ∧ s.start.thermHold = true ∧ s.pins.standby = false ∧ (temps.all fun t => decide (t < 760)) = true then
    enterBoot f { s with pwr := { s.pwr with temps := temps } } badTags
  else s

/-- A trial that starts now lasts its window (R401). -/
def startTrial (s : Sys) : Sys :=
  { s with upd := { s.upd with trialStart := some (epoch s), trialEnd := some (epoch s + s.upd.trialWin) } }

/-- The settings that a chip reset takes up (Table 16.10): functions that an earlier reset of their port has named take them too (R73, R100). -/
def takeSettings (s : Sys) : Sys :=
  { s with
    upd := { s.upd with vfDb := s.upd.vfDbNext, msixPf := s.upd.msixPfNext, msixVf := s.upd.msixVfNext },
    fns := tmap s.fns fun k g =>
      let d := Fn.reset (k % 64) s.upd.vfDbNext s.upd.msixPfNext s.upd.msixVfNext
      { g with msixSize := d.msixSize, ctxQuota := d.ctxQuota } }

/-- Wellhead has released the SPI bus pins to high impedance (R392): BOOT without a bootable slot, or held by BOOT_SRC. What board firmware
    then writes to the flash comes from outside (log entry 163). -/
def spiReleased (s : Sys) : Bool := s.dev.st == .boot && (s.start.noSlot || s.start.bootHold)

/-- BOOT_COMPLETE (R324): the slot selected at the entry to BOOT runs and the device enters DISCOVERY; without one, or while BOOT_SRC holds
    BOOT, it stays there (R391, R392). -/
def runBootComplete (f : FuseBank) (s : Sys) : Sys :=
  if s.dev.st ≠ .boot ∨ s.start.bootHold = true ∨ s.start.noSlot = true ∨ dark s = true then s
  else
    let k := s.upd.run
    let s : Sys := { s with
      upd := { s.upd with gen := s.upd.gen + 1 }, svc := { s.svc with ccUp := true }, start := { s.start with discEpoch := epoch s },
      hps := s.hps.map fun h => { h with a := { h.a with crs := !h.a.up || h.a.inReset }, b := { h.b with crs := !h.b.up || h.b.inReset } } }
    let s := setDev (takeSettings (loadSettings f s k)) .discovery
    let s := { s with start := { s.start with settle := s.upd.settle } }
    let s := logW s 0x0001 0 s.start.causeSrc s.start.cause
    if (getSlot s k).st = .trial then startTrial s else s

/-! ### The board's record (R326 to R328) -/

/-- A wiring map entry from its 8 bytes (Table 13.5). -/
def WireE.parse (b : Bytes) : WireE :=
  let w := num b 0 4
  let x := num b 4 4
  { port := bits w 0 6, role := bits w 6 2, chan := bits w 8 2, fec := bits w 10 2, train := bits w 12 2, cage := bits w 16 4,
    cageV := w.testBit 20, mport := bits w 21 2, swapInv := bits w 24 6, farGroup := bits x 0 10, farDev := bits x 10 6,
    farPort := bits x 16 6, link := bits x 22 3, rsvd := bits w 14 2 != 0 || w.testBit 23 || bits w 30 2 != 0 || bits x 25 7 != 0 }

/-- A part of the record set from a record's data (Table 13.4): the head, and (length - 12) / 8 entries. -/
def FruPart.parse (r : FruRec) : FruPart :=
  let b := r.data
  { sumOk := r.sumOk, version := num b 3 1, part := bits (num b 4 1) 0 4, parts := bits (num b 4 1) 4 4, tabsrc := num b 5 1 % 2,
    group := num b 6 2 % 1024, device := num b 8 1 % 64, d := num b 9 1, g := num b 10 2,
    rsvd := num b 5 1 / 2 != 0 || num b 6 2 / 1024 != 0 || num b 8 1 / 64 != 0,
    rsvdBits := num b 5 1 / 2 + num b 6 2 / 1024 * 2 ^ 7 + num b 8 1 / 64 * 2 ^ 13,
    entries := (List.range ((b.length - 12) / 8)).map fun k => WireE.parse (sub b (12 + 8 * k) 8) }

/-- The records that Tarn takes (R326): type 0xD4 with Korfel's manufacturer ID; every other is ignored. -/
def fruParts (l : List FruRec) : List FruPart :=
  (l.filter fun r => r.type == 0xD4 && decide (3 ≤ r.data.length) && num r.data 0 3 == 0xF42A91).map FruPart.parse

/-- The head of a part, without its index. -/
def fruHead (p : FruPart) : Nat × Nat × Nat × Nat × Nat × Nat × Nat × Nat :=
  (p.version, p.parts, p.tabsrc, p.group, p.device, p.d, p.g, p.rsvdBits)

/-- Check 1 of R327: checksums, VERSION, all parts, equal heads. -/
def fru1 (l : List FruPart) : Bool :=
  match l with
  | [] => false
  | a :: _ => l.all (fun p => p.sumOk && p.version == 1 && (decide (p.part < p.parts) || !within 1 p.parts 3) && fruHead p == fruHead a) &&
              (List.range a.parts).all fun k => l.any fun p => p.part == k

/-- Check 3: no reserved field set, no invalid encoding; a local entry's LINK is 0 (log entry 138). -/
def fru3 (l : List FruPart) : Bool :=
  l.all fun p => !p.rsvd && within 1 p.parts 3 && decide (p.tabsrc < 2) && p.entries.all fun e =>
    !e.rsvd && decide (e.role < 2) && e.chan != 3 && e.fec != 3 && e.train != 0 && (e.role != 0 || e.link == 0)

/-- Checks 4 to 7 on the entries. -/
def fruMap (f : FuseBank) (r : Fru) : Nat :=
  let es := r.entries
  let loc : List WireE := es.filter fun e => e.role == 0
  let glo : List WireE := es.filter fun e => e.role == 1
  if !(es.all (fun e => portEnabled f e.port) && decide ((es.map fun e => e.port).Nodup)) then 4
  else if !(loc.length + 1 == r.d && loc.all (fun e => e.farGroup == r.group && decide (e.farDev < r.d) && e.farDev != r.device) &&
            decide ((loc.map WireE.farDev).Nodup)) then 5
  else if !(glo.all (fun e => e.farGroup != r.group && decide (e.farGroup < r.g)) && decide ((glo.map fun e => (e.farGroup, e.link)).Nodup)) then 6
  else if !(decide (((es.filter (·.cageV)).map fun e => (e.cage, e.mport)).Nodup) && es.all fun e => !(e.chan == 0 && e.cageV)) then 7
  else 0

/-- A group of D devices or a system of G groups is beyond the maxima of Table 1.1 for an order code (R11). -/
def tooLarge (order d g : Nat) : Bool :=
  decide ((if order = 2 then 33 else 44) < d) || decide ((if order = 2 then 529 else 925) < g)

/-- The record set as one record, its parts in order. -/
def fruJoin (l : List FruPart) : Fru :=
  let a := l.headD { sumOk := false, version := 0, part := 0, parts := 0, tabsrc := 0, group := 0, device := 0, d := 0, g := 0, rsvd := true, entries := [] }
  { tabsrc := a.tabsrc == 1, group := a.group, device := a.device, d := a.d, g := a.g,
    entries := (List.range a.parts).flatMap fun k => (l.filter fun p => p.part == k).flatMap (·.entries) }

/-- The number of the first check of R327 that fails; 0 if the set is valid. -/
def fruFail (f : FuseBank) (l : List FruPart) : Nat :=
  let r := fruJoin l
  if !fru1 l then 1
  else if !(decide (r.group < r.g) && decide (r.device < r.d) && !tooLarge f.order r.d r.g) then 2
  else if !fru3 l then 3
  else fruMap f r

/-- A mapped port takes its lane settings and leaves DISABLED (R272, R315); its cage leaves DISABLED for EMPTY (R349). -/
def mapPort (s : Sys) (e : WireE) : Sys :=
  let c : SlCfg := { chan := e.chan, fec := e.fec, train := e.train, swapInv := e.swapInv, serWarn := (getNp s e.port).sl.serWarn }
  let s := modNp s e.port fun n => { n with sl := c }
  let s := if e.cageV ∧ (getCage s e.cage).st = .disabled then modCage s e.cage fun g => { g with st := .empty, deb := 0 } else s
  portEnable s e.port

/-- The time gate opens when every mapped port is UP with a HELLO that passed. -/
def gateCheck (s : Sys) : Sys :=
  match s.start.fru with
  | some r =>
    if s.dev.st = .discovery ∧ (r.entries.all fun e => (getNp s e.port).st == .up && (getNp s e.port).helloOk) = true then
      { s with start := { s.start with gateOpen := true } }
    else s
  | none => s

/-- FRU_READ (R326, R327): a valid set brings the mapped ports up; with an invalid one every network port stays DISABLED. -/
def runFruRead (f : FuseBank) (s : Sys) (recs : List FruRec) : Sys :=
  if s.dev.st ≠ .discovery ∨ s.start.fruRead = true then s
  else
    let parts := fruParts recs
    let s := { s with start := { s.start with fruRead := true } }
    let k := fruFail f parts
    if k ≠ 0 then logW s 0x0002 2 0xFFFF k
    else
      let r := fruJoin parts
      let s := { s with start := { s.start with fru := some r } }
      let s := ownRoot s .freeRun
      if lifecycle f s = .retired then s else gateCheck (r.entries.foldl mapPort s)

/-! ### The time gate (R331) -/

/-- TIME_GATE_SETTLE_EXPIRY (R331). -/
def runTimeGateSettleExpiry (_f : FuseBank) (s : Sys) : Sys :=
  if s.dev.st = .discovery ∧ s.start.discEpoch + s.start.settle ≤ epoch s then { s with start := { s.start with gateOpen := true } } else s

/-! ### Hellos (R329, R330, R333) -/

/-- The HELLO that this device sends on a port now. -/
def ownHello (f : FuseBank) (s : Sys) (p : Nat) : Hello :=
  let r := s.start.fru
  let es := (r.map (·.entries)).getD []
  { uid := f.uid, coord := (r.map fun r => r.group * 256 + r.device * 4).getD 0, cv := r.isSome, incarn := s.start.incarn,
    dstate := s.dev.st.code, order := f.order, port := p, mode := !s.rt.millpond, tabsrc := (r.map (·.tabsrc)).getD false,
    derived := s.start.derived, frozen := s.start.frozen, oxv := s.start.oxroot.isSome, track := decide (s.time.sync = .track),
    d := (r.map (·.d)).getD 0, g := (r.map (·.g)).getD 0, swEpoch := s.start.swEpoch, oxroot := s.start.oxroot.getD 0,
    globs := (es.filter fun e => e.role == 1).map fun e => (e.farGroup, e.link, e.port, e.farDev, (getNp s e.port).st == .up) }

/-- A HELLO's payload (Table 13.6). -/
def helloBytes (h : Hello) : Bytes :=
  le 8 h.uid ++ le 4 (h.coord % 2 ^ 18 + 2 ^ 31 * b2n h.cv) ++ le 2 (h.incarn % 4096) ++ le 1 h.dstate ++ le 1 h.order ++ le 1 (h.port % 64) ++
    le 1 (b2n h.mode + 2 * b2n h.tabsrc + 4 * b2n h.derived + 8 * b2n h.frozen + 16 * b2n h.oxv + 32 * b2n h.track) ++ le 1 h.d ++
    le 1 h.globs.length ++ le 2 h.g ++ zeros 2 ++ le 8 h.swEpoch ++ le 4 (h.oxroot % 2 ^ 18) ++ zeros 4 ++
    h.globs.flatMap fun e => le 4 (e.1 % 2 ^ 10 + e.2.1 % 8 * 2 ^ 10 + e.2.2.1 % 64 * 2 ^ 13 + e.2.2.2.1 % 64 * 2 ^ 19 + b2n e.2.2.2.2 * 2 ^ 25)

/-- A HELLO read from its payload. -/
def helloParse (b : Bytes) : Hello :=
  let fl := num b 17 1
  { uid := num b 0 8, coord := num b 8 4 % 2 ^ 18, cv := (num b 8 4).testBit 31, incarn := num b 12 2 % 4096, dstate := num b 14 1,
    order := num b 15 1, port := num b 16 1 % 64, mode := fl.testBit 0, tabsrc := fl.testBit 1, derived := fl.testBit 2, frozen := fl.testBit 3,
    oxv := fl.testBit 4, track := fl.testBit 5, d := num b 18 1, g := num b 20 2, swEpoch := num b 24 8, oxroot := num b 32 4 % 2 ^ 18,
    globs := (List.range (num b 19 1)).map fun k =>
      let e := num b (40 + 4 * k) 4
      (bits e 0 10, bits e 10 3, bits e 13 6, bits e 19 6, e.testBit 25) }

/-- A management packet of this device to the neighbour on a port, on VC15 (R263). -/
def sendMgmt (s : Sys) (p user sfeid : Nat) (payload : Bytes) : Sys :=
  let k := Packet.withPayload { Packet.zero with kind := 3, vc := 15, op := user, sfeid := sfeid, w56 := payload.length } payload
  let s := modRp s p fun r => { r with txq := r.txq ++ [{ pkt := k, vc := 15, arr := s.rt.nextArr, cx := 68 }] }
  { s with rt := { s.rt with nextArr := s.rt.nextArr + 1 } }

/-- HELLO_SEND (R329, R401): within a frame of entering UP, every 64 frames, and on a change of a field other than SWITCH_EPOCH. While the CC
    is away a beacon repeats the last one. -/
def runHelloSend (f : FuseBank) (s : Sys) (port : Nat) : Sys :=
  let n := getNp s port
  let h := if s.svc.ccUp then ownHello f s port else n.helloTx.getD (ownHello f s port)
  let due := n.helloDue || (match n.helloSent with | some k => decide (k + 64 ≤ frame s) | none => true) ||
    (n.helloTx.map fun x => { x with swEpoch := 0 }) != some { h with swEpoch := 0 }
  if n.st ≠ .up ∨ early s = true ∨ due = false then s
  else
    let s := modNp s port fun n => { n with helloSent := some (frame s), helloDue := false, helloTx := some h }
    sendMgmt s port 0x01 h.coord (helloBytes h)

/-- R330's checks of a HELLO on a port. -/
def helloPass (s : Sys) (p : Nat) (h : Hello) : Bool :=
  match s.start.fru, wireOf s p with
  | some r, some e =>
    h.cv && h.coord == e.farGroup * 256 + e.farDev * 4 && h.port == e.farPort && h.g == r.g && (e.role != 0 || h.d == r.d)
  | _, _ => false

/-- A HELLO shows a system beyond R11. -/
def helloExcess (f : FuseBank) (s : Sys) (p : Nat) (h : Hello) : Bool :=
  h.cv && (tooLarge h.order h.d h.g || tooLarge f.order 0 h.g || (!isGlobal s p && tooLarge f.order h.d 0))

/-- SWITCH_EPOCH as the HELLOs of neighbours raise it (R333 steps 2 to 4). -/
def adoptSwitch (s : Sys) (h : Hello) : Sys :=
  if s.start.frozen ∨ s.start.switched = true ∨ s.start.lateAt.isSome = true then s
  else { s with start := { s.start with swEpoch := max s.start.swEpoch h.swEpoch } }

/-- A HELLO taken on a port (R330). -/
def takeHello (f : FuseBank) (s : Sys) (p : Nat) (h : Hello) : Sys :=
  if s.dev.st = .discovery ∧ helloExcess f s p h = true then
    let s := (List.range 64).foldl (fun s p => if portLive s p then portDisable s p else s) s
    logW { s with start := { s.start with fru := none, derived := false, swEpoch := 0, lateAt := none } } 0x0002 2 0xFFFF 2
  else
    let n := getNp s p
    let ok := helloPass s p h
    let s := if n.lastInc ≠ 0 ∧ n.lastInc ≠ h.incarn then logW s 0x0008 0 0xFFFF (p + 65536 * h.incarn) else s
    let s := modNp s p fun n => { n with hello := some h, helloOk := ok, helloAt := frame s, lastInc := h.incarn }
    if ok then gateCheck (adoptSwitch s h) else fault s p 0x21 1 (h.coord + 2 ^ 32 * h.port + 2 ^ 40 * b2n h.cv) 1 p

/-- The first management packet of a range of users, and the queue without it. -/
def takeMgmt (s : Sys) (lo hi : Nat) : Option (Nat × Packet × Sys) :=
  match s.rt.mgq.find? fun e => decide (lo ≤ e.2.op) && decide (e.2.op ≤ hi) with
  | some e => some (e.1, e.2, { s with rt := { s.rt with mgq := s.rt.mgq.erase e } })
  | none => none

/-- HELLO_RECEIVE (R263, R330): the oldest packet for discovery. USER 0x02 to 0x0F has no meaning and is dropped. -/
def runHelloReceive (f : FuseBank) (s : Sys) : Sys :=
  match takeMgmt s 0x01 0x0F with
  | none => s
  | some (p, k, s) => if k.op = 0x01 then takeHello f s p (helloParse k.payload) else count s p 0x18 1

/-- HELLO_EXPIRY (R330): the last HELLO is more than 256 frames old. -/
def runHelloExpiry (_f : FuseBank) (s : Sys) (port : Nat) : Sys :=
  if (getNp s port).helloAt + 256 < frame s then modNp s port fun n => { n with helloOk := false } else s

/-! ### Autonomous tables (R255, R332) -/

/-- HELLOs of local neighbours that passed: device index and HELLO. -/
def localHellos (s : Sys) : List (Nat × Hello) :=
  ((s.start.fru.map (·.entries)).getD []).filterMap fun e =>
    let n := getNp s e.port
    if e.role = 0 ∧ n.st = .up ∧ n.helloOk = true then n.hello.map fun h => (e.farDev, h) else none

/-- The global links of the own group that this device knows: holder, far group, link, port, far device, and whether it works. -/
def knownLinks (s : Sys) (r : Fru) : List (Nat × Nat × Nat × Nat × Nat × Bool) :=
  (((r.entries.filter fun e => e.role == 1).map fun e => (r.device, e.farGroup, e.link, e.port, e.farDev, (getNp s e.port).st == .up)) ++
    (localHellos s).flatMap fun h => h.2.globs.map fun g => (h.1, g.1, g.2.1, g.2.2.1, g.2.2.2.1, g.2.2.2.2))

/-- Group `a` has a working link to group `b`, by the own group's links or by digests (R250). -/
def groupLinked (s : Sys) (r : Fru) (ls : List (Nat × Nat × Nat × Nat × Nat × Bool)) (a b : Nat) : Bool :=
  if a = r.group then ls.any fun l => l.2.1 == b && l.2.2.2.2.2
  else if b = r.group then ls.any fun l => l.2.1 == a && l.2.2.2.2.2
  else decide (digest s a b < 15)

/-- The parents of groups on the tree (R255): those linked to the root group, then in each round those linked to a group of the tree, under
    the lowest-numbered such group. -/
def treeRounds (linked : Nat → Nat → Bool) (all : List Nat) : Nat → List (Nat × Nat) → List (Nat × Nat)
  | 0, t => t
  | n + 1, t =>
    let more := (all.filter fun g => !(t.any fun e => e.1 == g)).filterMap fun g =>
      ((t.map (·.1)).filter fun h => linked g h).min?.map fun h => (g, h)
    if more.isEmpty then t else treeRounds linked all n (t ++ more)

/-- The tree as (group, parent); the root group is its own parent. -/
def groupTree (s : Sys) (r : Fru) (root : Nat) : List (Nat × Nat) :=
  let ls := knownLinks s r
  let linked := groupLinked s r ls
  let all := List.range r.g
  let first := (all.filter fun g => g != root && linked g root).map fun g => (g, root)
  treeRounds linked all r.g ((root, root) :: first)

/-- The parent of a group. -/
def parentOf (t : List (Nat × Nat)) (g : Nat) : Option Nat := (t.find? fun e => e.1 == g).map (·.2)

/-- The child of group `h` on the way down to group `g`, within `n` steps; none where `g` does not lie below `h`. -/
def childToward (t : List (Nat × Nat)) (h : Nat) : Nat → Nat → Option Nat
  | 0, _ => none
  | n + 1, g => match parentOf t g with
    | some p => if p = g then none else if p = h then some g else childToward t h n p
    | none => none

/-- The link by which the head of a child group hangs from this group: of its head, which has the lowest index of the far devices of working
    links, the link with the lowest number. -/
def hangLink (ls : List (Nat × Nat × Nat × Nat × Nat × Bool)) (g : Nat) : Option (Nat × Nat) :=
  let w := ls.filter fun l => l.2.1 == g && l.2.2.2.2.2
  match (w.map fun l => l.2.2.2.2.1).min? with
  | none => none
  | some h =>
    let c := w.filter fun l => l.2.2.2.2.1 == h
    match (c.map fun l => l.2.2.1).min? with
    | none => none
    | some k => (c.find? fun l => l.2.2.1 == k).map fun l => (l.1, l.2.2.2.1)

/-- The own group's link to its parent group: head and port. -/
def headLink (ls : List (Nat × Nat × Nat × Nat × Nat × Bool)) (g : Nat) : Option (Nat × Nat) :=
  let w := ls.filter fun l => l.2.1 == g && l.2.2.2.2.2
  match (w.map fun l => l.1).min? with
  | none => none
  | some h =>
    let c := w.filter fun l => l.1 == h
    match (c.map fun l => l.2.2.1).min? with
    | none => none
    | some k => (c.find? fun l => l.2.2.1 == k).map fun l => (l.1, l.2.2.2.1)

/-- The local port to a device of the own group; 0x7F where there is none. -/
def localPort (r : Fru) (d : Nat) : Nat := ((r.entries.find? fun e => e.role == 0 && e.farDev == d).map (·.port)).getD 0x7F

/-- The device of the own group that is highest on the tree: the root, or the group's head; with the port to its parent. -/
def groupTop (s : Sys) (r : Fru) (root : Nat) : Option (Nat × Nat) :=
  if root / 256 = r.group then some (root / 4 % 64, 0x7F)
  else match parentOf (groupTree s r (root / 256)) r.group with
    | some p => headLink (knownLinks s r) p
    | none => none

/-- The Oxbow byte toward a device of the own group. -/
def oxDev (s : Sys) (r : Fru) (root d : Nat) : Nat :=
  match groupTop s r root with
  | none => 0
  | some (h, _) => 0x80 + (if d = r.device then 0x7F else if r.device = h then localPort r d else 0x7F)

/-- The Oxbow byte toward another group; 0 where it has no path into the tree. -/
def oxGroup (s : Sys) (r : Fru) (root g : Nat) : Nat :=
  let t := groupTree s r (root / 256)
  match groupTop s r root, parentOf t g with
  | some (h, _), some _ =>
    0x80 + (match (childToward t r.group r.g g).bind (hangLink (knownLinks s r)) with
      | some (x, port) => if x = r.device then port else if r.device = h then localPort r x else 0x7F
      | none => 0x7F)
  | _, _ => 0

/-- OXUP: the port to the parent; 0x7F at the root. -/
def oxUp (s : Sys) (r : Fru) (root : Nat) : Nat :=
  match groupTop s r root with
  | some (h, port) => if r.device = h then port else localPort r h
  | none => 0x7F

/-- The slots of a group's entry (R332). -/
def groupSlots (ls : List (Nat × Nat × Nat × Nat × Nat × Bool)) (g : Nat) : Nat :=
  ((List.range 8).map fun k => match ls.find? fun l => l.2.1 == g && l.2.2.1 == k with
    | some l => (l.1 + 64 * l.2.2.2.1 + 2 ^ 15) * 2 ^ (16 * k)
    | none => 0).sum

/-- The tables that the device derives with the tree rooted at `root` (R332). -/
def deriveBank (s : Sys) (r : Fru) (root : Nat) : Bank :=
  let ls := knownLinks s r
  { ep := (List.range r.g).flatMap fun g => (List.range r.d).flatMap fun d => (List.range 4).map fun e =>
      let c := g * 256 + d * 4 + e
      (c, c + 2 ^ 23),
    grp := ((List.range r.g).filter fun g => g != r.group).map fun g => (g, groupSlots ls g + oxGroup s r root g * 2 ^ 128),
    dv := (List.range r.d).filterMap fun d =>
      if d = r.device then some (d, 0x80)
      else if localPort r d = 0x7F then none else some (d, localPort r d + 0x80 + oxDev s r root d * 2 ^ 8),
    cfg := r.group * 256 + r.device * 4 + 2 ^ 31 + oxUp s r root * 2 ^ 32 }

/-- OXROOT of the lowest port whose neighbour shows one (R332). -/
def nbrOxroot (s : Sys) : Option Nat :=
  (List.range 64).findSome? fun p =>
    let n := getNp s p
    if n.st = .up ∧ n.helloOk = true then n.hello.bind fun h => if h.oxv then some h.oxroot else none else none

/-- The HELLOs in force. -/
def hellosNow (s : Sys) : List Hello :=
  (List.range 64).filterMap fun p => let n := getNp s p; if n.st = .up ∧ n.helloOk = true then n.hello else none

/-- The switch that a device proposes or adopts as it derives its tables (R333, R337). -/
def proposeSwitch (s : Sys) : Sys :=
  let hs := hellosNow s
  let fz := (hs.filter (·.frozen)).map (·.swEpoch)
  let late := { s with start := { s.start with lateAt := some (epoch s + 1) } }
  if hs.any (·.mode) then late
  else match fz.max? with
  | some v => if epoch s + 2 ≤ v then { s with start := { s.start with swEpoch := v } } else late
  | none =>
    if s.start.frozen = true then (if epoch s + 2 ≤ s.start.swEpoch then s else late)
    else { s with start := { s.start with swEpoch := max s.start.swEpoch ((epoch s + 128 + 63) / 64 * 64) } }

/-- TABLE_DERIVE (R332): with TABSRC 0, the gate open, TRACK, and 128 frames after the last mapped port came UP; once. -/
def runTableDerive (_f : FuseBank) (s : Sys) : Sys :=
  match s.start.fru with
  | none => s
  | some r =>
    if s.dev.st = .discovery ∧ r.tabsrc = false ∧ s.start.derived = false ∧ s.start.gateOpen = true ∧ s.time.sync = .track ∧
       s.start.lastUp + 128 ≤ frame s then
      let root := (nbrOxroot s).getD s.time.rootAddr
      let b := deriveBank s r root
      let lost := (List.range r.g).filter fun g => g != r.group && oxGroup s r root g == 0
      let s := { s with rt := { s.rt with sh := b }, start := { s.start with derived := true, oxroot := some root } }
      proposeSwitch (lost.foldl (fun s g => logW s 0x0007 1 0xFFFF g) s)
    else s

/-- SWITCH_EPOCH_FREEZE (R333): 16 epochs before SWITCH_EPOCH it is frozen. -/
def runSwitchEpochFreeze (_f : FuseBank) (s : Sys) : Sys :=
  if s.start.frozen = false ∧ s.start.switched = false ∧ s.start.swEpoch ≠ 0 ∧ s.start.swEpoch ≤ epoch s + 16 then
    { s with start := { s.start with frozen := true } }
  else s

/-- TABLE_MODE_SWITCH (R333, R337): the tick of SWITCH_EPOCH, or the first epoch tick of a device that joins running neighbours; the shadow
    banks are committed and the change to table mode begins. -/
def runTableModeSwitch (_f : FuseBank) (s : Sys) : Sys :=
  let due := match s.start.lateAt with
    | some e => decide (e ≤ epoch s)
    | none => s.start.swEpoch != 0 && decide (s.start.swEpoch ≤ epoch s)
  if s.start.derived = true ∧ s.start.switched = false ∧ due = true ∧ s.dev.st = .discovery then
    let s := switchBanks { s with start := { s.start with switched := true } }
    startTransfer (if s.rt.freeze.isSome then s else copyBanks s) false
  else s

/-- READY or DEGRADED is entered at a frame tick (R335); RETIRED stays in DISCOVERY (R384). -/
def readyTick (f : FuseBank) (s : Sys) : Sys :=
  if s.dev.st = .discovery ∧ s.time.sync = .track ∧ cvOf s.rt.act = true ∧ s.rt.millpond = false ∧ s.rt.transfer = none ∧
     lifecycle f s ≠ .retired then setDev s (readyOr s)
  else s

end Sys2Proof.Machine
end

