-- ==== Sys2Proof/Machine/Update.lean ====
section
/-!
DEFINITION. Firmware update (R393 to R403): the staging lock, the update commands, Freshet, and the trial. The steps of an activation stand in
Return, since the last of them settles the mailbox.
-/
namespace Sys2Proof.Machine

/-! ### The staging lock (R393) -/

/-- The slot that staging takes: neither ACTIVE nor TRIAL. -/
def openSlot (s : Sys) : Option Nat := (List.range 2).find? fun k => (getSlot s k).st != .active && (getSlot s k).st != .trial

/-- A slot is on trial or will be. -/
def onTrial (s : Sys) : Bool := s.upd.slots.any fun x => x.st == .trial || x.st == .trialNext

/-- The staging lock opens: the slot moves to STAGING and the device to UPDATE_STAGING. -/
def openLock (s : Sys) (holder : Holder) (digest : Bytes) (blen : Nat) (hops : Option Nat) : Sys :=
  match openSlot s with
  | none => s
  | some k =>
    let s := bootWrite s <| modSlot s k fun x => { x with st := .staging, mdigest := digest, blen := blen, data := [], hops := hops }
    let l : Lock := { holder, lastEpoch := epoch s, limit := s.upd.lockEpochs, slot := k, lastOff := 0, lastData := [], early := [],
                      verifying := false }
    let s : Sys := { s with
      upd := { s.upd with lock := some l, pulls := [] },
      dev := { s.dev with stageFrom := s.dev.st } }
    setDev s .updateStaging

/-- UPDATE_STAGING is left for the state it was entered from, with READY and DEGRADED evaluated afresh (Table 3.10). -/
def leaveStaging (s : Sys) : Sys :=
  if s.dev.st = .updateStaging then setDev s (match s.dev.stageFrom with | .quiesced => .quiesced | _ => readyOr s) else s

/-- The lock is released by an activation. -/
def releaseLock (s : Sys) : Sys := leaveStaging { s with upd := { s.upd with lock := none, pulls := [] } }

/-- The slot being staged. -/
def stageSlot (s : Sys) (l : Lock) : Slot := getSlot s l.slot

/-- RECEIVED: the bytes staged. -/
def received (s : Sys) (l : Lock) : Nat := (stageSlot s l).data.length

/-- The lock changed. -/
def modLock (s : Sys) (g : Lock → Lock) : Sys := { s with upd := { s.upd with lock := s.upd.lock.map g } }

/-- A requester holds the lock. -/
def holds (l : Lock) (w : Requester) : Bool := match l.holder with | .req x _ => x == w | .port _ => false

/-- The longest bundle, and the shortest that UPDATE_OPEN takes (Table 16.6). -/
def bundleLenOk (n : Nat) : Bool := within 30112 n (2 ^ 25)

/-! ### Commands (Table 16.6) -/

/-- UPDATE_OPEN's effect. The holder that opens the same bundle again learns RECEIVED (log entry 43). -/
def bodyUpdateOpen (_f : FuseBank) (s : Sys) (q : MbxReq) : Ans :=
  let dg := sub q.payload 0 32
  let n := num q.payload 32 4
  if s.dev.st = .discovery ∨ onTrial s = true then .no .stateConflict
  else match s.upd.lock with
  | some l =>
    if holds l q.who ∧ (stageSlot s l).mdigest = dg ∧ (stageSlot s l).blen = n then .done s (le 4 (received s l)) else .no .updateBusy
  | none => .done (openLock s (.req q.who q.token) dg n (some 0)) (le 4 0)

/-- UPDATE_OPEN's traits. -/
def specUpdateOpen : Spec :=
  Spec.fast 0x0801 40 (fun _ _ q => bundleLenOk (num q.payload 32 4) && rsv q.payload 36 4) (sess 8)

/-- UPDATE_OPEN (R393, R394). -/
def runUpdateOpen (f : FuseBank) (s : Sys) (q : MbxReq) : Sys :=
  mbxRun specUpdateOpen bodyUpdateOpen f s q

/-- UPDATE_WRITE repeats the last write (R395). -/
def repeats (l : Lock) (b : Bytes) : Bool := !l.lastData.isEmpty && num b 0 4 == l.lastOff && b.drop 8 == l.lastData

/-- The OFFSET and the data that UPDATE_WRITE accepts (R395). -/
def updateWriteOk (s : Sys) (b : Bytes) : Bool :=
  rsv b 4 4 && (match s.upd.lock with
    | none => true
    | some l => repeats l b || (num b 0 4 == received s l && decide (num b 0 4 + (b.length - 8) ≤ (stageSlot s l).blen)))

/-- UPDATE_WRITE's effect. -/
def bodyUpdateWrite (_f : FuseBank) (s : Sys) (q : MbxReq) : Ans :=
  match s.upd.lock with
  | none => .no .stateConflict
  | some l =>
    if holds l q.who = false then .no .updateBusy
    else if repeats l q.payload then .done s (le 4 (received s l))
    else
      let d := q.payload.drop 8
      let s := modSlot s l.slot fun x => { x with data := x.data ++ d }
      let s := modLock s fun l => { l with lastOff := num q.payload 0 4, lastData := d }
      .done s (le 4 (received s l))

/-- UPDATE_WRITE's traits. -/
def specUpdateWrite : Spec :=
  { Spec.fast 0x0802 0 (fun _ s q => updateWriteOk s q.payload) (sess 8) with lenOk := fun n => within 9 n 4080 }

/-- UPDATE_WRITE (R395). -/
def runUpdateWrite (f : FuseBank) (s : Sys) (q : MbxReq) : Sys :=
  mbxRun specUpdateWrite bodyUpdateWrite f s q

/-- UPDATE_VERIFY's effect: verification begins. -/
def bodyUpdateVerify (_f : FuseBank) (s : Sys) (q : MbxReq) : Ans :=
  match s.upd.lock with
  | none => .no .stateConflict
  | some l =>
    if received s l < (stageSlot s l).blen then .no .stateConflict
    else if holds l q.who = false then .no .updateBusy
    else .wait (modLock s fun l => { l with verifying := true }) .verify

/-- UPDATE_VERIFY's traits. -/
def specUpdateVerify : Spec :=
  { Spec.fast 0x0803 0 (fun _ _ _ => true) (sess 8) with cls := .long }

/-- UPDATE_VERIFY (R395). -/
def runUpdateVerify (f : FuseBank) (s : Sys) (q : MbxReq) : Sys :=
  mbxRun specUpdateVerify bodyUpdateVerify f s q

/-- BUNDLE_VERIFY_COMPLETE (R390, R395, R399): the bundle becomes STAGED, or the staging is abandoned with the failing check. -/
def runBundleVerifyComplete (f : FuseBank) (s : Sys) : Sys :=
  match s.upd.lock with
  | none => endWait s (fun w => w == .verify) .stateConflict []
  | some l =>
    if l.verifying = false then s
    else
      let k := if (stageSlot s l).data.length ≠ (stageSlot s l).blen then 1 else bundleFail f s l.slot false
      if k = 0 then endWait (modLock (bootWrite s (slotTo s l.slot .staged)) fun l => { l with verifying := false }) (fun w => w == .verify) .ok (zeros 4)
      else
        let s := abandon { s with upd := { s.upd with rejected := s.upd.rejected ++ [(stageSlot s l).mdigest] } }
        endWait s (fun w => w == .verify) .badParam (le 1 k ++ zeros 3)

/-- UPDATE_ABANDON's effect. -/
def bodyUpdateAbandon (_f : FuseBank) (s : Sys) (_q : MbxReq) : Ans :=
  if s.upd.lock.isNone ∨ s.upd.act.isSome then .no .stateConflict else .done (abandon s) []

/-- UPDATE_ABANDON's traits. -/
def specUpdateAbandon : Spec :=
  { Spec.fast 0x0804 0 (fun _ _ _ => true) (sess 8) with cls := .slow }

/-- UPDATE_ABANDON (R393). -/
def runUpdateAbandon (f : FuseBank) (s : Sys) (q : MbxReq) : Sys :=
  mbxRun specUpdateAbandon bodyUpdateAbandon f s q

/-- Seconds as whole epochs, rounded up (600 s are 457,764 epochs, R400). -/
def secEpochs (n : Nat) : Nat := (n * 1600000000 + 2097151) / 2097152

/-- The STAGED slot. -/
def stagedSlot (s : Sys) : Option Nat := slotIn s .staged

/-- UPDATE_ACTIVATE's parameters: HITLESS needs HITLESS_OK (R400). -/
def updateActivateOk (s : Sys) (b : Bytes) : Bool :=
  decide (num b 0 1 < 2) && rsv b 1 3 && (num b 4 4 == 0 || within 60 (num b 4 4) 86400) &&
    (num b 0 1 == 1 || (match stagedSlot s with | some k => mHitless (getSlot s k).data | none => true))

/-- The R400 writes: the running slot's settings go into the new slot, then the boot control record, with the trial window. -/
def activateWrites (s : Sys) (k : Nat) (st : SlotSt) (trial : Nat) : Sys :=
  let r := getSlot s s.upd.run
  let t := modSlot s k fun x => { x with st := st, setA := r.setA, setB := r.setB }
  { t with upd := { t.upd with trialWin := trial } }

/-- UPDATE_ACTIVATE's effect. -/
def bodyUpdateActivate (_f : FuseBank) (s : Sys) (q : MbxReq) : Ans :=
  let b := q.payload
  let t := if num b 4 4 = 0 then secEpochs s.upd.trialS else secEpochs (num b 4 4)
  match stagedSlot s with
  | none => .no .stateConflict
  | some k =>
    if s.upd.act.isSome then .no .stateConflict
    else if num b 0 1 = 1 then .done (releaseLock (bootWrite s (activateWrites s k .trialNext t))) []
    else
      let a : Activation := { slot := k, step := 1, revert := false, failed := false, owner := some (q.who, q.tag), trialEpochs := t }
      .wait { s with upd := { s.upd with act := some a } } .activate

/-- UPDATE_ACTIVATE's traits. -/
def specUpdateActivate : Spec :=
  { Spec.fast 0x0805 8 (fun _ s q => updateActivateOk s q.payload) (sess 8) with cls := .long }

/-- UPDATE_ACTIVATE (R394, R400). -/
def runUpdateActivate (f : FuseBank) (s : Sys) (q : MbxReq) : Sys :=
  mbxRun specUpdateActivate bodyUpdateActivate f s q

/-- The TRIAL slot is confirmed: ACTIVE from now on, and the trial ends. -/
def confirmTrial (s : Sys) (k : Nat) : Sys :=
  let s := bootWrite s (slotTo s k .active)
  { s with upd := { s.upd with lastEnd := 1, trialEnd := none, trialStart := none } }

/-- The floor that a confirmation has to blow (R403): none where the bundle does not ask for it or the floor stands there already. -/
def floorRaise (f : FuseBank) (s : Sys) (k : Nat) : Option Nat :=
  let m := (getSlot s k).data
  if mRaise m ∧ popcount f.svnFloor < mSvn m then some (mSvn m) else none

/-- UPDATE_CONFIRM's effect where no fuse has to be blown. -/
def bodyUpdateConfirm (f : FuseBank) (s : Sys) (q : MbxReq) : Ans :=
  match slotIn s .trial with
  | none => .no .stateConflict
  | some k =>
    if num q.payload 0 1 = 1 then (if s.upd.act.any (·.revert) then .no .stateConflict else .done (healthFail s 2) [])
    else if (floorRaise f s k).isSome then .no .busy
    else .done (confirmTrial s k) []

/-- UPDATE_CONFIRM's checks. -/
def specUpdateConfirm : Spec := Spec.fast 0x0806 4 (fun _ _ q => decide (num q.payload 0 1 < 2) && rsv q.payload 1 3) (sess 8)

/-- The slot that a request confirms and the floor that it raises; none where nothing is to be blown or Wellhead is at work. -/
def confirmRaise (f : FuseBank) (s : Sys) (q : MbxReq) : Option (Nat × Nat) :=
  if preCheck specUpdateConfirm f s q = none ∧ num q.payload 0 1 = 0 ∧ s.svc.fuseOp = none then
    (slotIn s .trial).bind fun k => (floorRaise f s k).map fun v => (k, v)
  else none

/-- A confirmation that raises the floor: the trial ends, Wellhead begins, and the request waits for its response. -/
def raiseFloor (s : Sys) (q : MbxReq) (k v : Nat) : Sys :=
  let s := confirmTrial (touchSession s q.who q.token) k
  let s := match q.who with
    | .fn hp fn => modMbx s hp fn fun m => { m with held := true, accepted := false, rspReady := false }
    | .mctp _ => s
  let p : Pend := { who := q.who, tag := q.tag, opcode := 0x0806, ft := s.time.ft, wait := .svnFuse q, res := none, ctxId := none }
  { s with svc := { s.svc with fuseOp := some (.svn v), pend := s.svc.pend ++ [p] } }

/-- UPDATE_CONFIRM (R402, R403): with RAISE_FLOOR the response follows when Wellhead has blown the bits; while another fuse operation runs it
    receives BUSY. -/
def runUpdateConfirm (f : FuseBank) (s : Sys) (q : MbxReq) : Sys :=
  mbxGate s 0x0806 q fun s =>
    match confirmRaise f s q with
    | none => mbxServe specUpdateConfirm bodyUpdateConfirm f s q
    | some (k, v) => raiseFloor s q k v

/-- UPDATE_STATUS's answer (Table 16.8). -/
def updateStatusBytes (s : Sys) : Bytes :=
  let a := getSlot s 0
  let b := getSlot s 1
  let port := match s.upd.lock with | some l => (match l.holder with | .port p => some p | .req _ _ => none) | none => none
  le 1 a.st.code ++ le 1 b.st.code ++ le 1 (b2n s.upd.lock.isSome + 2 * b2n port.isSome) ++ le 1 (port.getD 0x7F) ++
    le 4 (match s.upd.lock with | some l => received s l | none => 0) ++
    le 8 (match s.upd.trialEnd with | some e => e - epoch s | none => 0) ++ fit 32 a.mdigest ++ fit 32 b.mdigest ++
    le 4 (mRelease a.data) ++ le 4 (mRelease b.data) ++ le 1 s.upd.lastEnd ++ zeros 7

/-- UPDATE_STATUS's effect. -/
def bodyUpdateStatus (_f : FuseBank) (s : Sys) (_q : MbxReq) : Ans := .done s (updateStatusBytes s)

/-- UPDATE_STATUS's traits. -/
def specUpdateStatus : Spec :=
  Spec.fast 0x0807 0 (fun _ _ _ => true) (sess 8)

/-- UPDATE_STATUS (Table 16.8). -/
def runUpdateStatus (f : FuseBank) (s : Sys) (q : MbxReq) : Sys :=
  mbxRun specUpdateStatus bodyUpdateStatus f s q

/-- TRIAL_WINDOW_EXPIRY (R402): the window ends without a confirmation. -/
def runTrialWindowExpiry (_f : FuseBank) (s : Sys) : Sys :=
  match s.upd.trialEnd with
  | some e => if e ≤ epoch s then healthFail s 3 else s
  | none => s

/-- STAGING_LOCK_IDLE (R393): the slot is still STAGING and its holder has sent nothing for the limit. -/
def runStagingLockIdle (_f : FuseBank) (s : Sys) : Sys :=
  match s.upd.lock with
  | some l => if (stageSlot s l).st = .staging ∧ l.lastEpoch + l.limit ≤ epoch s then abandon s else s
  | none => s

/-! ### Freshet (R396 to R399) -/

/-- A Freshet message to the neighbour on a port, while the port is UP. -/
def sendFreshet (s : Sys) (p user : Nat) (b : Bytes) : Sys := if (getNp s p).st = .up then sendMgmt s p user (myCoord s) b else s

/-- The slots whose bundle is whole, by digest. -/
def heldSlot (s : Sys) (dg : Bytes) : Option Nat :=
  (List.range 2).find? fun k => (getSlot s k).mdigest == dg && (match (getSlot s k).st with
    | .staged | .trialNext | .trial | .active | .backup => true
    | _ => false)

/-- The offset after everything pulled or asked for. -/
def pullNext (s : Sys) (l : Lock) : Nat :=
  let a := (s.upd.pulls.map fun e => e.1 + e.2.1).foldl max (received s l)
  (l.early.map fun e => e.1 + e.2.length).foldl max a

/-- A PULL's payload. -/
def pullBytes (dg : Bytes) (off n : Nat) : Bytes := fit 32 dg ++ le 4 off ++ le 4 n

/-- PULLs are sent, in ascending OFFSET, while fewer than 8 are outstanding and bytes are left to ask for. -/
def pullMore : Nat → Sys → Sys
  | 0, s => s
  | n + 1, s =>
    match s.upd.lock with
    | none => s
    | some l =>
      match l.holder with
      | .req _ _ => s
      | .port p =>
        let x := stageSlot s l
        let o := pullNext s l
        if l.verifying ∨ x.st ≠ .staging ∨ 8 ≤ s.upd.pulls.length ∨ x.blen ≤ o then s
        else
          let k := min 4032 (x.blen - o)
          pullMore n (sendFreshet { s with upd := { s.upd with pulls := s.upd.pulls ++ [(o, k, frame s)] } } p 0x12 (pullBytes x.mdigest o k))

/-- An OFFER of the bundle being staged, whose holder port is down (R398 item 3). -/
def resumes (s : Sys) (dg : Bytes) : Bool :=
  match s.upd.lock with
  | some l => (match l.holder with
    | .port p => (getNp s p).st != .up && (stageSlot s l).st == .staging && (stageSlot s l).mdigest == dg
    | .req _ _ => false)
  | none => false

/-- A slot in STAGING, STAGED, TRIAL or ACTIVE has the digest (R398 item 4). -/
def haves (s : Sys) (dg : Bytes) : Bool :=
  s.upd.slots.any fun x => x.mdigest == dg && (match x.st with | .staging | .staged | .trial | .active => true | _ => false)

/-- The device state takes an OFFER (R398 item 2). -/
def offerState (s : Sys) : Bool := match s.dev.st with | .ready | .degraded | .quiesced | .updateStaging => true | _ => false

/-- The reply code to an OFFER: the first of R398 that applies. -/
def offerCode (f : FuseBank) (s : Sys) (p : Nat) (dg : Bytes) (svn : Nat) : Nat :=
  if s.upd.frEn = false ∨ (freshetMask s).testBit p = false then 4
  else if offerState s = false ∨ onTrial s = true then 2
  else if resumes s dg then 0
  else if haves s dg then 1
  else if s.upd.rejected.contains dg then 5
  else if s.upd.lock.isSome then 2
  else if check7 f s svn false = false then 3
  else 0

/-- An OFFER is accepted: its port becomes the holder and pulling begins or resumes at RECEIVED. -/
def acceptOffer (s : Sys) (p : Nat) (dg : Bytes) (blen hops : Nat) : Sys :=
  let h := if hops = 0 then none else some hops
  let s := match s.upd.lock with
    | some l =>
      let s := modSlot s l.slot fun x => { x with hops := h }
      modLock { s with upd := { s.upd with pulls := [] } } fun l => { l with holder := .port p, lastEpoch := epoch s, early := [] }
    | none => openLock s (.port p) dg blen h
  pullMore 8 s

/-- The holder of the staging lock has sent something: its idle time starts anew (R393). -/
def heard (s : Sys) (p : Nat) : Sys :=
  modLock s fun l => if l.holder = .port p then { l with lastEpoch := epoch s } else l

/-- An OFFER taken on a port; one with a length that no bundle has is dropped (log entry 42). -/
def takeOffer (f : FuseBank) (s : Sys) (p : Nat) (b : Bytes) : Sys :=
  let dg := sub b 0 32
  let blen := num b 32 4
  if b.length ≠ 48 then s
  else
    let c := offerCode f s p dg (num b 36 8)
    let c := if c = 0 ∧ s.upd.lock = none ∧ bundleLenOk blen = false then 5 else c
    let s := sendFreshet s p 0x11 (dg ++ le 1 c ++ zeros 3)
    if c = 0 then acceptOffer s p dg blen (num b 44 1) else s

/-- FRESHET_OFFER_RECEIVE (R398): the oldest OFFER that waits is answered. -/
def runFreshetOfferReceive (f : FuseBank) (s : Sys) : Sys :=
  match takeMgmt s 0x10 0x10 with
  | none => s
  | some (p, k, s) => takeOffer f (heard s p) p k.payload

/-- A REPLY taken on a port: any but BUSY stops the offers of that bundle there (R399). -/
def takeReply (s : Sys) (p : Nat) (b : Bytes) : Sys :=
  let dg := sub b 0 32
  if b.length = 36 ∧ (heldSlot s dg).isSome ∧ num b 32 1 ≠ 2 ∧ s.upd.offerStop.contains (p, dg) = false then
    { s with upd := { s.upd with offerStop := s.upd.offerStop ++ [(p, dg)] } }
  else s

/-- FRESHET_REPLY_RECEIVE (R399). -/
def runFreshetReplyReceive (_f : FuseBank) (s : Sys) : Sys :=
  match takeMgmt s 0x11 0x11 with
  | none => s
  | some (p, k, s) => takeReply (heard s p) p k.payload

/-- A PULL taken on a port: one DATA from the own slot, and nothing for a digest that is not held (R399). -/
def takePull (s : Sys) (p : Nat) (b : Bytes) : Sys :=
  let dg := sub b 0 32
  let off := num b 32 4
  let n := num b 36 4
  match heldSlot s dg with
  | some k =>
    let m := (getSlot s k).data
    if b.length = 40 ∧ within 1 n 4032 = true ∧ off + n ≤ m.length then sendFreshet s p 0x13 (pullBytes dg off n ++ sub m off n) else s
  | none => s

/-- FRESHET_PULL_RECEIVE (R399). -/
def runFreshetPullReceive (_f : FuseBank) (s : Sys) : Sys :=
  match takeMgmt s 0x12 0x12 with
  | none => s
  | some (p, k, s) => takePull (heard s p) p k.payload

/-- Pulled data that follows RECEIVED joins it. -/
def joinEarly : Nat → Bytes → List (Nat × Bytes) → Bytes × List (Nat × Bytes)
  | 0, d, e => (d, e)
  | n + 1, d, e => match e.find? fun x => x.1 == d.length with
    | some x => joinEarly n (d ++ x.2) (e.erase x)
    | none => (d, e)

/-- A DATA taken on a port: it answers an outstanding PULL of the holder port; the last one starts verification (R399). -/
def takeData (s : Sys) (p : Nat) (b : Bytes) : Sys :=
  match s.upd.lock with
  | none => s
  | some l =>
    let off := num b 32 4
    let n := num b 36 4
    match (s.upd.pulls.find? fun e => e.1 == off && e.2.1 == n) with
    | none => s
    | some e =>
      if l.holder ≠ .port p ∨ (stageSlot s l).mdigest ≠ sub b 0 32 ∨ b.length ≠ 40 + n then s
      else
        let early := l.early ++ [(off, b.drop 40)]
        let (d, rest) := joinEarly early.length (stageSlot s l).data early
        let s := modSlot { s with upd := { s.upd with pulls := s.upd.pulls.erase e } } l.slot fun x => { x with data := d }
        let whole := decide ((stageSlot s l).blen ≤ d.length)
        pullMore 8 (modLock s fun l => { l with lastEpoch := epoch s, early := rest, verifying := whole })

/-- FRESHET_DATA_RECEIVE (R399). -/
def runFreshetDataReceive (_f : FuseBank) (s : Sys) : Sys :=
  match takeMgmt s 0x13 0x13 with
  | none => s
  | some (p, k, s) => takeData (heard s p) p k.payload

/-- FRESHET_PULL_RESEND (R399): the first PULL that has gone unanswered for 64 frames is sent again. -/
def runFreshetPullResend (_f : FuseBank) (s : Sys) : Sys :=
  match s.upd.lock with
  | none => s
  | some l =>
    match l.holder, (s.upd.pulls.find? fun e => decide (e.2.2 + 64 ≤ frame s)) with
    | .port p, some e =>
      let s := { s with upd := { s.upd with pulls := s.upd.pulls.map fun x => if x == e then (e.1, e.2.1, frame s) else x } }
      sendFreshet s p 0x12 (pullBytes (stageSlot s l).mdigest e.1 e.2.1)
    | _, _ => s

/-- HOPS with which a slot's bundle is offered; none: it is not offered (R399). -/
def offerHops (s : Sys) (x : Slot) : Option Nat :=
  match x.st with
  | .staged | .trial | .active => x.hops.map fun h => if h = 0 then s.upd.frDepth else h - 1
  | _ => none

/-- The OFFER of a slot on a port, unless a reply stopped it. -/
def offerSlot (s : Sys) (p k : Nat) : Sys :=
  let x := getSlot s k
  match offerHops s x with
  | some h =>
    if s.upd.offerStop.contains (p, x.mdigest) then s
    else sendFreshet s p 0x10 (fit 32 x.mdigest ++ le 4 x.blen ++ le 8 (mSvn x.data) ++ le 1 h ++ zeros 3)
  | none => s

/-- FRESHET_OFFER_SEND (R399): every 1,024 frames on each routable port of PORTMASK, with ENABLE and RELAY set (log entry 44). -/
def runFreshetOfferSend (_f : FuseBank) (s : Sys) (port : Nat) : Sys :=
  let due := match tget s.upd.offerAt port with | some t => decide (t + 1024 ≤ frame s) | none => true
  if s.upd.frRelay = true ∧ (freshetMask s).testBit port = true ∧ routable s port = true ∧ due = true then
    (List.range 2).foldl (fun s k => offerSlot s port k) { s with upd := { s.upd with offerAt := tset s.upd.offerAt port (frame s) } }
  else s

end Sys2Proof.Machine
end

