-- ==== Sys2Proof/Machine/Secure.lean ====
section
/-!
DEFINITION. Tarn and Wellhead (chapter 15): the event log's commands, session keys, the identity certificate, attestation, lifecycle
transitions, the ends of flash and fuse operations, MCTP control messages and the test access port.
-/
namespace Sys2Proof.Machine

/-- A command of family 0x0B that is an attestation command: every served state takes it (Table 3.17). -/
def specAttest (opcode n : Nat) (param : FuseBank → Sys → MbxReq → Bool) : Spec :=
  { Spec.fast opcode n param noSess with narrow := fun _ => true }

/-! ### The event log (R369 to R372) -/

/-- A record's bytes with the given CRC (Table 15.5). -/
def logBytes (r : LogRec) (crc : Nat) : Bytes :=
  le 4 r.seq ++ le 2 r.boot ++ le 1 (r.sev + 4 * b2n r.lost) ++ zeros 1 ++ le 2 r.code ++ le 2 r.src ++ le 4 crc ++ le 8 r.ft ++ le 8 r.data

/-- The 32 bytes of a record: its CRC covers the record with the CRC's bytes 0. -/
def logRecord (r : LogRec) : Bytes := logBytes r (crc32 (logBytes r 0))

/-- LOG_COMMIT (R369): the pending records are committed, in SEQ order. -/
def runLogCommit (_f : FuseBank) (s : Sys) : Sys := if early s then s else commitLog s fun _ => true

/-- LOG_READ's answer: the RAM ring and the flash log as one sequence (R372). -/
def logReadBytes (s : Sys) (from_ n : Nat) : Bytes :=
  let oldest := match s.log.recs with | r :: _ => r.seq | [] => s.log.nextSeq
  le 4 oldest ++ le 4 s.log.nextSeq ++ zeros 8 ++ ((s.log.recs.filter fun r => decide (from_ ≤ r.seq)).take n).flatMap logRecord

/-- LOG_READ's effect. -/
def bodyLogRead (_f : FuseBank) (s : Sys) (q : MbxReq) : Ans := .done s (logReadBytes s (num q.payload 0 4) (num q.payload 4 1))

/-- LOG_READ's traits. -/
def specLogRead : Spec :=
  Spec.fast 0x07E0 8 (fun _ _ q => within 1 (num q.payload 4 1) 127 && rsv q.payload 5 3) (sess 7)

/-- LOG_READ (R372). -/
def runLogRead (f : FuseBank) (s : Sys) (q : MbxReq) : Sys :=
  mbxRun specLogRead bodyLogRead f s q

/-- LOG_CLEAR's effect: the erasure begins. -/
def bodyLogClear (_f : FuseBank) (s : Sys) (_q : MbxReq) : Ans := .wait s (.flash .logClear)

/-- LOG_CLEAR's traits. -/
def specLogClear : Spec :=
  { Spec.fast 0x07E1 0 (fun _ _ _ => true) (sess 7) with cls := .slow }

/-- LOG_CLEAR (R372). -/
def runLogClear (f : FuseBank) (s : Sys) (q : MbxReq) : Sys :=
  mbxRun specLogClear bodyLogClear f s q

/-! ### Session keys (R375, R376) -/

/-- The key of the slot that a session is on. -/
def sessionKey (s : Sys) (x : Session) : Bytes := ((keySlot s x.slot).key).getD []

/-- The new key that KEY_SET carries: plain in BLANK, wrapped under the session's slot key otherwise (R376, R383). -/
def newKeyOf (s : Sys) (q : MbxReq) : Bytes :=
  let b := q.payload
  match sessionOf s q.who q.token with
  | some x => xorBytes (sub b 8 32) (kmac256 (sessionKey s x) (x.nonce ++ le 1 (num b 0 1) ++ le 1 (num b 1 1)) 32 "JA64-KEYWRAP")
  | none => sub b 8 32

/-- CTR and TAG are right, where there is a session to hold them against. -/
def keyTagOk (s : Sys) (q : MbxReq) : Bool :=
  let b := q.payload
  match sessionOf s q.who q.token with
  | some x => num b 1 1 == x.keySets + 1 && (keySlot s x.slot).key.isSome &&
      sub b 40 16 == kmac256 (sessionKey s x) (x.nonce ++ sub b 0 40) 16 "JA64-KEYSET"
  | none => true

/-- KEY_SET's parameters (R376). -/
def keySetOk (s : Sys) (q : MbxReq) : Bool :=
  let b := q.payload
  let m := num b 2 2
  decide (num b 0 1 < 16) && bits m 12 3 == 0 && rsv b 4 4 && keyTagOk s q && (m == 0 || (newKeyOf s q).any fun x => x != 0)

/-- Clearing slot 0 would leave no slot with family 0x0B. -/
def lastAdmin (s : Sys) (slot mask : Nat) : Bool :=
  mask == 0 && slot == 0 && (keySlot s 0).mask.testBit 11 && (List.range 15).all fun k => !(keySlot s (k + 1)).mask.testBit 11

/-- KEY_SET's rights (R376, R383). -/
def keySetPriv (f : FuseBank) (s : Sys) (q : MbxReq) : Option Status :=
  let slot := num q.payload 0 1
  let m := num q.payload 2 2
  match sess 11 f s q with
  | some e => some e
  | none =>
    let beyond := match sessionOf s q.who q.token with
      | some x => (m &&& (keySlot s x.slot).mask) != m || (slot == 0 && x.slot != 0)
      | none => false
    if beyond || lastAdmin s slot m then some .privilege else none

/-- KEY_SET's effect: the key store is being written. In FIELD_DEBUG it is not available (R383). -/
def bodyKeySet (f : FuseBank) (s : Sys) (q : MbxReq) : Ans :=
  if lifecycle f s = .fieldDebug then .no .stateConflict
  else
    let b := q.payload
    let m := num b 2 2
    let op : FlashOp := .key (num b 0 1) (if m = 0 then none else some (newKeyOf s q)) m
    let s : Sys := { s with sec := { s.sec with sessions := s.sec.sessions.map fun x =>
      if x.who == q.who && x.token == q.token then { x with keySets := x.keySets + 1 } else x } }
    .wait s (.flash op)

/-- KEY_SET's traits. -/
def specKeySet : Spec :=
  { Spec.fast 0x0B41 56 (fun _ s q => keySetOk s q) keySetPriv with cls := .slow }

/-- KEY_SET (R376). -/
def runKeySet (f : FuseBank) (s : Sys) (q : MbxReq) : Sys :=
  mbxRun specKeySet bodyKeySet f s q

/-! ### The identity certificate (R377) -/

/-- CERT_LEN: the length of a certificate that is whole. -/
def certLen (s : Sys) : Nat := if s.sec.cert.length = s.sec.certTotal then s.sec.certTotal else 0

/-- ID_CERT_READ's effect. -/
def bodyIdCertRead (_f : FuseBank) (s : Sys) (q : MbxReq) : Ans := .done s (sub s.sec.cert (num q.payload 0 4) (num q.payload 4 2))

/-- ID_CERT_READ's traits. -/
def specIdCertRead : Spec :=
  specAttest 0x0B32 8 fun _ s q =>
    within 1 (num q.payload 4 2) 4080 && rsv q.payload 6 2 && decide (num q.payload 0 4 + num q.payload 4 2 ≤ certLen s)

/-- ID_CERT_READ (R377). -/
def runIdCertRead (f : FuseBank) (s : Sys) (q : MbxReq) : Sys :=
  mbxRun specIdCertRead bodyIdCertRead f s q

/-- The parts of the certificate that are being written: total, offset and length. -/
def certParts (s : Sys) : List (Nat × Nat × Nat) :=
  s.svc.pend.filterMap fun p => match p.res, p.wait with
    | none, .flash (.cert off total d) => some (total, off, d.length)
    | _, _ => none

/-- How far parts, by offset and length, go on from an offset without a gap. -/
def partsEnd (off : Nat) (parts : List (Nat × Nat)) : Nat :=
  parts.foldl (fun o _ => match parts.find? fun e => e.1 == o with | some e => o + e.2 | none => o) off

/-- ID_CERT_WRITE's parameters: no gap, no overlap, no change of TOTAL. A part whose write failed leaves a gap that is to be written again. -/
def idCertOk (s : Sys) (b : Bytes) : Bool :=
  let off := num b 0 4
  let total := num b 4 4
  let parts := (certParts s).map (·.2) ++ s.sec.certTail.map fun e => (e.1, e.2.length)
  let done := partsEnd s.sec.cert.length parts
  let was := if s.sec.cert.isEmpty && s.sec.certTail.isEmpty then ((certParts s).map (·.1)).headD total else s.sec.certTotal
  within 1 total 65536 && off == done && total == was && decide (off + (b.length - 8) ≤ total) &&
    parts.all fun e => decide (e.1 + e.2 ≤ off ∨ off + (b.length - 8) ≤ e.1)

/-- ID_CERT_WRITE's effect. -/
def bodyIdCertWrite (f : FuseBank) (s : Sys) (q : MbxReq) : Ans :=
  if lifecycle f s ≠ .blank then .no .stateConflict
  else .wait s (.flash (.cert (num q.payload 0 4) (num q.payload 4 4) (q.payload.drop 8)))

/-- ID_CERT_WRITE's traits. -/
def specIdCertWrite : Spec :=
  { Spec.fast 0x0B40 0 (fun _ s q => idCertOk s q.payload) (sess 11) with cls := .slow, lenOk := fun n => within 9 n 4080 }

/-- ID_CERT_WRITE (R377, R383). -/
def runIdCertWrite (f : FuseBank) (s : Sys) (q : MbxReq) : Sys :=
  mbxRun specIdCertWrite bodyIdCertWrite f s q

/-! ### The ends of flash operations (R372, R375 to R377, R406) -/

/-- The key store written to the older copy, as the next generation (R375). -/
def storeKeys (kek : Bytes) (l : List KeyCopy) (keys : List KeySlot) : List KeyCopy :=
  let i := newerCopy l
  let g := (l.getD i { gen := 0, slots := [] }).gen + 1
  l.set (1 - i) { gen := g, slots := keys.mapIdx fun k x =>
    let enc := xorBytes (fit 32 (x.key.getD [])) (keyPad kek k g)
    { mask := x.mask, enc, tag := keyTag kek k g x.mask enc } }

/-- Parts that follow a stored beginning without a gap join it. -/
def joinParts (b : Bytes) (parts : List (Nat × Bytes)) : Bytes × List (Nat × Bytes) :=
  parts.foldl (fun a _ => match a.2.find? fun e => e.1 == a.1.length with
    | some e => (a.1 ++ e.2, a.2.erase e)
    | none => a) (b, parts)

/-- What a flash operation leaves when it has succeeded. -/
def FlashOp.apply (op : FlashOp) (s : Sys) : Sys :=
  match op with
  | .settings k fmt recs => modSlot s k fun x => x.save fmt recs
  | .logClear => logW { s with log := { s.log with recs := [], boot := 0, lostNext := false } } 0x0012 1 0xFFFF 0
  | .key k newKey m =>
    let s := modKey s k fun _ => { key := newKey, mask := m, fails := 0, until_ := 0 }
    let s : Sys := { s with sec := { s.sec with copies := (s.sec.kek.map fun e => storeKeys e s.sec.copies s.sec.keys).getD s.sec.copies, chals := s.sec.chals.filter fun c => c.slot != k } }
    logW s 0x000F 1 0xFFFF (k + 65536 * m)
  | .cert off total d =>
    let r := joinParts s.sec.cert (s.sec.certTail ++ [(off, d)])
    { s with sec := { s.sec with cert := r.1, certTail := r.2, certTotal := total } }

/-- The place of a flash operation in flash (Table 16.1). -/
def FlashOp.place (op : FlashOp) (s : Sys) : Nat :=
  match op with
  | .settings k _ _ => (FlashArea.settings k (getSlot s k).newA).base
  | .logClear => FlashArea.log.base
  | .key _ _ _ => (FlashArea.keyStore (newerCopy s.sec.copies == 0)).base
  | .cert off _ _ => FlashArea.identity.base + off

/-- FLASH_FAIL is logged with its area (Table 15.6). A settings area has none; its copy that was being written is lost, and the other stands
    (R405). -/
def FlashOp.failLog (op : FlashOp) (s : Sys) : Sys :=
  match op with
  | .settings k _ _ => modSlot s k Slot.spoil
  | .logClear => logW s 0x000B 2 0xFFFF 1
  | .key _ _ _ => logW s 0x000B 2 0xFFFF 2
  | .cert _ _ _ => logW s 0x000B 2 0xFFFF 3

/-- The oldest command that waits for the flash, with its operation. -/
def flashHead (s : Sys) : Option (Pend × FlashOp) :=
  s.svc.pend.findSome? fun p => match p.res, p.wait with
    | none, .flash op => some (p, op)
    | _, _ => none

/-- FLASH_OPERATION_COMPLETE (R406): on success the operation takes effect and the command ends OK; a failure leaves the store as it was. -/
def runFlashOperationComplete (_f : FuseBank) (s : Sys) (ok : Bool) : Sys :=
  match flashHead s with
  | none => s
  | some (p, op) => if ok then endPend (op.apply s) p .ok [] else endPend (fault (op.failLog s) 119 1 1 (op.place s) 11 0) p .internal []

/-! ### Attestation (R379, R380) -/

/-- The report before its signature (Table 15.11). -/
def attestBody (f : FuseBank) (s : Sys) (nonce : Bytes) : Bytes :=
  ascii "JATR" ++ le 1 1 ++ le 1 (lifecycle f s).code ++ le 1 f.order ++ le 1 stepping ++ le 8 f.uid ++ fit 32 nonce ++ le 8 s.time.ft ++
    le 2 (s.start.incarn % 4096) ++ le 1 s.dev.st.code ++ le 1 (popcount (fusesNow f s).dbgCnt) ++ le 8 (popcount f.svnFloor) ++ le 2 s.sec.meas.length ++ zeros 2 ++
    logDigest s.sec.meas ++ zeros 152 ++ s.sec.meas.flatMap Meas.bytes

/-- ATTEST_REQUEST's effect: everything is captured now. -/
def bodyAttestRequest (f : FuseBank) (s : Sys) (q : MbxReq) : Ans :=
  match lifecycle f s with
  | .provisioned | .field =>
    if s.sec.signing.isSome then .no .busy
    else if s.sec.ids.isNone then .no .stateConflict
    else .wait { s with sec := { s.sec with
      reports := s.sec.reports.filter fun r => !(r.who == q.who), signing := some (q.who, q.tag, attestBody f s q.payload) } } .attest
  | _ => .no .stateConflict

/-- ATTEST_REQUEST's traits. -/
def specAttestRequest : Spec :=
  { specAttest 0x0B30 32 (fun _ _ _ => true) with cls := .long }

/-- ATTEST_REQUEST (R379, R380). -/
def runAttestRequest (f : FuseBank) (s : Sys) (q : MbxReq) : Sys :=
  mbxRun specAttestRequest bodyAttestRequest f s q

/-- ATTEST_COMPLETE (R380): the report is signed and held for its requester. -/
def runAttestComplete (_f : FuseBank) (s : Sys) : Sys :=
  match s.sec.signing with
  | none => s
  | some (w, _, m) =>
    let r := m ++ fit 29792 (Config.slhSign (s.sec.ids.getD []) "JA64-ATTEST" m)
    let h := s.sec.nextHandle
    let s : Sys := { s with sec := { s.sec with
      signing := none, nextHandle := h % 65535 + 1, reports := s.sec.reports ++ [{ who := w, handle := h, data := r, lastEpoch := epoch s }] } }
    endWait s (fun w => w == .attest) .ok (le 4 r.length ++ le 2 h)

/-- The report that ATTEST_READ names. -/
def reportOf (s : Sys) (q : MbxReq) : Option Report := s.sec.reports.find? fun r => r.who == q.who && r.handle == num q.payload 0 2

/-- ATTEST_READ's effect. -/
def bodyAttestRead (_f : FuseBank) (s : Sys) (q : MbxReq) : Ans :=
  match reportOf s q with
  | none => .no .badParam
  | some r =>
    .done { s with sec := { s.sec with reports := s.sec.reports.map fun x => if x == r then { x with lastEpoch := epoch s } else x } }
      (sub r.data (num q.payload 4 4) (num q.payload 8 2))

/-- ATTEST_READ's traits. -/
def specAttestRead : Spec :=
  specAttest 0x0B31 12 fun _ s q =>
    rsv q.payload 2 2 && rsv q.payload 10 2 && within 1 (num q.payload 8 2) 4080 &&
      (match reportOf s q with | some r => decide (num q.payload 4 4 + num q.payload 8 2 ≤ r.data.length) | none => false)

/-- ATTEST_READ (R380). -/
def runAttestRead (f : FuseBank) (s : Sys) (q : MbxReq) : Sys :=
  mbxRun specAttestRead bodyAttestRead f s q

/-- ATTEST_REPORT_EXPIRY (R380): 1,024 epochs without a read. -/
def runAttestReportExpiry (_f : FuseBank) (s : Sys) (who : Requester) : Sys :=
  { s with sec := { s.sec with reports := s.sec.reports.filter fun r => !(r.who == who && decide (r.lastEpoch + 1024 ≤ epoch s)) } }

/-! ### Lifecycle (R381 to R384) -/

/-- LC_STATUS's answer (Table 15.8). -/
def lcStatusBytes (f : FuseBank) (s : Sys) : Bytes :=
  let shown := match lifecycle f s with | .blank | .retired => false | _ => true
  let slots := ((List.range 16).map fun k => if (keySlot s k).key.isSome then 2 ^ k else 0).sum
  le 1 (lifecycle f s).code ++ le 1 (popcount (fusesNow f s).dbgCnt) ++ le 2 slots ++ le 1 (b2n s.sec.busyLc) ++ zeros 3 ++ le 8 (popcount f.svnFloor) ++
    le 8 f.uid ++ le 4 (certLen s) ++ zeros 4 ++ (if shown then fit 64 (s.sec.idpk.getD []) else zeros 64)

/-- LC_STATUS's effect. -/
def bodyLcStatus (f : FuseBank) (s : Sys) (_q : MbxReq) : Ans := .done s (lcStatusBytes f s)

/-- LC_STATUS's traits. -/
def specLcStatus : Spec :=
  specAttest 0x0B01 0 fun _ _ _ => true

/-- LC_STATUS (Table 15.8). -/
def runLcStatus (f : FuseBank) (s : Sys) (q : MbxReq) : Sys := mbxRun specLcStatus bodyLcStatus f s q

/-- LC_TRANSITION's rights beyond the session (Table 15.12). -/
def lcPriv (f : FuseBank) (s : Sys) (q : MbxReq) : Option Status :=
  match sess 11 f s q with
  | some e => some e
  | none =>
    let slot := (sessionOf s q.who q.token).map (·.slot)
    match lifecycle f s, num q.payload 0 1 with
    | .provisioned, 2 => if slot = some 0 then none else some .privilege
    | .field, 3 => if slot.any (fun k => (keySlot s k).mask.testBit 15) then none else some .privilege
    | _, _ => none

/-- What stands against a transition (Table 15.12). -/
def lcRefusal (f : FuseBank) (s : Sys) (t : Nat) : Option Status :=
  match lifecycle f s, t with
  | .blank, 1 => if (keySlot s 0).key.isSome && (keySlot s 0).mask.testBit 11 && certLen s != 0 then none else some .stateConflict
  | .provisioned, 2 => none
  | .fieldDebug, 2 => none
  | .field, 3 => if popcount (fusesNow f s).dbgCnt < 64 then none else some .noResource
  | .retired, _ => some .stateConflict
  | _, 4 => none
  | _, _ => some .stateConflict

/-- BUSY_LC is set and attestation in progress is abandoned (R382 step 1). -/
def lcBegin (s : Sys) : Sys :=
  let s : Sys := { s with sec := { s.sec with busyLc := true, signing := none } }
  endWait s (fun w => w == .attest) .internal []

/-- Steps 4 of R382: the transition is logged and its reset is due. -/
def lcDone (s : Sys) (old t : Nat) : Sys :=
  logW { s with sec := { s.sec with lcTarget := some t } } 0x000E 3 0xFFFF (old + 256 * t)

/-- LC_TRANSITION's effect. From FIELD_DEBUG to FIELD no fuse is blown. -/
def bodyLcTransition (f : FuseBank) (s : Sys) (q : MbxReq) : Ans :=
  let t := num q.payload 0 1
  match lcRefusal f s t with
  | some e => .no (if e = .noResource ∧ s.svc.fuseOp.isSome then .busy else e)
  | none =>
    if s.svc.fuseOp.isSome then .no .busy
    else if lifecycle f s = .fieldDebug ∧ t = 2 then .done (lcDone (lcBegin s) 3 2) []
    else .wait { lcBegin s with svc := { (lcBegin s).svc with fuseOp := some (.lc t) } } (.lcFuse t)

/-- LC_TRANSITION's traits. -/
def specLcTransition : Spec :=
  { Spec.fast 0x0B50 4 (fun _ _ q => num q.payload 1 1 == num q.payload 0 1 ^^^ 0xA5 && rsv q.payload 2 2) lcPriv with cls := .slow }

/-- LC_TRANSITION (R382). -/
def runLcTransition (f : FuseBank) (s : Sys) (q : MbxReq) : Sys :=
  mbxRun specLcTransition
    bodyLcTransition f s q

/-- LC_RESET (R382 step 5): the chip reset of the transition. -/
def runLcReset (_f : FuseBank) (s : Sys) : Sys := if s.sec.lcTarget.isSome then chipReset s 5 0xFFFF else s

/-! ### Fuses (R373, R382, R403, R441) -/

/-- The first `n` bits of a thermometer field. -/
def thermo (w n : Nat) : BitVec w := BitVec.ofNat w (2 ^ n - 1)

/-- The fuse bits that an operation blows: LC, DBGCNT, SVN_FLOOR and UDS_LOCK. -/
def FuseOp.bits (op : FuseOp) (f : FuseBank) : BitVec 3 × BitVec 64 × BitVec 64 × BitVec 1 :=
  match op with
  | .lc 1 => (1, 0, 0, 0)
  | .lc 2 => (2, 0, 0, 0)
  | .lc 3 => (0, thermo 64 (popcount f.dbgCnt + 1), 0, 0)
  | .lc 4 => (4, 0, 0, 1)
  | .lc _ => (0, 0, 0, 0)
  | .svn v => (0, 0, thermo 64 v, 0)

/-- Fuse bits blown: fields only gain bits (R373). -/
def FuseBank.blow (f : FuseBank) (b : BitVec 3 × BitVec 64 × BitVec 64 × BitVec 1) : FuseBank :=
  { f with lc := f.lc ||| b.1, dbgCnt := f.dbgCnt ||| b.2.1, svnFloor := f.svnFloor ||| b.2.2.1, udsLock := f.udsLock ||| b.2.2.2 }

/-- Which of the bits stay blown after a failed read-back: the manual leaves it open, so a free value says (log entry 47). -/
def maskBits (b : BitVec 3 × BitVec 64 × BitVec 64 × BitVec 1) (v : BitVec 64) : BitVec 3 × BitVec 64 × BitVec 64 × BitVec 1 :=
  (b.1 &&& v.setWidth 3, b.2.1 &&& v, b.2.2.1 &&& v, b.2.2.2 &&& v.setWidth 1)

/-- The end of a transition's fuse step (R382 steps 2 to 4): in `f` the bits are blown. -/
def lcFuseEnd (f : FuseBank) (s : Sys) (t : Nat) (ok : Bool) : Sys :=
  if ok then
    let s := if t = 1 then { s with sec := { s.sec with idpk := some (sub (idSeeds f) 64 32 ++ fit 32 (Config.slhRoot (idSeeds f))) } }
             else if t = 3 then { s with sec := { s.sec with dbgLatch := true } } else s
    endWait (lcDone s (lifecycle f s).code t) (fun w => w == .lcFuse t) .ok []
  else
    let s := endWait { s with sec := { s.sec with busyLc := false } } (fun w => w == .lcFuse t) .internal []
    fault s 117 2 3 0 12 0

/-- A BACKUP slot below the new floor becomes INVALID (R403). -/
def floorSlots (f : FuseBank) (s : Sys) : Sys :=
  let low := fun (x : Slot) => if x.st == .backup && decide (mSvn x.data < popcount f.svnFloor) then { x with st := .invalid } else x
  bootWrite s { s with upd := { s.upd with slots := s.upd.slots.map low } }

/-- The commands that wait for the floor get their response (R403). -/
def svnFuseEnd (s : Sys) (st : Status) : Sys :=
  let ps := s.svc.pend.filterMap fun p => match p.wait with | .svnFuse q => some q | _ => none
  let s : Sys := { s with svc := { s.svc with pend := s.svc.pend.filter fun p => match p.wait with | .svnFuse _ => false | _ => true } }
  ps.foldl (fun s q => finishNow s q 0x0806 st none [] true) s

/-- A chip reset that waited for the fuse bit takes place (R441). -/
def releaseReset (s : Sys) : Sys :=
  match s.pins.deferred with
  | some c =>
    let s : Sys := { s with pins := { s.pins with deferred := none } }
    chipReset s c (if c = 4 then s.flt.fatalSrc else 0xFFFF)
  | none => s

/-- FUSE_PROGRAM_COMPLETE (R382, R403, R441): the only command by which fuse fields gain bits. Bits of a transition take effect at the next
    reset. Where a chip reset waits, it comes as soon as the bit in progress completes: which bits are blown by then is free (log entry 160),
    and nothing else of the operation is done. -/
def runFuseProgramComplete (f : FuseBank) (s : Sys) (ok : Bool) : FuseBank × Sys :=
  match s.svc.fuseOp with
  | none => (f, s)
  | some op =>
    let all := op.bits f
    let cut := s.pins.deferred.isSome
    let b := if ok && !cut then all else maskBits all (Config.word s.free)
    let g := f.blow b
    let s := if ok && !cut then s else draw s
    let s : Sys := { s with
      svc := { s.svc with fuseOp := none },
      sec := { s.sec with lcNew := s.sec.lcNew ||| (b.1 &&& ~~~ f.lc), dbgNew := s.sec.dbgNew ||| (b.2.1 &&& ~~~ f.dbgCnt),
                          udsNew := s.sec.udsNew ||| (b.2.2.2 &&& ~~~ f.udsLock) } }
    if cut then (g, releaseReset s)
    else
    let s := match op with
      | .lc t => lcFuseEnd g s t ok
      | .svn _ => if ok then svnFuseEnd (floorSlots g s) .ok else fault (svnFuseEnd (floorSlots g s) .internal) 117 2 3 0 12 0
    (g, releaseReset s)

/-! ### MCTP control messages (R364, R366) -/

/-- Tarn's address on I3C, static, and on SMBus (R363, Table 15.1). -/
def mgmtAddr (s : Sys) : Nat := 0x40 + s.pins.straps.tarnAddr % 8

/-- The control response to a request: type, the request's own identifier without its request bit, command, completion code, data. -/
def mctpReply (msg : Bytes) (code : Nat) (data : Bytes) : Bytes :=
  [0x00] ++ le 1 (num msg 1 1 % 128) ++ le 1 (num msg 2 1) ++ le 1 code ++ data

/-- The answer to a control request on a bus: the state after it and the response (DSP0236, log entry 46). -/
def mctpAnswer (s : Sys) (bus : Nat) (msg : Bytes) : Sys × Bytes :=
  let own := (tget s.svc.eids bus).getD 0
  let arg := num msg 3 1
  match num msg 2 1 with
  | 1 =>
    let e := num msg 4 1
    if arg % 4 < 2 ∧ 8 ≤ e ∧ e < 255 ∧ msg.length = 5 then
      ({ s with svc := { s.svc with eids := tset s.svc.eids bus e } }, mctpReply msg 0 [0x00, BitVec.ofNat 8 e, 0x00])
    else (s, mctpReply msg 2 [])
  | 2 => (s, mctpReply msg 0 (le 1 own ++ [0x00, 0x00]))
  | 4 => (draw s, if arg = 0xFF ∨ arg = 0 then mctpReply msg 0 ([0x01] ++ le 4 (Config.word s.free).toNat) else mctpReply msg 0x80 [])
  | 5 => (s, mctpReply msg 0 [0x01, 0x7F])
  | 6 => (s, if arg = 0 then mctpReply msg 0 [0xFF, 0x01, 0x00, 0xF4, 0x2A, 0x91, 0x00, 0x00] else mctpReply msg 2 [])
  | _ => (s, mctpReply msg 5 [])

/-- MCTP_CONTROL_MESSAGE (R364, R366): on the null endpoint, or on the one assigned. A message of another type than control and Korfel is
    answered with ERROR_UNSUPPORTED_CMD, and one that is no request is discarded. In standby nothing but Tarn runs, and it answers too. Over PCIe
    nothing comes while HP0's link is down (R94); an endpoint is where its last control message came from (log entry 134). -/
def runMctpControlMessage (_f : FuseBank) (s : Sys) (bus src eid : Nat) (msg : Bytes) : Sys :=
  let t := heardOver s src bus
  if (bus = 2 ∧ (getHp s 0).a.up = false) ∨ (eid ≠ 0 ∧ tget s.svc.eids bus ≠ some eid) ∨ (num msg 1 1).testBit 7 = false ∨ msg.length < 3 ∨
     num msg 0 1 = 0x7F then s
  else if num msg 0 1 ≠ 0 then mctpOut t src (mctpReply msg 5 [])
  else
    let (t, b) := mctpAnswer t bus msg
    mctpOut t src b

/-! ### The test access port (R386) -/

/-- The test instructions of Table 15.13, numbered by the model: 0 IDCODE, 1 BYPASS, 2 SAMPLE/PRELOAD, 3 EXTEST, 4 those of 1149.6, 5 debug,
    memory and register access (log entry 45). -/
def jtagOk (l : Lifecycle) (i : Nat) : Bool :=
  decide (i < 3) ||
    (decide (i < 5) && (match l with | .field => false | _ => true)) ||
    (i == 5 && (match l with | .blank | .fieldDebug | .retired => true | _ => false))

/-- JTAG_INSTRUCTION (R386): an instruction that is not admitted selects BYPASS. -/
def runJtagInstruction (f : FuseBank) (s : Sys) (instr : Nat) : Sys :=
  { s with sec := { s.sec with jtag := if jtagOk (lifecycle f s) instr then instr else 1 } }

end Sys2Proof.Machine
end

