-- ==== Sys2Proof/Machine/Fault.lean ====
section
/-!
DEFINITION. Faults, counters, tracing and self-test (chapter 17): the fault collector's commands and timers, counter selection, reads and dumps,
the trace ring, and BIST.
-/
namespace Sys2Proof.Machine

/-! ### Handling, decay and automatic reset (R409, R410, R414) -/

/-- FAULT_HANDLING_END (R409): that of a FATAL event lasts until the next chip reset. -/
def runFaultHandlingEnd (_f : FuseBank) (s : Sys) (src : Nat) : Sys :=
  modSrc s src fun x => if x.cls = 3 then x else { x with handling := false }

/-- FAULT_FLOOR_DECAY (R410): the source's step of the epoch tick. -/
def runFaultFloorDecay (_f : FuseBank) (s : Sys) (src : Nat) : Sys :=
  modSrc s src fun x => if 1 < x.floor ∧ x.w ≤ epoch s - x.last then { x with floor := x.floor - 1, last := epoch s } else x

/-- FAULT_AUTORESET (R414): AUTORESET epochs after a FATAL fault; 0 is never. -/
def runFaultAutoreset (_f : FuseBank) (s : Sys) : Sys :=
  match s.flt.fatalAt with
  | some e => if s.flt.autoreset ≠ 0 ∧ e + s.flt.autoreset ≤ epoch s then chipReset s 4 s.flt.fatalSrc else s
  | none => s

/-! ### Reading and clearing (R415, R418) -/

/-- The 40 bytes of a capture (Table 17.4); none reads 0. -/
def capBytes (c : Option Capture) : Bytes :=
  match c with
  | none => zeros 40
  | some c => le 8 c.ft ++ le 8 c.addr ++ le 1 (c.src % 128 + 128) ++ le 1 c.cls ++ le 1 c.cause ++ le 1 c.access ++ le 1 c.master ++ le 1 c.inst ++
      zeros 2 ++ le 8 c.detail ++ le 4 c.later ++ zeros 4

/-- A source that a FAULT_READ shows as zero: 122 to 127, and those of fused-off ports (R2, R407). -/
def deadSrc (f : FuseBank) (k : Nat) : Bool := decide (122 ≤ k) || (decide (k < 64) && fusedOff f k)

/-- The record of a source (R418). -/
def srcBytes (f : FuseBank) (s : Sys) (k : Nat) : Bytes :=
  let x := getSrc s k
  if deadSrc f k then zeros 48
  else capBytes x.cap ++ le 1 (x.cls + 4 * x.floor + 16 * b2n x.handling + 32 * b2n x.lost) ++ zeros 1 ++ le 2 x.wcount ++ le 4 x.events

/-- The LOST bits as a number. -/
def lostBits (s : Sys) : Nat := (s.flt.srcs.mapIdx fun i x => if x.lost then 2 ^ i else 0).sum

/-- FAULT_READ's effect. -/
def bodyFaultRead (f : FuseBank) (s : Sys) (q : MbxReq) : Ans :=
  .done s (le 16 (fsw s) ++ le 16 (lostBits s) ++ ((List.range (num q.payload 1 1)).flatMap fun k => srcBytes f s (num q.payload 0 1 + k)))

/-- FAULT_READ's traits. -/
def specFaultRead : Spec :=
  Spec.fast 0x0701 4 (fun _ _ q =>
    within 1 (num q.payload 1 1) 64 && decide (num q.payload 0 1 + num q.payload 1 1 ≤ 128) && rsv q.payload 2 2) (sess 7)

/-- FAULT_READ (R418). -/
def runFaultRead (f : FuseBank) (s : Sys) (q : MbxReq) : Sys :=
  mbxRun specFaultRead bodyFaultRead f s q

/-- The sources of a mask. -/
def maskSrcs (m : Nat) : List Nat := (List.range 128).filter m.testBit

/-- FAULT_CLEAR's effect: all or nothing (R415). -/
def bodyFaultClear (_f : FuseBank) (s : Sys) (q : MbxReq) : Ans :=
  let ks := maskSrcs (num q.payload 0 16)
  if ks.any fun k => (getSrc s k).cls == 3 then .no .stateConflict
  else if ks.any fun k => (getSrc s k).handling then .no .busy
  else
    let s := ks.foldl (fun s k => modSrc s k fun x => { x with cls := 0, lost := false, cap := none }) s
    let s : Sys := if fswZero s then { s with flt := { s.flt with dcap := none } } else s
    .done (regrade s) []

/-- FAULT_CLEAR's traits. -/
def specFaultClear : Spec :=
  Spec.fast 0x0702 16 (fun f _ q => (maskSrcs (num q.payload 0 16)).all fun k => !deadSrc f k) (sess 7)

/-- FAULT_CLEAR (R415). -/
def runFaultClear (f : FuseBank) (s : Sys) (q : MbxReq) : Sys :=
  mbxRun specFaultClear bodyFaultClear f s q

/-- FAULT_CONFIG's parameters (R413). -/
def faultConfigOk (f : FuseBank) (b : Bytes) : Bool :=
  let n := num b 1 1
  decide (n ≤ 128) && decide (num b 0 1 + n ≤ 128) && decide (num b 2 1 < 2) && rsv b 3 1 && rsv b 6 2 &&
    (List.range n).all fun i => within 1 (num b (9 + 4 * i) 1) 3 && num b (10 + 4 * i) 2 != 0 && !deadSrc f (num b 0 1 + i)

/-- FAULT_CONFIG's effect. -/
def bodyFaultConfig (_f : FuseBank) (s : Sys) (q : MbxReq) : Ans :=
  let b := q.payload
  let s := (List.range (num b 1 1)).foldl (fun s i => modSrc s (num b 0 1 + i) fun x =>
    { x with n := num b (8 + 4 * i) 1, ceil := num b (9 + 4 * i) 1, w := num b (10 + 4 * i) 2 }) s
  .done (if (num b 2 1).testBit 0 then { s with flt := { s.flt with autoreset := num b 4 2 } } else s) []

/-- FAULT_CONFIG's traits. -/
def specFaultConfig (q : MbxReq) : Spec :=
  { Spec.fast 0x0703 0 (fun f _ q => faultConfigOk f q.payload) (sess 7) with
    lenOk := fun n => decide (8 ≤ n) && n == 8 + 4 * num q.payload 1 1 }

/-- FAULT_CONFIG (R413). -/
def runFaultConfig (f : FuseBank) (s : Sys) (q : MbxReq) : Sys :=
  mbxRun (specFaultConfig q) bodyFaultConfig f s q

/-- FAULT_NOTIFY's effect: one mask for each requester (R416). -/
def bodyFaultNotify (_f : FuseBank) (s : Sys) (q : MbxReq) : Ans :=
  let m := num q.payload 0 16
  match q.who with
  | .fn hp fn => .done (modFn s hp fn fun g => { g with notifyMask := m, notifyVec := num q.payload 16 2 }) []
  | .mctp e => .done { s with flt := { s.flt with notify := if m = 0 then tdel s.flt.notify e else tset s.flt.notify e m } } []

/-- FAULT_NOTIFY's traits. -/
def specFaultNotify : Spec :=
  Spec.fast 0x0704 20 (fun _ _ q => rsv q.payload 18 2) (sess 7)

/-- FAULT_NOTIFY (R416). -/
def runFaultNotify (f : FuseBank) (s : Sys) (q : MbxReq) : Sys :=
  mbxRun specFaultNotify bodyFaultNotify f s q

/-- The intrinsic class of a cause of a source; none where Table 17.2 does not list it. -/
def causeClass (src cause : Nat) : Option Nat :=
  if src < 64 then (if (within 1 cause 0x0B && cause != 7) || cause == 0x20 || cause == 0x21 then some 1 else none)
  else if src < 68 then (if within 1 cause 5 then some 1 else none)
  else if src < 95 then (if cause = 0xF0 then some 3 else none)
  else if src < 96 then (match cause with | 1 => some 1 | 2 => some 1 | 3 => some 2 | 4 => some 3 | _ => none)
  else if src < 112 then (if within 1 cause 7 || cause == 0x10 then some 1 else none)
  else match src, cause with
  | 112, 1 => some 2 | 112, 2 => some 2
  | 113, 1 => some 2 | 113, 2 => some 3
  | 114, 1 => some 2 | 114, 2 => some 1 | 114, 3 => some 2 | 114, 4 => some 3
  | 115, 1 => some 2 | 115, 2 => some 2 | 115, 3 => some 3 | 115, 4 => some 1
  | 116, 1 => some 1
  | 117, 1 => some 3 | 117, 2 => some 3 | 117, 3 => some 2
  | 118, 1 => some 3
  | 119, 1 => some 1
  | 120, 1 => some 1
  | 121, 1 => some 2
  | _, _ => none

/-- FAULT_INJECT's effect: an event without a hardware action (R419). -/
def bodyFaultInject (_f : FuseBank) (s : Sys) (q : MbxReq) : Ans :=
  let src := num q.payload 0 1
  let cause := num q.payload 1 1
  .done (fault s src cause ((causeClass src cause).getD 1) (num q.payload 8 8) 15 0) []

/-- FAULT_INJECT's traits. -/
def specFaultInject : Spec :=
  Spec.fast 0x0920 16 (fun f _ q =>
    rsv q.payload 2 6 && (causeClass (num q.payload 0 1) (num q.payload 1 1)).isSome && !deadSrc f (num q.payload 0 1)) (sess 9)

/-- FAULT_INJECT (R419). -/
def runFaultInject (f : FuseBank) (s : Sys) (q : MbxReq) : Sys :=
  mbxRun specFaultInject bodyFaultInject f s q

/-! ### Counters (R420 to R424) -/

/-- An event that the tables assign to a block (Tables 9.9, 10.14, 11.15, 12.9, 17.9). -/
def eventOk (b ev : Nat) : Bool :=
  let drop := within 0x10 ev 0x19
  if b < 64 then within 1 ev 0x0A || drop || within 0x20 ev 0x27 || within 0x30 ev 0x41 || within 0x80 ev 0x83
  else if b < 68 then within 1 ev 4 || drop || within 0x40 ev 0x41 || within 0x80 ev 0x82
  else if b < 84 then within 1 ev 4 || ev == 0x80
  else if b = 84 then within 1 ev 3 || ev == 0x80
  else if b = 85 then within 1 ev 4
  else if b = 86 then within 1 ev 6 || within 0x80 ev 0x81
  else if b = 87 then within 1 ev 7
  else b == 88 && (within 1 ev 4 || ev == 0x80)

/-- A block that a command may name: not that of a fused-off port (R2). -/
def blockOk (f : FuseBank) (b : Nat) : Bool := decide (b < 89) && !(decide (b < 64) && fusedOff f b)

/-- CNT_CONFIG's parameters (R421, R422). -/
def cntConfigOk (f : FuseBank) (b : Bytes) : Bool :=
  blockOk f (num b 0 1) && decide (num b 1 1 < 32) && eventOk (num b 0 1) (num b 2 1) && rsv b 3 1 && rsv b 8 8 &&
    (num b 4 2 == 0 || decide (0x80 ≤ num b 2 1))

/-- CNT_CONFIG's effect: the selection waits for the next frame tick. -/
def bodyCntConfig (_f : FuseBank) (s : Sys) (q : MbxReq) : Ans :=
  let b := q.payload
  let fl := num b 1 1
  .done (modBlk s (num b 0 1) fun k => { k with ctrs := k.ctrs.modify (fl % 8) fun c =>
    { c with pend := some (num b 2 1, num b 4 2, num b 6 2, fl.testBit 3, fl.testBit 4 || (match c.pend with | some p => p.2.2.2.2 | none => false)) } }) []

/-- CNT_CONFIG's traits. -/
def specCntConfig : Spec :=
  Spec.fast 0x0601 16 (fun f _ q => cntConfigOk f q.payload) (sess 6)

/-- CNT_CONFIG (R422). -/
def runCntConfig (f : FuseBank) (s : Sys) (q : MbxReq) : Sys :=
  mbxRun specCntConfig bodyCntConfig f s q

/-- The 0xD1 record of a block (Table 17.11), with PHASE 0. -/
def recD1 (s : Sys) (b : Nat) : Bytes :=
  let k := getBlk s b
  let flag := fun (g : Ctr → Bool) => (k.ctrs.mapIdx fun i c => if g c then 2 ^ i else 0).sum
  le 1 0xD1 ++ zeros 1 ++ le 2 b ++ le 1 (flag fun c => c.ovf) ++ le 1 (flag fun c => c.en) ++ zeros 2 ++ le 8 k.cyc ++
    k.ctrs.flatMap fun c => le 6 c.val

/-- The 0xD2 record of a network port. -/
def recD2 (s : Sys) (b : Nat) : Bytes :=
  let k := getBlk s b
  le 1 0xD2 ++ zeros 1 ++ le 2 b ++ zeros 4 ++ le 8 k.winFt ++ le 6 k.txWin ++ le 6 k.rxWin ++ le 2 s.cnt.bwFrames ++ zeros 34

/-- The 0xD3 record of a function. -/
def recD3 (s : Sys) (hp fn : Nat) : Bytes :=
  le 1 0xD3 ++ zeros 1 ++ le 2 (hp * 64 + fn) ++ zeros 12 ++ (getFn s hp fn).ctrs.flatMap fun v => le 6 v

/-- The 0xD4 record of the overrun counters. -/
def recD4 (s : Sys) : Bytes := le 1 0xD4 ++ zeros 1 ++ le 2 88 ++ zeros 12 ++ (s.time.ovrCnt.take 8).flatMap fun v => le 6 v

/-- The records of a block. -/
def blockRecs (s : Sys) (b : Nat) : List Bytes :=
  recD1 s b :: (if b < 64 then [recD2 s b] else if b = 88 then [recD4 s] else [])

/-- CNT_READ's effect. -/
def bodyCntRead (_f : FuseBank) (s : Sys) (q : MbxReq) : Ans :=
  .done s (((List.range (num q.payload 1 1)).flatMap fun i => blockRecs s (num q.payload 0 1 + i)).flatten)

/-- CNT_READ's traits. -/
def specCntRead : Spec :=
  { Spec.fast 0x0602 4 (fun f _ q =>
    within 1 (num q.payload 1 1) 31 && rsv q.payload 2 2 &&
      (List.range (num q.payload 1 1)).all fun i => blockOk f (num q.payload 0 1 + i)) (sess 6) with
    narrow := fun _ => true }

/-- CNT_READ (Table 17.7). -/
def runCntRead (f : FuseBank) (s : Sys) (q : MbxReq) : Sys :=
  mbxRun specCntRead bodyCntRead f s q

/-- CNT_GRANT's effect: what is revoked is selected no more. -/
def bodyCntGrant (_f : FuseBank) (s : Sys) (q : MbxReq) : Ans :=
  let m := num q.payload 8 16
  .done (modFn s (num q.payload 1 1) (num q.payload 0 1) fun g => { g with grants := m, dump := { g.dump with sel := g.dump.sel &&& m } }) []

/-- CNT_GRANT's traits. -/
def specCntGrant : Spec :=
  { Spec.fast 0x0603 24 (fun f _ q =>
    decide (num q.payload 0 1 < 64) && decide (num q.payload 1 1 < 4) && rsv q.payload 2 6 &&
      (maskSrcs (num q.payload 8 16)).all (blockOk f)) (sess 6) with
    named := fun _ b => some (namedFn (num b 1 1) (num b 0 1)) }

/-- CNT_GRANT (R422). -/
def runCntGrant (f : FuseBank) (s : Sys) (q : MbxReq) : Sys :=
  mbxRun specCntGrant bodyCntGrant f s q

/-- CNT_BW's effect. -/
def bodyCntBw (_f : FuseBank) (s : Sys) (q : MbxReq) : Ans := .done { s with cnt := { s.cnt with bwFrames := num q.payload 0 2 } } []

/-- CNT_BW's traits. -/
def specCntBw : Spec :=
  Spec.fast 0x0604 4 (fun _ _ q => num q.payload 0 2 != 0 && rsv q.payload 2 2) (sess 6)

/-- CNT_BW (R423). -/
def runCntBw (f : FuseBank) (s : Sys) (q : MbxReq) : Sys :=
  mbxRun specCntBw bodyCntBw f s q

/-- BANDWIDTH_WINDOW_END (R423): at a frame tick that is a multiple of BW_FRAMES, once. -/
def runBandwidthWindowEnd (_f : FuseBank) (s : Sys) (port : Nat) : Sys :=
  let ft := frame s * 1024
  let k := getBlk s port
  if frame s % s.cnt.bwFrames = 0 ∧ k.winFt ≠ ft then
    modBlk s port fun k => { k with txWin := k.txRun, rxWin := k.rxRun, txRun := 0, rxRun := 0, winFt := ft }
  else s

/-- FN_CNT_READ's effect. -/
def bodyFnCntRead (_f : FuseBank) (s : Sys) (q : MbxReq) : Ans :=
  match q.who with
  | .fn hp fn => .done s (recD3 s hp fn)
  | .mctp _ => .no .badParam

/-- FN_CNT_READ's traits. -/
def specFnCntRead : Spec :=
  { Spec.fast 0x0605 0 (fun _ _ q => match q.who with | .fn _ _ => true | .mctp _ => false) noSess with narrow := fun _ => true }

/-- FN_CNT_READ (R424). An endpoint has no function (log entry 48). -/
def runFnCntRead (f : FuseBank) (s : Sys) (q : MbxReq) : Sys :=
  mbxRun specFnCntRead bodyFnCntRead f s q

/-! ### Dumps and trace (R425 to R429) -/

/-- The entries of a ring of SIZE (Table 17.10). -/
def ringEntries (size : Nat) : Nat := 2 ^ (size + 6)

/-- Free entries of a ring (R426). -/
def ringFree (size head tail : Nat) : Nat :=
  let n := ringEntries size
  n - 1 - (tail % n + n - head % n) % n

/-- The records of a dump after its header. -/
def dumpRecs (s : Sys) (hp fn : Nat) : List Bytes :=
  let d := (getFn s hp fn).dump
  ((List.range 89).filter fun b => d.sel.testBit b).flatMap (blockRecs s) ++ (if d.own then [recD3 s hp fn] else [])

/-- The 0xD0 header. -/
def recD0 (s : Sys) (n dseq missed : Nat) : Bytes :=
  le 1 0xD0 ++ le 1 (if missed = 0 then 0 else 2) ++ le 2 n ++ zeros 4 ++ le 8 (epoch s * 2097152) ++ le 4 dseq ++ le 4 missed ++ zeros 40

/-- A record with its PHASE. -/
def withPhase (r : Bytes) (ph : Bool) : Bytes := r.take 1 ++ le 1 (num r 1 1 + b2n ph) ++ r.drop 2

/-- One record written to a function's dump ring. -/
def dumpWrite (hp fn : Nat) (s : Sys) (r : Bytes) : Sys :=
  let d := (getFn s hp fn).dump
  let n := ringEntries d.size
  let s := hostWrite s hp fn (d.base + 64 * (d.tail % n)) (withPhase r d.phase) false none
  modFn s hp fn fun g => { g with dump := { g.dump with tail := (d.tail + 1) % n, phase := if d.tail + 1 = n then !d.phase else d.phase } }

/-- The counters are snapshot at an epoch tick for each function whose PERIOD the epoch number is a multiple of (R426); a dump that is
    still not written is missed. -/
def dumpSnap (s : Sys) : Sys :=
  { s with fns := tmap s.fns fun k g =>
      let d := g.dump
      let late := { d with snap := none, missed := d.missed + b2n d.snap.isSome }
      { g with dump := if d.en && epoch s % max 1 d.period == 0 then { late with snap := some (dumpRecs s (k / 64) (k % 64)) } else late } }

/-- COUNTER_DUMP (R426): what the epoch tick has taken is written; a dump that does not fit is skipped and counted. -/
def runCounterDump (_f : FuseBank) (s : Sys) (hp fn : Nat) : Sys :=
  let d := (getFn s hp fn).dump
  let s := modFn s hp fn fun g => { g with dump := { g.dump with snap := none } }
  match d.snap with
  | none => s
  | some rs =>
    if d.en = false then s
    else if rs.length + 1 ≤ ringFree d.size d.head d.tail then
      let s := (recD0 s rs.length d.dseq d.missed :: rs).foldl (dumpWrite hp fn) s
      modFn s hp fn fun g => { g with dump := { g.dump with dseq := (d.dseq + 1) % 2 ^ 32, missed := 0 } }
    else modFn s hp fn fun g => { g with dump := { g.dump with missed := d.missed + 1 } }

/-- A trace record (Table 17.13) with the given PHASE and LOST. -/
def traceBytes (s : Sys) (e : Nat × Nat × Nat × Nat × Nat × Packet) (ph lost : Bool) : Bytes :=
  let (stage, port, vc, det, st, p) := e
  le 1 0xD5 ++ le 1 (b2n ph + 2 * b2n lost) ++ le 1 stage ++ le 1 port ++ le 1 (vc % 16) ++ le 1 (det % 256) ++ zeros 2 ++ le 8 st ++ le 4 (myCoord s) ++
    le 4 (p.len % 128 + p.kind % 8 * 2 ^ 8 + b2n p.retx * 2 ^ 11) ++ sub p.head60 4 20 ++ le 4 (det / 256) ++ zeros 16

/-- One queued record goes to the trace ring, or is dropped (R429). -/
def traceWrite (s : Sys) (e : Nat × Nat × Nat × Nat × Nat × Packet) : Sys :=
  let c := s.cnt
  let n := ringEntries c.trSize
  if (linkOf s c.trHp 0).inReset ∨ (linkOf s c.trHp 0).up = false ∨ ringFree c.trSize c.trHead c.trTail = 0 then
    { s with cnt := { s.cnt with trLost := true } }
  else
    let s := hostWrite s c.trHp 0 (c.trBase + 64 * (c.trTail % n)) (traceBytes s e c.trPhase c.trLost) false none
    { s with cnt := { s.cnt with trTail := (c.trTail + 1) % n, trPhase := if c.trTail + 1 = n then !c.trPhase else c.trPhase, trLost := false } }

/-- The trace queue drains to its ring. -/
def traceFlush (s : Sys) : Sys := s.cnt.trQ.foldl traceWrite { s with cnt := { s.cnt with trQ := [] } }

/-- TRACE_CONFIG's parameters (Table 17.13): not from a virtual function, and an endpoint has no ring. -/
def traceConfigOk (q : MbxReq) : Bool :=
  let b := q.payload
  (match q.who with | .fn _ fn => fn == 0 | .mctp _ => false) && decide (num b 0 1 < 4) && decide (num b 1 1 < 32) && decide (num b 3 1 ≤ 10) && rsv b 4 4 &&
    num b 8 8 % 4096 == 0

/-- TRACE_CONFIG's effect: ENABLE starts a new ring (log entry 49); without it recording stops and queued records are still written. -/
def bodyTraceConfig (_f : FuseBank) (s : Sys) (q : MbxReq) : Ans :=
  let b := q.payload
  let fl := num b 0 1
  let hp := match q.who with | .fn hp _ => hp | .mctp _ => 0
  let c : Cnt := { s.cnt with trEn := fl.testBit 0, trTag := fl.testBit 1, trK := num b 1 1, trStages := num b 2 1 }
  if fl.testBit 0 then
    let s := traceFlush s
    .done { s with cnt := { c with trQ := [], trSize := num b 3 1, trBase := num b 8 8, trHp := hp, trHead := 0, trTail := 0, trPhase := true, trLost := false } } []
  else .done { s with cnt := c } []

/-- TRACE_CONFIG's traits. -/
def specTraceConfig : Spec :=
  Spec.fast 0x0606 16 (fun _ _ q => traceConfigOk q) (sess 6)

/-- TRACE_CONFIG (R427 to R429). -/
def runTraceConfig (f : FuseBank) (s : Sys) (q : MbxReq) : Sys :=
  mbxRun specTraceConfig bodyTraceConfig f s q

/-! ### Self-test (R430 to R432) -/

/-- The port groups of Table 17.14: the first port of a group. -/
def groupPorts (g : Nat) : List Nat :=
  match g with
  | 0 => List.range 16
  | 2 => (List.range 16).map (· + 16)
  | 6 => (List.range 16).map (· + 32)
  | 8 => (List.range 16).map (· + 48)
  | _ => []

/-- The memory test's time of a group in ms. -/
def groupMs (g : Nat) : Nat := match g with | 3 => 80 | 7 => 80 | 4 => 20 | _ => 40

/-- The groups of a mask, ascending. -/
def bistGroups (m : Nat) : List Nat := (List.range 9).filter m.testBit

/-- A port is DISABLED. -/
def portOff (s : Sys) (p : Nat) : Bool := (getNp s p).st == .disabled

/-- BIST_RUN's effect: the tests begin. -/
def bodyBistRun (_f : FuseBank) (s : Sys) (q : MbxReq) : Ans :=
  let gs := bistGroups (num q.payload 2 2)
  if (gs.any fun g => (groupPorts g).any fun p => !portOff s p) ||
     (gs.any (fun g => [1, 3, 4, 5, 7].contains g) && ((List.range 64).any (fun p => !portOff s p) || !s.ctxs.isEmpty)) then .no .stateConflict
  else if waiting s (fun w => match w with | .bist _ _ _ _ => true | _ => false) then .no .busy
  else .wait s (.bist gs ((num q.payload 0 1).testBit 0) ((num q.payload 0 1).testBit 1) [])

/-- BIST_RUN's traits. -/
def specBistRun : Spec :=
  { Spec.fast 0x0901 8 (fun f _ q =>
    within 1 (num q.payload 0 1) 3 && rsv q.payload 1 1 && within 1 (num q.payload 2 2) 511 && rsv q.payload 4 4 &&
      !((num q.payload 2 2).testBit 8 && fusedOff f 48)) (sess 9) with cls := .long }

/-- BIST_RUN (R431). -/
def runBistRun (f : FuseBank) (s : Sys) (q : MbxReq) : Sys :=
  mbxRun specBistRun bodyBistRun f s q

/-- The expected signatures of a group, logic and memory; none where no entry matches the device (R432). -/
def bistExpect (f : FuseBank) (s : Sys) (g : Nat) : Option (Bytes × Bytes) :=
  let m := (getSlot s s.upd.run).data
  match compOf m 9 with
  | none => none
  | some e =>
    let t := compBytes m e
    if t.take 4 = ascii "KBST" then
      ((List.range (num t 4 2)).find? fun i => num t (16 + 296 * i) 1 == f.order && num t (17 + 296 * i) 1 == stepping).map fun i =>
        (sub t (24 + 296 * i + 32 * g) 16, sub t (40 + 296 * i + 32 * g) 16)
    else none

/-- The test that is due, as (group, memory), where `r` holds the results so far: a record of 24 bytes still lacks its memory MISR. -/
def bistNext (gs : List Nat) (logic : Bool) (r : Bytes) : Option (Nat × Bool) :=
  (gs[r.length / 40]?).map fun g => (g, r.length % 40 != 0 || !logic)

/-- The results after one test. -/
def bistRecord (exp : Option (Bytes × Bytes)) (logic memory : Bool) (r : Bytes) (g : Nat) (mem : Bool) (misr : Bytes) : Bytes :=
  let start := r.length / 40 * 40
  let lm := if r.length % 40 = 0 then (if mem then zeros 16 else misr) else sub r (start + 8) 16
  let bad := fun (a : Bytes) (e : Bytes) => b2n (a != e)
  let lf := match exp with | some e => if logic then bad lm e.1 else 0 | none => 0
  let mf := match exp with | some e => if mem then bad misr e.2 else 0 | none => 0
  let fl := b2n logic + 2 * b2n (memory && mem) + 4 * b2n exp.isSome + 8 * lf + 16 * mf
  r.take start ++ le 1 g ++ le 1 fl ++ zeros 6 ++ lm ++ (if mem then misr else if memory then [] else zeros 16)

/-- The time of the tests of a list of groups, in ms. -/
def bistMs (gs : List Nat) (logic memory : Bool) : Nat := (gs.map fun g => (if logic then 30 else 0) + if memory then groupMs g else 0).sum

/-- The time of the tests that the results cover. -/
def bistDoneMs (gs : List Nat) (logic memory : Bool) (r : Bytes) : Nat :=
  bistMs (gs.take (r.length / 40)) logic memory + (if r.length % 40 = 0 then 0 else 30)

/-- A tested group is zeroised and reset as at power-up (R431). What the CC holds, its settings and its
    queues, is kept. -/
def bistReset (s : Sys) (g : Nat) : Sys :=
  match g with
  | 1 => { s with xl := { s.xl with l2 := [], wc1 := [], wc2 := [] } }
  | 3 => { s with me := { s.me with msgs := [] } }
  | 4 => { s with rt := { Rt.reset with cfg := s.rt.cfg, cfgPend := s.rt.cfgPend, dgq := s.rt.dgq, ownDg := s.rt.ownDg,
                                         mgq := s.rt.mgq, nextArr := s.rt.nextArr } }
  | 5 => { s with ce := { s.ce with comms := [], colIn := [] } }
  | 7 => newInc { s with
      te := { s.te with peers := [], ops := [], segs := [], gens := [], srcs := [], asms := [], results := [], atomQ := [] },
      pe := { s.pe with
        sets := [], cands := [], candQ := [], rr := 0, plan := { sets := [], cands := [], trees := [] }, batchDone := false,
        links := [], digs := [] } }
  | _ => (groupPorts g).foldl (fun s p => modNp s p fun n => { NPrt.reset with admin := n.admin, sl := n.sl, slNext := n.slNext, lastInc := n.lastInc }) s

/-- The running BIST: its command, groups, kinds and results. -/
def bistOf (s : Sys) : Option (Pend × List Nat × Bool × Bool × Bytes) :=
  s.svc.pend.findSome? fun p => match p.res, p.wait with
    | none, .bist gs l m r => some (p, gs, l, m, r)
    | _, _ => none

/-- BIST_TEST_COMPLETE (R430 to R432): the test that is due ends with its MISR; progress is posted, and the last test ends the command. -/
def runBistTestComplete (f : FuseBank) (s : Sys) (group : Nat) (memory : Bool) (misr : Nat) : Sys :=
  match bistOf s with
  | none => s
  | some (p, gs, l, m, r) =>
    if bistNext gs l r ≠ some (group, memory) then s
    else
      let exp := bistExpect f s group
      let r := bistRecord exp l m r group memory (le 16 misr)
      let bad := match exp with | some e => (if memory then e.2 else e.1) != le 16 misr | none => false
      let s := if bad then fault s 121 1 2 (group + (if memory then 512 else 256)) 14 0 else s
      let s : Sys := { s with svc := { s.svc with pend := s.svc.pend.map fun x => if x == p then { x with wait := .bist gs l m r } else x } }
      let s := adminTo s p.who { AEv.of 0xE1 with tag := p.tag, opcode := p.opcode, progress := 1000 * bistDoneMs gs l m r / max 1 (bistMs gs l m) }
      if gs.length * 40 ≤ r.length then endPend (gs.foldl bistReset s) p .ok r else s

end Sys2Proof.Machine
end

