-- ==== Sys2Proof/Machine/Tick.lean ====
section
/-!
DEFINITION. The frame tick and the epoch tick (R23, R30 to R34) with all that takes effect at them, overruns (R32 to R34), the watchdogs, and
how a command that cannot finish is rolled back (R46, R48).
-/
namespace Sys2Proof.Machine

/-! ### Counters at a frame tick (R420, R421) -/

/-- The region of a counter block (Table 14.4). -/
def blkRegion (b : Nat) : Nat :=
  if b < 64 then [0, 2, 6, 8].getD (b / 16) 0 else if b < 68 then 1 else if b < 84 then 3 else if b = 84 then 5 else if b = 85 then 1
  else if b = 88 then 4 else 7

/-- The domain of a block is ON (Table 14.1): a port's, a host port's controller, or one that is always ON. -/
def blkOn (s : Sys) (b : Nat) : Bool :=
  if b < 64 then swdState s (32 + b) == 2 else if b < 68 then swdState s (36 + b) == 2 else s.dev.st != .wiping

/-- The cycles of a block's region clock in a frame (R344). -/
def blkCycles (s : Sys) (b : Nat) : Nat := if blkOn s b then 64 * (16 - (getReg s (blkRegion b)).level) else 0

/-- Flits of a list of packets. -/
def flits (l : List Packet) : Nat := (l.map fun p => p.len).sum

/-- A port has a new packet to send and R278's limits hold it back. -/
def windowStalled (s : Sys) (p : Nat) : Bool :=
  (getNp s p).st == .up && (getRp s p).txq.any fun t => !windowOk (getNp s p) t.pkt.len

/-- The packets at the head of their VCs: the first queued of each input port and VC. -/
def vcHeads (s : Sys) : List QPkt :=
  (s.rt.vcq.foldl (fun a k => if a.any fun h => h.cx == k.cx && h.pkt.vc == k.pkt.vc then a else k :: a) []).reverse

/-- No credit for the packet at the head of a VC that is to leave by a port, copies included (R300, event 0x07). -/
def noCredit (s : Sys) (p : Nat) : Bool :=
  let n := getNp s p
  let q := (getRp s p).txq
  let none_ := fun (vs : List Nat) (k : QPkt) => vs.all fun v => !canSend n q v 1 k.pkt.len
  n.st == .up && (((q.find? fun t => t.vc == 15).any fun t => !mgmtFits n t.pkt.len) || (vcHeads s).any fun k => match k.route with
    | some (.net o _) => o == p && none_ ((List.range 4).map fun i => firstVc k.pkt.cls + i) k
    | some (.escape o) => o == p && none_ [escapeVc k.pkt.cls] k
    | some (.ring o inb _) => o == p && none_ [firstVc k.pkt.cls + b2n inb] k
    | some (.copies ports _) => ports.contains p && none_ (if s.rt.millpond then [10, 11] else [10, 11, 12, 13]) k
    | _ => false)

/-- The occupancy that an event 0x80 to 0x83 of a block watches (Table 17.9). -/
def occupied (s : Sys) (b ev flt : Nat) : Nat :=
  if b < 64 then
    match ev with
    | 0x80 => ((List.range 16).map fun v => if vcFilter v flt then (occupancy s b v).2 else 0).sum
    | 0x81 => flits ((getNp s b).ll.replay.map fun r => r.pkt)
    | 0x82 => flits (getNp s b).ll.held
    | _ => qOf s b
  else if b < 68 then
    let h := getHp s (b - 64)
    match ev with
    | 0x80 => h.reads.length
    | 0x81 => 64 * flits ((h.reqQ ++ h.respQ ++ h.rdy.map fun e => e.2).map fun i => i.pkt)
    | _ => 64 * flits (h.ej.map (·.2))
  else if b < 84 then ((s.ctxs.filter fun e => e.1 % 16 == b - 68).map fun e => e.2.posted.length).sum +
    (s.me.msgs.filter fun m => m.st == .unexp && m.head.dctx % 16 == b - 68).length
  else if b = 84 then (s.ce.comms.map fun e => (e.2.inputs.map fun l => l.length).sum).sum
  else if b = 86 then (if ev = 0x80 then s.te.segs.length else s.te.asms.length)
  else s.rt.vcq.length

/-- What a counter that counts cycles gains in a frame whose state is as it stands at the tick (log entry 50). -/
def cycGain (s : Sys) (b : Nat) (c : Ctr) : Nat :=
  let n := blkCycles s b
  if 0x80 ≤ c.ev then
    let o := occupied s b c.ev c.filter
    if c.thresh = 0 then o * n else if c.thresh < o then n else 0
  else if b < 64 ∧ c.ev = 0x06 ∧ windowStalled s b then n
  else if b < 64 ∧ c.ev = 0x07 ∧ noCredit s b then n
  else 0

/-- A pending selection takes effect (R422). -/
def Ctr.takeUp (c : Ctr) : Ctr :=
  match c.pend with
  | none => c
  | some (ev, th, fl, en, clr) =>
    { c with ev := ev, thresh := th, filter := fl, en := en, pend := none, val := if clr then 0 else c.val, ovf := if clr then false else c.ovf }

/-- A block's counters over a frame: cycles first, then new selections. -/
def blkTick (s : Sys) (b : Nat) : Sys :=
  let g := getBlk s b
  let k : Blk := { g with
    cyc := (g.cyc + blkCycles s b) % 2 ^ 64,
    ctrs := g.ctrs.map fun c => (if c.en then c.bump (cycGain s b c) else c).takeUp }
  { s with cnt := { s.cnt with blks := tset s.cnt.blks b k } }

/-- Every block. -/
def countersTick (s : Sys) : Sys := (List.range 89).foldl blkTick s

/-! ### The frame tick (R23, R30, R31) -/

/-- Core cycles until the frame number changes (R23). -/
def cyclesLeft (t : TimeSync) : Nat :=
  let step := (65536 + t.rate).toNat
  (((t.ft / 1024 + 1) * 1024 * 65536 - (t.ft * 65536 + t.frac)) + step - 1) / step

/-- Fabric Time runs on, by 1 and the rate in each core cycle, until the frame number changes (R23). -/
def runToTick (s : Sys) : Sys :=
  let t := s.time
  let ft := ftAfter t (cyclesLeft t)
  { s with time := { t with
    ft := ft / 65536 % 2 ^ 64, frac := ft % 65536, epochDue := t.epochDue || decide (ft / 65536 / 2097152 ≠ t.ft / 2097152) } }

/-- The frame number has changed; the overrun record of the frame that has ended is complete (R32). -/
def timeTick (s : Sys) : Sys :=
  let t := s.time
  { s with time := { t with
    ovrFrame := t.ovrNow, ovrNow := 0,
    ovrRun := t.ovrRun.mapIdx fun i v => if i < 8 ∧ t.ovrNow.testBit i = false then 0 else v } }

/-- Route weights that were completed come into force, and ROUTE_CONFIG's values (R31, R266). Task 1 of the frame that begins works on what
    stands now (R30). -/
def routeTick (s : Sys) : Sys :=
  let s : Sys := match s.rt.wShadow with
    | some w => { s with rt := { s.rt with weights := w, wValid := true, wShadow := none } }
    | none => s
  { s with rt := { s.rt with cfg := s.rt.cfgPend.getD s.rt.cfg, cfgPend := none, wPlan := weightsNow s } }

/-- The policers gain a frame's bytes, up to BURST (R265). -/
def policeTick (s : Sys) : Sys :=
  let c := s.rt.cfg
  { s with rt := { s.rt with
    ports := s.rt.ports.map fun r => { r with mg := min (r.mg + c.mgRate) (256 * c.mgBurst), dg := min (r.dg + c.dgRate) (256 * c.dgBurst) },
    ownDg := min (s.rt.ownDg + c.dgRate) (256 * c.dgBurst) } }

/-- New values of a shaper take effect and the level is clamped; a shaper that was off starts full (R91, R92). -/
def Shaper.takeUp (h : Shaper) : Shaper :=
  match h.pend with
  | none => h
  | some (r, b) => { h with rate := r, burst := b, pend := none, tokens := if h.rate = 0 then b else min h.tokens b }

/-- Task 3 on a shaper: RATE tokens up to BURST (R91). -/
def Shaper.refill (h : Shaper) : Shaper :=
  let h := h.takeUp
  let add := if h.rate = 0 then 0 else min h.rate (h.burst - h.tokens)
  { h with tokens := h.tokens + add, added := add }

/-- Task 3 and the settings of contexts that wait for a tick (R88, R91, R92); new moderation values are judged as they apply. -/
def shaperTick (s : Sys) : Sys :=
  let due := (s.ctxs.filter fun e => e.2.modPend.isSome).map (·.1)
  let s := { s with
    ctxs := tmap s.ctxs fun _ x =>
      let m := x.modPend.getD (x.modCount, x.modTime, x.modVec)
      { x with shaper := x.shaper.refill, weight := x.weightPend.getD x.weight, weightPend := none, modCount := m.1, modTime := m.2.1,
               modVec := m.2.2, modPend := none },
    fns := tmap s.fns fun _ g => { g with shaper := g.shaper.refill } }
  due.foldl (fun s c => match getCtx s c with
    | some x => if modByCount x then evInterrupt s c else s
    | none => s) s

/-- Tasks 0 and 4, and the INITs that are due (R30, R273, R290). -/
def portsTick (f : FuseBank) (s : Sys) : Sys :=
  let s := (List.range 64).foldl (tickInit f) (tickRipple s)
  (List.range 64).foldl tickAudit s

/-- A context still writes its head back: its abort has not ended and no reset of its function is running (R66, R77, R93). -/
def headLive (s : Sys) (x : Ctx) : Bool :=
  x.st != .drained && x.st != .drainedPending && (getFn s x.hp x.fn).flr.isNone

/-- A head that has moved is written back (R77). -/
def headTick (s : Sys) : Sys :=
  settle ((s.ctxs.filter fun e => e.2.headMoved && headLive s e.2).foldl (fun s e =>
    startAcc (modCtx s e.1 fun x => { x with headMoved := false }) e.1 .cwrite e.2.headWb 8 (le 8 e.2.head) 0 .headWb none) s)

/-- FAULT_ALIVE in JA16 compatibility: high while no FSW bit is set, from DISCOVERY on (R417). -/
def aliveTick (s : Sys) : Sys :=
  if s.pins.straps.fltMode then { s with flt := { s.flt with alive := !early s && fswZero s } } else s

/-- Task 5 (R350), and the domains that may power up in this frame. -/
def tarnTick (s : Sys) (cages : List CageIn) : Sys :=
  let s : Sys := { s with pwr := { s.pwr with started := 0 } }
  if early s then s else cageTask s cages

/-- What a frame tick does (R23, R30, R31): what waited for it takes effect, and the frame's tasks run. -/
def tickWork (f : FuseBank) (s : Sys) (cages : List CageIn) : Sys :=
  let s := timeTick s
  if dark s then sampleTime (aliveTick s)
  else
    let s := shaperTick (policeTick (peTick (routeTick (countersTick s))))
    let s := headTick (portsTick f s)
    sampleTime (aliveTick (readyTick f (traceFlush (tarnTick s cages))))

/-- FRAME_TICK (R23): the frame number changes, what waited for the tick takes effect, and the frame's tasks run. `cages` is task 5's sample;
    a frame in which it is not taken has none. `temps` is a new reading of the sensors, or none. While the timebase is off only the frames go on (log entry 51). -/
def runFrameTick (f : FuseBank) (s : Sys) (cages : List CageIn) (temps : List Int) : Sys :=
  tickWork f (senseTemps (runToTick s) temps) cages

/-- TIME_RECEIVE (R23 to R26): where the one set of Fabric Time changes the frame number, the frame tick fires with it. -/
def runTimeReceive (f : FuseBank) (s : Sys) (port : Nat) (hdr : CtlHdr) (m : TimeMsg) (cycle block : Nat) : Sys :=
  let t := timeIn s port hdr m (pinStamp s (getNp s port).rxLanes cycle block)
  if frame t = frame s then t else tickWork f t []

/-! ### The epoch tick (R23, R34) -/

/-- What a port's decoder and checker counted in the epoch (R305, R309, R318, R319). -/
def fecTick (s : Sys) (e : Nat × FecIn) : Sys :=
  let p := e.1
  let m := e.2
  let n := getNp s p
  let meas := fun (l : Lane) (i : LaneIn) => { l with snr := i.snr, eyeH := i.eyeH, eyeW := i.eyeW, freq := i.freq, txfir := i.txfir }
  let w := prbsAdd n m.err0 m.err1 m.ui
  let s := modNp s p fun n => { n with
    corrUnits := n.corrUnits + m.corr, uncorrUnits := n.uncorrUnits + m.uncorr, corrSyms := n.corrSyms + m.symbols, prbs := w,
    lane0 := meas n.lane0 m.lane0, lane1 := meas n.lane1 m.lane1 }
  let s := count (count (count (count (count s p 0x20 m.corr) p 0x21 m.uncorr) p 0x22 m.symbols) p 0x23 m.errBlocks) p 0x24 m.badMarks
  let s := (List.range 16).foldl (fun s k => count s p (0x30 + k) (m.hist.getD k 0)) s
  let warn := if n.sl.serWarn ≠ 0 then n.sl.serWarn else if n.serFec = 2 then 64 else 4096
  if warn < m.symbols then fault s p 0x20 1 m.symbols 1 p else s

/-- MBX_PROGRESS of long commands: at least once per 1,024 epochs, per 256 for attestation (R44, R380). Its value is free (log entry 52). -/
def progressTick (s : Sys) : Sys :=
  (s.svc.pend.filter fun p => p.res.isNone).foldl (fun s p =>
    let n := match p.wait with | .attest => 256 | .verify => 1024 | .activate => 1024 | .commCreate _ _ => 1024 | _ => 0
    let d := epoch s - p.ft / 2097152
    if n ≠ 0 ∧ d ≠ 0 ∧ d % n = 0 then
      adminTo (draw s) p.who { AEv.of 0xE1 with tag := p.tag, opcode := p.opcode, progress := (Config.word s.free).toNat % 1001 }
    else s) s

/-- FAULT_ALIVE in native mode inverts while no source is latched at FATAL (R417). -/
def aliveEpoch (s : Sys) : Sys :=
  if s.pins.straps.fltMode ∨ early s = true ∨ (s.flt.srcs.any fun x => x.cls == 3) = true then s
  else { s with flt := { s.flt with alive := !s.flt.alive } }

/-- The epoch's overrun record closes, and settings that waited for the tick take effect (R32, R125, R406). -/
def epochOpen (s : Sys) : Sys :=
  let t := s.time
  { s with
    time := { t with
      epochDue := false, epFrame := t.epNow, epNow := 0,
      ovrRun := t.ovrRun.mapIdx fun i v => if 8 ≤ i ∧ t.epNow.testBit i = false then 0 else v },
    xl := { s.xl with age := s.xl.agePend.getD s.xl.age, agePend := none },
    upd := { s.upd with idle := s.upd.idlePend.getD s.upd.idle, idlePend := none } }

/-- EPOCH_TICK (R23, R34): once for each change of the epoch number. -/
def runEpochTick (_f : FuseBank) (s : Sys) (meas : EpochIn) : Sys :=
  if s.time.epochDue = false then s
  else
    let s := epochOpen s
    if early s then s
    else if dark s then darkEpoch s meas
    else
      let s := cageEpoch (powerEpoch (frameCfgTick (dumpSnap s)) meas)
      aliveEpoch (progressTick (meas.fec.foldl fecTick s))

/-! ### Overruns (R32 to R34) -/

/-- An overrun recorded and counted (R32). -/
def ovrRecord (s : Sys) (task : Nat) : Sys :=
  let t := s.time
  let s : Sys := { s with time := { t with
    ovrNow := if task < 8 then t.ovrNow ||| 2 ^ task else t.ovrNow, epNow := if task < 8 then t.epNow else t.epNow ||| 2 ^ task,
    ovrCnt := t.ovrCnt.modify task fun v => (v + 1) % 2 ^ 48, ovrRun := t.ovrRun.modify task (· + 1) } }
  fault s 116 1 1 task 0 0

/-- How many overruns of a task have followed one another. -/
def ovrRunOf (s : Sys) (task : Nat) : Nat := s.time.ovrRun.getD task 0

/-- A shaper without what this frame's refill added. -/
def Shaper.unfill (h : Shaper) : Shaper := { h with tokens := h.tokens - h.added, added := 0 }

/-- The effect of a frame task's overrun (Table 2.3). -/
def ovrEffect (s : Sys) (task port : Nat) : Sys :=
  match task with
  | 0 => modNp s port fun n => { n with lcq := n.lcq.filter fun c => match c with | .ripple _ => false | _ => true }
  | 1 => { s with rt := { s.rt with wValid := s.rt.wValid && decide (ovrRunOf s 1 < 64) } }
  | 3 => { s with
      ctxs := tmap s.ctxs fun _ x => { x with shaper := x.shaper.unfill }, fns := tmap s.fns fun _ g => { g with shaper := g.shaper.unfill } }
  | 4 => modNp s port fun n =>
      { n with lcq := n.lcq.filter (fun c => match c with | .credSync _ => false | _ => true), ll := { n.ll with auditBad := false } }
  | 5 => if early s then s else cageMiss s
  | _ => s

/-- A frame task has signalled completion, as far as the device shows it: a port's ripple or CRED_SYNC has left, the shadow is complete
    (R31, R32). -/
def taskDone (s : Sys) (task port : Nat) : Bool :=
  match task with
  | 0 => !(getNp s port).lcq.any fun c => match c with | .ripple _ => true | _ => false
  | 1 => s.rt.wShadow.isSome
  | 2 => s.pe.batchDone
  | 4 => !(getNp s port).ll.auditBad && !(getNp s port).lcq.any fun c => match c with | .credSync _ => true | _ => false
  | _ => false

/-- TASK_OVERRUN (R32, R33): a task of the running frame that is not complete is stopped. Tasks 0 and 4 run once for each port; where several
    ports overrun in one frame, the overrun is recorded and counted once (log entry 121). During the steps of an activation the CC's watchdog
    is not counted (R401). -/
def runTaskOverrun (_f : FuseBank) (s : Sys) (task port : Nat) : Sys :=
  if 8 ≤ task ∨ dark s = true ∨ (task = 6 ∧ s.upd.act.isSome) ∨ taskDone s task port = true then s
  else if s.time.ovrNow.testBit task then (if task = 0 ∨ task = 4 then ovrEffect s task port else s)
  else ovrEffect (ovrRecord s task) task port

/-- Dumps that this epoch owed are skipped and counted (R34, R426). -/
def dumpsMissed (s : Sys) : Sys :=
  { s with fns := tmap s.fns fun _ g =>
      { g with dump := { g.dump with snap := none, missed := g.dump.missed + b2n g.dump.snap.isSome } } }

/-- Task 9 overrun: the level before it is held; the second in a row throttles everything (R34, R346). -/
def thermalOvr (s : Sys) : Sys :=
  if 2 ≤ ovrRunOf s 9 then throttleAll s
  else { s with pwr := { s.pwr with regions := s.pwr.regions.mapIdx fun r x => { x with level := s.pwr.lastLevels.getD r x.level } } }

/-- EPOCH_TASK_OVERRUN (R34). -/
def runEpochTaskOverrun (_f : FuseBank) (s : Sys) (task : Nat) : Sys :=
  if task < 8 ∨ 11 ≤ task ∨ dark s = true ∨ s.time.epNow.testBit task = true then s
  else
    let s := ovrRecord s task
    if task = 8 then dumpsMissed s else if task = 9 then thermalOvr s else s

/-! ### Watchdogs (R33, R321, R402) -/

/-- TARN_WATCHDOG_RESET (R33, R321, R354): after 256 misses in a row the Tarn domain is reset; a second time within one epoch the chip is. -/
def runTarnWatchdogReset (_f : FuseBank) (s : Sys) : Sys :=
  if ovrRunOf s 7 < 256 ∨ dark s = true then s
  else if s.flt.wdAt = some (epoch s) then chipReset s 6 0xFFFF
  else
    let s : Sys := { s with
      flt := { s.flt with wdAt := some (epoch s) }, time := { s.time with ovrRun := s.time.ovrRun.set 7 0 },
      pwr := { s.pwr with cages := s.pwr.cages.map fun g => { g.restart with missed := 0 } } }
    healthFail (fault s 113 1 2 0 11 0) 4

/-! ### Commands that do not finish (R46, R48) -/

/-- UPDATE_ACTIVATE undone (R46): the slots are as before step 1, and where the CC has already been stopped the old images are started again
    by steps 4 and 5; no session ends and the lock stays. A way back after a failed digest goes on, as R401 states it. -/
def undoActivate (s : Sys) : Sys :=
  match s.upd.act with
  | none => s
  | some a =>
    if a.revert then s
    else
      let old := 1 - a.slot
      let b := s
      let s := match a.before with
        | some (x, w) => { (modSlot (slotTo s old .active) a.slot fun _ => x) with
            upd := { (modSlot (slotTo s old .active) a.slot fun _ => x).upd with trialWin := w } }
        | none => s
      let s := bootWrite b s
      { s with upd := { s.upd with
          act := if a.step ≤ 3 then none else some { a with slot := old, step := 4, revert := true, owner := none, undo := true } } }

/-- What an accepted command that has not ended had changed is undone (R46, R48). An abort cannot be undone, since R63 gives a context in
    ABORTING no way back: it goes on to its bound, and only its command ends (DEDUCED, log entry 56). -/
def rollBack (s : Sys) (p : Pend) : Sys :=
  match p.wait with
  | .quiesce => { s with dev := { s.dev with quiescing := false } }
  | .deregister hp i =>
    match (getHp s hp).regtab with
    | some t => (match tget t.ents i with | some r => putRegion s hp i { r with gen := r.lgen } false | none => s)
    | none => s
  | .commit => { s with rt := { s.rt with commit := none } }
  | .link k => portDisable s k
  | .lanes k => modNp s k fun n => { n with lreq := match n.lreq with | some q => if q.owner = some (p.who, p.tag) then none else some q | none => none }
  | .commCreate k c => unmember s k c
  | .psetDestroy k => modSet s k fun x =>
      { x with destroying := false,
               members := tmap x.members fun i m => { m with removing := m.removing && waiting s (fun w => w == .psetRemove k i) } }
  | .psetRemove k i => modMember s k i fun m => { m with removing := false }
  | .domain k v =>
    if v = 1 then { s with pwr := { s.pwr with retain := s.pwr.retain.filter (· != k) } }
    else if k < 104 then { s with pwr := { s.pwr with hpOff := s.pwr.hpOff ++ [k % 4], waitUp := s.pwr.waitUp.filter fun d => d != 96 + k % 4 && d != 100 + k % 4 } }
    else { s with pwr := { s.pwr with retain := s.pwr.retain ++ [k] } }
  | .verify => modLock s fun l => { l with verifying := false }
  | .activate => undoActivate s
  | .attest => { s with sec := { s.sec with signing := none } }
  | .ctxAbort c d => modCtx s c fun x => { x with bound := some d }
  | .fnAbort hp fn d _ _ _ _ =>
    ((ctxsOf s hp fn).filter fun c => (ctxAborter s c).isNone).foldl (fun s c => modCtx s c fun x => { x with bound := some d })
      (modFn s hp fn fun g => { g with fnAbort := false })
  | .lcFuse _ => { s with svc := { s.svc with fuseOp := none }, sec := { s.sec with busyLc := false } }
  | .invalidate _ | .cage _ | .cmis _ | .flash _ | .bist _ _ _ _ | .svnFuse _ | .lost => s

/-- A command that a CC restart does not touch: UPDATE_ACTIVATE, whose own steps a hitless activation is (R401), UPDATE_CONFIRM before its
    response, which is not an accepted command, and in a hitless activation an attestation report in progress (R379; log entry 157). -/
def outlives (hitless : Bool) (p : Pend) : Bool :=
  match p.wait with
  | .svnFuse _ | .activate => true
  | .attest => hitless
  | _ => false

/-- The CC goes down (R48): an accepted command whose effect is not complete is rolled back, and ends with INTERNAL when the CC is back. -/
def ccLost (s : Sys) (hitless : Bool) : Sys :=
  let gone := fun (p : Pend) => p.res.isNone && !outlives hitless p
  let ps := s.svc.pend.filter gone
  let s : Sys := { s with svc := { s.svc with
    ccUp := false, pend := s.svc.pend.map fun p => if gone p then { p with wait := .lost } else p } }
  releaseReset (ps.foldl rollBack s)

/-- CC_WATCHDOG_RESTART (R33): after 256 misses in a row the CC source is raised and the CC restarts. -/
def runCcWatchdogRestart (_f : FuseBank) (s : Sys) : Sys :=
  if ovrRunOf s 6 < 256 ∨ s.svc.ccUp = false ∨ s.upd.act.isSome ∨ dark s = true then s
  else
    let s : Sys := { s with time := { s.time with ovrRun := s.time.ovrRun.set 6 0 } }
    ccLost (healthFail (fault s 112 1 2 0 11 0) 4) false

/-- An accepted command ends with a status and is rolled back. -/
def undo (s : Sys) (p : Pend) (st : Status) : Sys := rollBack (endPend s p st []) p

/-- The bound of a running command in frames (R44, R46, R395, R401, R430, R380); none where it has no bound of this kind. -/
def boundOf (w : Wait) : Option Nat :=
  match w with
  | .commCreate _ _ | .ctxAbort _ _ | .fnAbort _ _ _ _ _ _ _ | .svnFuse _ | .lost => none
  | .verify => some 6250000
  | .activate => some 390625
  | .attest => some 2457600
  | .bist gs l m _ => some ((bistMs gs l m * 110 * 15625 + 999) / 1000)
  | _ => some 15625

/-- COMMAND_TIMEOUT (R46): the command has reached its bound. -/
def runCommandTimeout (_f : FuseBank) (s : Sys) (who : Requester) (tag : Nat) : Sys :=
  match s.svc.pend.find? fun p => p.who == who && p.tag == tag && p.res.isNone with
  | none => s
  | some p =>
    match boundOf p.wait with
    | some b => if p.ft / 1024 + b ≤ frame s then settle (releaseReset (undo s p .timeout)) else s
    | none => s

end Sys2Proof.Machine
end

