-- ==== Sys2Proof/Machine/Door.lean ====
section
/-!
DEFINITION. BAR0 as a function sees it (R6, R40, R43, R53, R425): the mailbox registers and the request buffer, the doorbell by which a request
is taken out of the buffer, the dump registers, and which command an opcode names (Tables 3.13 and its like).
-/
namespace Sys2Proof.Machine

/-- The command an opcode names runs on a request; an opcode not defined in this release receives BAD_OPCODE (Table 3.8). -/
def serveOp (f : FuseBank) (s : Sys) (opcode : Nat) (q : MbxReq) : Sys :=
  match opcode with
  | 0x0001 => runIdentify f s q
  | 0x0002 => runGetState f s q
  | 0x0003 => runAdminRingSet f s q
  | 0x0004 => runMbxResult f s q
  | 0x0005 => runDevQuiesce f s q
  | 0x0006 => runDevResume f s q
  | 0x0010 => runSessionOpen f s q
  | 0x0011 => runSessionProve f s q
  | 0x0012 => runSessionClose f s q
  | 0x0101 => runCtxCreate f s q
  | 0x0102 => runCtxDestroy f s q
  | 0x0103 => runCtxActivate f s q
  | 0x0104 => runCtxQuery f s q
  | 0x0105 => runCtxResume f s q
  | 0x0106 => runCtxModerate f s q
  | 0x0107 => runCtxSched f s q
  | 0x0108 => runFnShape f s q
  | 0x0109 => runFnQuota f s q
  | 0x0110 => runCtxAbort f s q
  | 0x0111 => runFnAbort f s q
  | 0x0120 => runMeCtxConfig f s q
  | 0x0121 => runMeQuery f s q
  | 0x0201 => runPdCreate f s q
  | 0x0202 => runPdDestroy f s q
  | 0x0203 => runRegionRegister f s q
  | 0x0204 => runRegionDeregister f s q
  | 0x0205 => runFnTenant f s q
  | 0x0206 => runFnS2Set f s q
  | 0x0207 => runRegtabSet f s q
  | 0x0208 => runHostmapSet f s q
  | 0x0209 => runXlatFaultRingSet f s q
  | 0x020A => runXlatResume f s q
  | 0x020B => runXlatInvalidate f s q
  | 0x020C => runXlatAge f s q
  | 0x0301 => runTblWrite f s q
  | 0x0302 => runTblCommit f s q
  | 0x0303 => runTblRead f s q
  | 0x0304 => runRouteConfig f s q
  | 0x0310 => runFrameConfig f s q
  | 0x0311 => runTimeStatus f s q
  | 0x0320 => runTeConfig f s q
  | 0x0330 => runDgramSend f s q
  | 0x0331 => runDgramRecv f s q
  | 0x0340 => runLinkStatus f s q
  | 0x0341 => runLinkControl f s q
  | 0x0350 => runSlConfig f s q
  | 0x0351 => runSlStatus f s q
  | 0x0401 => runCommCreate f s q
  | 0x0402 => runCommDestroy f s q
  | 0x0403 => runCommQuery f s q
  | 0x0410 => runMgidGrant f s q
  | 0x0411 => runColConfig f s q
  | 0x0501 => runPsetCreate f s q
  | 0x0502 => runPsetDestroy f s q
  | 0x0503 => runPsetAdd f s q
  | 0x0504 => runPsetRemove f s q
  | 0x0505 => runPsetHint f s q
  | 0x0506 => runPsetQuery f s q
  | 0x0510 => runPePolicy f s q
  | 0x0511 => runPeRouteQuery f s q
  | 0x0601 => runCntConfig f s q
  | 0x0602 => runCntRead f s q
  | 0x0603 => runCntGrant f s q
  | 0x0604 => runCntBw f s q
  | 0x0605 => runFnCntRead f s q
  | 0x0606 => runTraceConfig f s q
  | 0x0701 => runFaultRead f s q
  | 0x0702 => runFaultClear f s q
  | 0x0703 => runFaultConfig f s q
  | 0x0704 => runFaultNotify f s q
  | 0x07E0 => runLogRead f s q
  | 0x07E1 => runLogClear f s q
  | 0x07F0 => runChipReset f s q
  | 0x0801 => runUpdateOpen f s q
  | 0x0802 => runUpdateWrite f s q
  | 0x0803 => runUpdateVerify f s q
  | 0x0804 => runUpdateAbandon f s q
  | 0x0805 => runUpdateActivate f s q
  | 0x0806 => runUpdateConfirm f s q
  | 0x0807 => runUpdateStatus f s q
  | 0x0808 => runFreshetConfig f s q
  | 0x0810 => runSettingsSave f s q
  | 0x0811 => runSettingsSet f s q
  | 0x0901 => runBistRun f s q
  | 0x0910 => runSlPrbs f s q
  | 0x0911 => runSlSlip f s q
  | 0x0920 => runFaultInject f s q
  | 0x0A01 => runPwrStatus f s q
  | 0x0A02 => runPwrDomain f s q
  | 0x0A03 => runSensorRead f s q
  | 0x0A04 => runSensorLimits f s q
  | 0x0A10 => runCageConfig f s q
  | 0x0A11 => runCageControl f s q
  | 0x0A12 => runCageStatus f s q
  | 0x0A13 => runCmisAccess f s q
  | 0x0B01 => runLcStatus f s q
  | 0x0B30 => runAttestRequest f s q
  | 0x0B31 => runAttestRead f s q
  | 0x0B32 => runIdCertRead f s q
  | 0x0B40 => runIdCertWrite f s q
  | 0x0B41 => runKeySet f s q
  | 0x0B50 => runLcTransition f s q
  | _ => mbxGate s opcode q fun s => finishNow (touchSession s q.who q.token) q opcode .badOpcode none [] false

/-- A function's BAR0 answers: the function is presented and its link is up (R40, R93). -/
def bar0Open (s : Sys) (hp fn : Nat) : Bool := fnPresent s hp fn && (linkOf s hp fn).up

/-- The request that the buffer holds: header and as many payload bytes as LENGTH says (Table 3.6). -/
def bufRequest (s : Sys) (hp fn : Nat) (mem : List (Nat × Nat)) : Nat × MbxReq :=
  let b := (getFn s hp fn).mbx.reqBuf
  let h := Memory.readAll b 0 16
  let n := num h 6 2
  (num h 0 2,
   { who := .fn hp fn, flags := num h 2 2, tag := num h 4 2, token := num h 8 8, payload := Memory.readAll b 16 n, mem })

/-- MBX_DOORBELL (R43): a write with GO 1 submits the request buffer. -/
def runMbxDoorbell (f : FuseBank) (s : Sys) (hp fn value : Nat) (mem : List (Nat × Nat)) : Sys :=
  if bar0Open s hp fn = false ∨ value.testBit 0 = false then s
  else
    let r := bufRequest s hp fn mem
    serveOp f s r.1 r.2

/-- REQUEST_BUFFER_WRITE (R43): while BUSY is 1 it is discarded and sets DROP. Bytes outside the buffer are none of its business. -/
def runRequestBufferWrite (_f : FuseBank) (s : Sys) (hp fn off : Nat) (data : Bytes) : Sys :=
  if bar0Open s hp fn = false ∨ off < 0x1000 ∨ 0x2000 ≤ off then s
  else if mbxClosed s hp fn ∨ (getFn s hp fn).mbx.held = true then modMbx s hp fn fun m => { m with drop := true }
  else modMbx s hp fn fun m => { m with reqBuf := Memory.writeAll m.reqBuf (off - 0x1000) (data.take (0x2000 - off)) }

/-- MBX_CTRL written (Table 3.2): VECTOR, EVT_IE and RSP_IE are set, the reserved bits kept, DROP and OVR cleared by 1. -/
def ctrlWrite (m : Mbx) (v : Nat) : Mbx :=
  { m with
    vector := BitVec.ofNat 16 (v / 2 ^ 16), rsvdP := BitVec.ofNat 12 (v / 16), drop := m.drop && !v.testBit 3, ovr := m.ovr && !v.testBit 2,
    evtIe := v.testBit 1, rspIe := v.testBit 0 }

/-- The dump registers, changed while EN is 0 (R425). -/
def dumpSet (d : Dump) (g : Dump → Dump) : Dump := if d.en then d else g d

/-- A 32-bit half of DUMP_BASE or of the selection written (Table 17.10): reserved bits and bits of blocks not granted stay 0. -/
def dumpWrite32 (g : Fn) (off v : Nat) : Dump :=
  let d := g.dump
  let lanes := fun (x k : Nat) => if k = 0 then x / 2 ^ 32 * 2 ^ 32 + v else v * 2 ^ 32 + x % 2 ^ 32
  let sel := fun (k : Nat) =>
    let keep := d.sel - bits d.sel (32 * k) 32 * 2 ^ (32 * k)
    (keep + v * 2 ^ (32 * k)) % 2 ^ 89 &&& g.grants
  match off with
  | 0x4000 => { d with period := v / 2 ^ 16, rsvdP := bits v 1 15, en := v.testBit 0 }
  | 0x4008 => dumpSet d fun d => { d with base := (lanes d.base 0) / 4096 * 4096 % 2 ^ 52, size := v % 16 }
  | 0x400C => dumpSet d fun d => { d with base := (lanes d.base 1) / 4096 * 4096 % 2 ^ 52 }
  | 0x4010 => { d with head := v % 65536 }
  | 0x4018 => dumpSet d fun d => { d with sel := sel 0 }
  | 0x401C => dumpSet d fun d => { d with sel := sel 1 }
  | 0x4020 => dumpSet d fun d => { d with sel := sel 2 }
  | 0x4024 => dumpSet d fun d => { d with own := v.testBit 31 }
  | _ => d

/-- A 32-bit register written (Table 3.1): what is read-only or reserved ignores it. -/
def regWrite32 (f : FuseBank) (s : Sys) (hp fn off v : Nat) : Sys :=
  if off = 0 then modMbx s hp fn fun m => ctrlWrite m v
  else if off = 0x10 then runMbxDoorbell f s hp fn v []
  else if off = 0x18 then runAdminHeadWrite f s hp fn v
  else if off = 0x1C then runXfaultHeadWrite f s hp fn v
  else if 0x1000 ≤ off ∧ off < 0x2000 then runRequestBufferWrite f s hp fn off (le 4 v)
  else if off = 0x4028 then
    (if fn = 0 ∧ hp = s.cnt.trHp then { s with cnt := { s.cnt with trHead := v % 65536 } } else s)
  else if 0x4000 ≤ off ∧ off < 0x4028 then modFn s hp fn fun g => { g with dump := dumpWrite32 g off v }
  else s

/-- A write of BAR0 (R6, R40): an access of 4 or 8 bytes; any other width is ignored. What a reset of the function closes, each register
    knows (R43, R451). -/
def barWrite (f : FuseBank) (s : Sys) (hp fn off width value : Nat) : Sys :=
  if bar0Open s hp fn = false ∨ off % 4 ≠ 0 then s
  else if width = 4 then regWrite32 f s hp fn off (value % 2 ^ 32)
  else if width = 8 then regWrite32 f (regWrite32 f s hp fn off (value % 2 ^ 32)) hp fn (off + 4) (value / 2 ^ 32 % 2 ^ 32)
  else s

/-- A field of a function's configuration (R74, R93). -/
def fnCfg (r : CfgReg) (v : Nat) (g : Fn) : Fn :=
  match r with
  | .busMaster => { g with bme := v.testBit 0 }
  | .tphEnable => { g with tph := v.testBit 0 }
  | .steerTag i => if i < 64 then { g with stTab := tset g.stTab i (v % 65536) } else g
  | .relaxedOrder | .maxPayload | .maxRead | .tagBits | .cplTimeout => g

/-- A field of the configuration of a link's parent function, which governs the link (R68 to R70): a value that the field does not have
    changes nothing, and a completion timeout of 0 is the default range, 50 ms. -/
def linkCfg (r : CfgReg) (v : Nat) (l : HLink) : HLink :=
  match r with
  | .relaxedOrder => { l with ro := v.testBit 0 }
  | .maxPayload => if v = 128 ∨ v = 256 ∨ v = 512 then { l with mps := v } else l
  | .maxRead => if v = 128 ∨ v = 256 ∨ v = 512 ∨ v = 1024 ∨ v = 2048 ∨ v = 4096 then { l with mrrs := v } else l
  | .cplTimeout => { l with ctoUs := if v = 0 then 50000 else v }
  | .tagBits => if v = 8 ∨ v = 10 ∨ v = 14 then { l with tagBits := v } else l
  | .busMaster | .tphEnable | .steerTag _ => l

/-- A write of a configuration field (R68 to R71, R74, R93, R325; log entry 126). Function 64 is the parent function of link B. A function that
    is not presented, one in a reset, and a link that is down or answers with Request Retry Status take none. -/
def cfgWrite (s : Sys) (hp fn : Nat) (r : CfgReg) (v : Nat) : Sys :=
  let b := if fn = 64 then true else onLinkB s hp fn
  let l := getLink s hp b
  if l.up = false ∨ l.crs = true ∨ (fn = 64 ∧ (getHp s hp).bifd = false) ∨ (fn < 64 ∧ (fnPresent s hp fn = false ∨ (getFn s hp fn).flr.isSome))
  then s
  else if fn = 64 then modLink s hp true (linkCfg r v)
  else
    let s := modFn s hp fn (fnCfg r v)
    let s := if fn = 0 then modLink s hp false (linkCfg r v) else s
    if r = .busMaster then readNext (msixFlush s hp fn) hp else s

/-- REGISTER_WRITE (R6, R40, R68): a register of BAR0, or a configuration field of the function. -/
def runRegisterWrite (f : FuseBank) (s : Sys) (hp fn : Nat) (off : RegAt) (width value : Nat) : Sys :=
  match off with
  | .bar0 o => barWrite f s hp fn o width value
  | .cfg r => cfgWrite s hp fn r value

/-! ### What a read returns (R6, R40, R75, R76, R412, R425, R451) -/

/-- BUSY: the mailbox is closed, or a request is being taken (R451, Table 3.3). -/
def mbxBusy (s : Sys) (hp fn : Nat) : Bool := mbxClosed s hp fn || (getFn s hp fn).mbx.held

/-- MBX_CTRL as read (Table 3.2); its RsvdP bits read as a free value has it (Table 0.3). -/
def ctrlRead (s : Sys) (m : Mbx) : Nat :=
  m.vector.toNat * 2 ^ 16 + Config.readRsvdP s.free m.rsvdP.toNat % 2 ^ 12 * 2 ^ 4 + 8 * b2n m.drop + 4 * b2n m.ovr + 2 * b2n m.evtIe + b2n m.rspIe

/-- MBX_STATUS as read (Table 3.3). -/
def statusRead (s : Sys) (hp fn : Nat) : Nat :=
  let m := (getFn s hp fn).mbx
  m.lastTag % 2 ^ 16 * 2 ^ 16 + s.dev.st.code % 2 ^ 8 * 2 ^ 8 + 4 * b2n m.accepted + 2 * b2n m.rspReady + b2n (mbxBusy s hp fn)

/-- FN_INFO as read, 64 bits (Table 3.5): MAX_PEND is 16. -/
def infoRead (f : FuseBank) (s : Sys) (hp fn : Nat) : Nat :=
  fn % 64 + hp % 4 * 2 ^ 6 + f.order % 2 ^ 8 * 2 ^ 8 + 0x10 * 2 ^ 16 + (getFn s hp fn).ctxQuota % 2 ^ 16 * 2 ^ 24

/-- The 56 bytes of the fault page as a function sees it (R412, Tables 17.3 and 17.4). -/
def faultPage (s : Sys) (hp fn : Nat) : Bytes :=
  if fn = 0 then le 16 (fsw s) ++ capBytes s.flt.dcap
  else le 16 (fsw s &&& 2 ^ (64 + hp)) ++ capBytes (s.flt.dcap.filter fun c => c.src == 64 + hp)

/-- A 32-bit word of the dump registers as read (Table 17.10). -/
def dumpRead (s : Sys) (hp fn off : Nat) : Nat :=
  let d := (getFn s hp fn).dump
  match off with
  | 0x4000 => d.period % 2 ^ 16 * 2 ^ 16 + Config.readRsvdP s.free d.rsvdP % 2 ^ 15 * 2 + b2n d.en
  | 0x4008 => d.base % 2 ^ 32 + d.size
  | 0x400C => d.base / 2 ^ 32
  | 0x4014 => d.tail % 2 ^ 16 + 2 ^ 16 * b2n d.phase
  | 0x4018 => d.sel % 2 ^ 32
  | 0x401C => bits d.sel 32 32
  | 0x4020 => bits d.sel 64 25
  | 0x4024 => 2 ^ 31 * b2n d.own
  | 0x402C => if fn = 0 ∧ hp = s.cnt.trHp then s.cnt.trTail % 2 ^ 16 + 2 ^ 16 * b2n s.cnt.trPhase else 2 ^ 16
  | _ => 0

/-- A 32-bit word of BAR0 as read (Table 3.1): write-only fields and reserved offsets read 0. -/
def barWord (f : FuseBank) (s : Sys) (hp fn off : Nat) : Nat :=
  let m := (getFn s hp fn).mbx
  if off = 0 then ctrlRead s m
  else if off = 0x8 then statusRead s hp fn
  else if off = 0x100 then infoRead f s hp fn % 2 ^ 32
  else if off = 0x104 then infoRead f s hp fn / 2 ^ 32
  else if 0x1000 ≤ off ∧ off < 0x2000 then num (Memory.readAll m.reqBuf (off - 0x1000) 4) 0 4
  else if 0x2000 ≤ off ∧ off < 0x3000 then num (Memory.readAll m.rspBuf (off - 0x2000) 4) 0 4
  else if 0x3000 ≤ off ∧ off < 0x3038 then num (faultPage s hp fn) (off - 0x3000) 4
  else if 0x4000 ≤ off ∧ off < 0x4030 then dumpRead s hp fn off
  else 0

/-- What a read of BAR0 returns (R6, R40): 4 or 8 bytes; any other width reads 0. A function that is not presented answers nothing. -/
def barRead (f : FuseBank) (s : Sys) (hp fn off width : Nat) : Option Nat :=
  if bar0Open s hp fn = false then none
  else some (if off % 4 ≠ 0 then 0 else if width = 4 then barWord f s hp fn off
    else if width = 8 then barWord f s hp fn off + 2 ^ 32 * barWord f s hp fn (off + 4) else 0)

/-- What a read of a doorbell page returns (R75, R76, Tables 4.2 to 4.6): 0 for a page whose writes are discarded, for the write-only registers
    and for a reserved offset. A function that is not presented answers nothing. -/
def pageRead (s : Sys) (hp fn page off : Nat) : Option Nat :=
  if bar0Open s hp fn = false then none
  else match (pageCtx s hp fn page).bind (getCtx s) with
  | none => some 0
  | some x =>
    some (if off = 0x080 then x.head % 2 ^ 16
      else if off = 0x0C0 then x.eqTail % 2 ^ 16 + 2 ^ 16 * b2n x.eqPhase + 2 ^ 17 * b2n x.armed else 0)

end Sys2Proof.Machine
end

