-- ==== Sys2Proof/Machine/Receive.lean ====
section
/-!
DEFINITION. Packets that have left the crossbar toward a host port: requests through the checks of Table 6.6 (R144), responses at the
source (R150 to R152, Table 6.7), and the timers of the transport engine (R142, R146, R149, R150, R152, R155).
-/
namespace Sys2Proof.Machine

/-- The CX port that the oldest packet in a port's ejection buffer came in by. -/
def ejCx (s : Sys) (hp : Nat) : Nat := ((getHp s hp).ej.head?.map (·.1)).getD (64 + hp)

/-- A packet is dropped by the transport engine: counted, and recorded (R131, R428). -/
def teDrop (s : Sys) (p : Packet) (cx : Nat) : Sys := trace (count s 86 0x01 1) p 8 cx 0x01

/-- The oldest packet in a port's ejection buffer, if its OP is of a family; it leaves the buffer. One beyond the MPL is dropped as it is
    delivered, and there is none (R262). -/
def takeEj (s : Sys) (hp : Nat) (fam : Nat → Bool) : Option (Sys × Option Packet) :=
  match (getHp s hp).ej with
  | (cx, p) :: rest =>
    if fam p.op = false then none
    else
      let s := modHp s hp fun h => { h with ej := rest }
      if tooOld s p then some (trace (count s cx 0x10 1) p 8 cx 0x10, none) else some (trace s p 5 cx 0, some p)
  | [] => none

/-- A request through checks 1 to 5, and 6 and 7 where it takes them (R144). -/
def inbound (s : Sys) (hp : Nat) (fam : Nat → Bool) (dup ctx : Bool) (body : Sys → Nat → Packet → Sys) : Sys :=
  match takeEj s hp fam with
  | none => s
  | some (s, none) => s
  | some (t, some p) =>
    settle (match checks5 t p with
      | (u, none) => if lenCheck p && (senderDev t p).isSome then u else trace u p 8 (ejCx s hp) 0x01
      | (s, some dev) =>
        match (if dup then checkDup s dev p else (s, true)) with
        | (s, false) => s
        | (s, true) =>
          match (if ctx then checkCtx s p else (s, true)) with
          | (s, false) => s
          | (s, true) => body s dev p)

/-- OPs that PUT_RECEIVE takes: PUT, PUT_IMM and unassigned requests (R132). -/
def famPut (op : Nat) : Bool := op == 1 || op == 2 || op == 0 || op == 7 || (decide (0x0B ≤ op) && decide (op ≤ 0x0F)) ||
  (decide (0x20 ≤ op) && decide (op < 0x80))
/-- OPs of SEND_PACKET_RECEIVE, the unassigned ones of the family among them (R159). -/
def famSend (op : Nat) : Bool := decide (0x10 ≤ op) && decide (op ≤ 0x1F) && op != 0x14
/-- OPs of TRANSPORT_ACK_RECEIVE, with unassigned responses (R132). -/
def famAck (op : Nat) : Bool := decide (0x80 ≤ op) && op != 0x82 && op != 0x83 && op != 0x84

/-- PUT_RECEIVE (R134, R135, R144, R146). -/
def runPutReceive (_f : FuseBank) (s : Sys) (hp : Nat) : Sys := inbound s hp famPut true true putIn
/-- GET_REQ_RECEIVE (R136, R144). -/
def runGetReqReceive (_f : FuseBank) (s : Sys) (hp : Nat) : Sys := inbound s hp (· == 3) false true fun s _ p => getIn s p
/-- ATOMIC_RECEIVE (R137, R138). -/
def runAtomicReceive (_f : FuseBank) (s : Sys) (hp : Nat) : Sys := inbound s hp isAtomicOp true true atomicIn
/-- PROBE_RECEIVE (R148, R151, R172). -/
def runProbeReceive (_f : FuseBank) (s : Sys) (hp : Nat) : Sys := inbound s hp (· == 8) true false probeIn
/-- RETIRE_RECEIVE (R155, R178). -/
def runRetireReceive (_f : FuseBank) (s : Sys) (hp : Nat) : Sys := inbound s hp (· == 9) true false retireIn
/-- SYNC_RECEIVE (R142). -/
def runSyncReceive (_f : FuseBank) (s : Sys) (hp : Nat) : Sys := inbound s hp (· == 0x0A) false false syncIn
/-- SEND_PACKET_RECEIVE (R161 to R171). -/
def runSendPacketReceive (_f : FuseBank) (s : Sys) (hp : Nat) : Sys := inbound s hp famSend true true sendIn

/-- RDV_GET at the source of a rendezvous (R174). -/
def rdvIn (s : Sys) (dev : Nat) (p : Packet) : Sys :=
  if checkTid s p = false then fatal s p 4
  else match (osnSeg s dev p.rkey).bind fun g => (getOp s g.op).map fun o => (g, o) with
  | some (g, o) =>
    if o.rts = true ∧ o.ctx = p.dctx ∧ p.offset + p.msglen ≤ o.len then
      readWanted (refreshSeg s g.idx) p ((o.laddr + p.offset) % 2 ^ 64)
    else fatal s p 4
  | none => if (getPeer s dev).ended.contains (p.rkey, p.dctx) then fatal s p 2 else fatal s p 4

/-- RDV_GET_RECEIVE (R174). -/
def runRdvGetReceive (_f : FuseBank) (s : Sys) (hp : Nat) : Sys := inbound s hp (· == 0x14) false true rdvIn

/-! ### Responses (R151) -/

/-- A response names in DCTX a context of a function on another host port (R238). -/
def otherPort (s : Sys) (hp : Nat) (p : Packet) : Bool := match getCtx s p.dctx with | some x => x.hp != hp | none => false

/-- A response: checked for length and CRC, with the device that sent it, or dropped and counted (R130, R131, R132, R238). -/
def response (s : Sys) (hp : Nat) (fam : Nat → Bool) (body : Sys → Nat → Packet → Sys) : Sys :=
  match takeEj s hp fam with
  | none => s
  | some (s, none) => s
  | some (t, some p) =>
    match lenCheck p, senderDev t p, decide (0x81 ≤ p.op ∧ p.op ≤ 0x84) && !otherPort t hp p with
    | true, some dev, true => settle (body t dev p)
    | _, _, _ => teDrop t p (ejCx s hp)

/-- A response belongs to the peer's present incarnation (R143). -/
def sameInc (s : Sys) (dev : Nat) (p : Packet) : Bool := (getPeer s dev).valid && p.tinc == (getPeer s dev).tinc

/-- The value that a fetching atomic has brought is kept, and written to LADDR (R137). -/
def takeValue (s : Sys) (g : Seg) (value : Nat) : Sys :=
  match getOp s g.op with
  | none => completeSeg s g
  | some o =>
    let n := wordSize (o.w56 % 256)
    let v := value % 2 ^ (8 * n)
    if (o.opc = 5 ∨ o.opc = 6) ∧ o.laddr ≠ 0 then
      startAcc (completeSeg (modOp s o.id fun x => { x with value := v, writes := x.writes + 1 }) g) o.ctx .lwrite o.laddr n (le n v) 0
        (.fetched o.id) none
    else completeSeg (modOp s o.id fun x => { x with value := if o.opc = 5 ∨ o.opc = 6 then v else 0 }) g

/-- The SYNC of a peer has been answered (R142). -/
def syncDone (s : Sys) (dev : Nat) (p : Packet) : Sys :=
  modPeer s dev fun x =>
    { x with valid := true, tinc := p.tinc, nextOsn := p.operand % 2 ^ 32, lastSend := 0, sync := none, syncAt := none, syncRetry := 0 }

/-- ACK at the source (Table 6.7). As every response, one whose TID is not that of the source context's PD ends the operation with ACCESS
    (R105). -/
def ackIn (s : Sys) (dev : Nat) (p : Packet) : Sys :=
  match (getPeer s dev).sync with
  | some (_, q) => if p.osn = q.osn ∧ (getPeer s dev).valid = false then syncDone s dev p else s
  | none =>
    if sameInc s dev p = false then s
    else match osnSeg s dev p.osn with
    | some g => if p.tid = tidOf s g.ctx then takeValue s g p.operand else segFail s g 4
    | none => if (getPeer s dev).retires.any (fun r => r.osn == p.osn) then retireDone s dev p.osn else s

/-- Pulls toward a device whose incarnation has changed end their receives (R143, R173). -/
def pullsReset (s : Sys) (dev : Nat) : Sys :=
  (s.te.segs.filter fun g => g.dev == dev && g.kind.isPull).foldl (fun s g => segFail s g 3) s

/-- A RETIRE has been refused (R155). -/
def retireNack (s : Sys) (dev : Nat) (p : Packet) (code after : Nat) : Sys :=
  if code = 3 then retireDone s dev p.osn
  else modRetire s dev p.osn fun r => { r with nackN := r.nackN + 1, at_ := none, due := some (frame s + after * 2 ^ min r.nackN 4) }

/-- NACK at the source (R143, R151, R152, Table 6.4). -/
def nackIn (s : Sys) (dev : Nat) (p : Packet) : Sys :=
  let code := p.operand % 256
  let status := bits p.operand 8 8
  let after := bits p.operand 16 16
  let op := bits p.operand 48 8
  let peer := getPeer s dev
  if code = 3 ∧ status = 3 then
    (if peer.valid = true ∧ bits p.operand 32 12 = peer.tinc then peerReset (pullsReset s dev) dev else s)
  else if sameInc s dev p = false then s
  else if op = 9 ∧ (peer.retires.any fun r => r.osn == p.osn) = true then retireNack s dev p code after
  else match (if op = 3 ∨ op = 0x14 then tagSeg s dev p.osn else osnSeg s dev p.osn) with
  | none => s
  | some g =>
    if p.tid ≠ tidOf s g.ctx then segFail s g 4
    else if code = 1 ∨ code = 2 then
      (match nackSeg s g p.pidx after with
       | (s, true) => segFail s g 10
       | (s, false) => s)
    else if code = 3 then segFail s g (if status = 0 ∨ 10 < status then 4 else status)
    else s

/-- SACK at the source (R151, R172). -/
def sackIn (s : Sys) (dev : Nat) (p : Packet) : Sys :=
  if sameInc s dev p = false then s
  else match osnSeg s dev p.osn with
  | none => s
  | some g =>
    if p.tid ≠ tidOf s g.ctx then segFail s g 4
    else
      let send := match getOp s g.op with | some o => o.opc == 0x10 | none => false
      let mask := p.operand % 2 ^ (g.pcnt + 1)
      let fresh := (List.range (g.pcnt + 1)).any fun i => mask.testBit i && !g.mask.testBit i
      let full := (List.range (g.pcnt + 1)).all fun i => mask.testBit i
      let s := modSeg s g.idx fun x =>
        { x with
          mask := x.mask ||| mask, nacks := x.nacks.filter fun e => !mask.testBit e.1, start := if full then frame s else x.start,
          tv := if full then timerNow s else x.tv }
      let s := if fresh || (send && p.operand.testBit 63) then refreshSeg s g.idx else s
      if full then s
      else match getSeg s g.idx with
      | some g => resend s g fun i => !mask.testBit i
      | none => s

/-- Where the data of a GET_RESP goes: context, address, steering (R136, R173, R220). -/
def landing (s : Sys) (g : Seg) (p : Packet) : Option (Nat × Nat × Option Nat) :=
  match g.kind with
  | .pull id => (getMsg s id).map fun m => (m.buf.1, (m.buf.2.1 + p.offset) % 2 ^ 64, msgSteer s m)
  | _ => (getOp s g.op).map fun o => (o.ctx, (o.laddr + 2 ^ 64 + p.offset - o.roff) % 2 ^ 64, none)

/-- The data of a GET_RESP that is written: for a pull only the bytes below the receive's LENGTH (R171). -/
def landData (s : Sys) (g : Seg) (p : Packet) : Bytes :=
  match g.kind with
  | .pull id => p.payload.take ((((getMsg s id).map fun m => m.buf.2.2).getD 0) - p.offset)
  | _ => p.payload

/-- GET_RESP at the requester (R105, R136, R173). -/
def respIn (s : Sys) (dev : Nat) (p : Packet) : Sys :=
  if sameInc s dev p = false then s
  else match tagSeg s dev p.osn with
  | none => s
  | some g =>
    if p.tid ≠ tidOf s g.ctx then segFail s g 4
    else if g.pcnt < p.pidx ∨ g.mask.testBit p.pidx = true then s
    else
      let s := refreshSeg (modSeg s g.idx fun x => { x with mask := x.mask ||| 2 ^ p.pidx }) g.idx
      let data := landData s g p
      if data.isEmpty then landCheck s g.idx
      else match landing s g p with
      | some (c, addr, steer) =>
        startAcc (modSeg s g.idx fun x => { x with writes := x.writes + 1 }) c .lwrite addr data.length data p.sfeid (.land p) steer
      | none => s

/-- TRANSPORT_ACK_RECEIVE. -/
def runTransportAckReceive (_f : FuseBank) (s : Sys) (hp : Nat) : Sys := response s hp famAck ackIn
/-- TRANSPORT_NACK_RECEIVE. -/
def runTransportNackReceive (_f : FuseBank) (s : Sys) (hp : Nat) : Sys := response s hp (· == 0x82) nackIn
/-- SACK_RECEIVE. -/
def runSackReceive (_f : FuseBank) (s : Sys) (hp : Nat) : Sys := response s hp (· == 0x83) sackIn
/-- GET_RESP_RECEIVE. -/
def runGetRespReceive (_f : FuseBank) (s : Sys) (hp : Nat) : Sys := response s hp (· == 0x84) respIn

/-! ### Completion and timers -/

/-- SEGMENT_COMPLETE_ACK (R147). -/
def runSegmentCompleteAck (_f : FuseBank) (s : Sys) (src osn : Nat) : Sys := settle (segmentCompleteAck s src osn)
/-- FINAL_SEGMENT_NOTIFY (R135, R148). -/
def runFinalSegmentNotify (_f : FuseBank) (s : Sys) (src osn : Nat) : Sys := settle (finalSegmentNotify s src osn)

/-- ASSEMBLY_TIMEOUT (R146): 200 frames without a packet of the segment. -/
def runAssemblyTimeout (_f : FuseBank) (s : Sys) (src osn : Nat) : Sys :=
  match getAsm s src osn with
  | some a => if a.waits = false ∧ a.last + 200 ≤ frame s then dropAsm s src osn else s
  | none => s

/-- RESULT_ENTRY_EXPIRY (R149). -/
def runResultEntryExpiry (_f : FuseBank) (s : Sys) (src osn : Nat) : Sys :=
  { s with te := { s.te with results := s.te.results.filter fun r => !(r.src == src && r.osn == osn && decide (r.start + 16384 ≤ frame s)) } }

/-- The wait of a SYNC has expired (R142). -/
def syncTimeout (s : Sys) (dev : Nat) : Sys :=
  let x := getPeer s dev
  match x.sync, x.syncAt with
  | some (hp, p), some t =>
    if frame s < t + waitOf x.tv x.syncRetry then s
    else if x.tv.2 ≤ x.syncRetry then
      let s := syncFailed s dev
      (s.me.msgs.filter fun m => m.src == dev && m.rts && m.recv.isSome && m.st == .taken && m.pullNext == 0 && pullCount m != 0).foldl
        (fun s m => pullFail s m.id 6) s
    else queueOwn (modPeer s dev fun y => { y with syncRetry := y.syncRetry + 1, syncAt := none }) hp { p with retx := true } (.sync dev)
  | _, _ => s

/-- The wait of a RETIRE has expired: it is sent again, and an exhausted schedule starts anew (R155). -/
def retireTimeout (s : Sys) (dev osn : Nat) : Sys :=
  match (getPeer s dev).retires.find? fun r => r.osn == osn with
  | some r =>
    match r.at_ with
    | some t =>
      if frame s < t + waitOf r.tv r.retry then s
      else sendRetire (modRetire s dev osn fun r => { r with at_ := none, retry := if r.tv.2 ≤ r.retry then 0 else r.retry + 1 }) dev r
    | none => s
  | none => s

/-- SEGMENT_TIMEOUT (R150): of a tracked segment, of a SYNC in flight, or of a RETIRE. -/
def runSegmentTimeout (_f : FuseBank) (s : Sys) (seg : Nat) : Sys :=
  settle (
    if seg < 131072 then
      match getSeg s seg with
      | some g =>
        if g.timed = false ∨ frame s < g.start + waitOf g.tv g.retry then s
        else if g.tv.2 ≤ g.retry then segFail s g 6 else retrySeg s g
      | none => s
    else if seg < 262144 then syncTimeout s (seg - 131072)
    else retireTimeout s ((seg - 262144) / 2 ^ 32) ((seg - 262144) % 2 ^ 32))

/-- NACK_RETRY_WAIT_EXPIRY (R152, R155): the refused packet, or the RETIRE, is sent again. -/
def runNackRetryWaitExpiry (_f : FuseBank) (s : Sys) (seg pidx : Nat) : Sys :=
  settle (
    if seg < 131072 then
      match getSeg s seg with
      | some g =>
        if g.nacks.any fun e => e.1 == pidx && (match e.2.2 with | some d => decide (d ≤ frame s) | none => false) then
          let s := modSeg s seg fun x => { x with nacks := x.nacks.map fun e => if e.1 = pidx then (e.1, e.2.1, none) else e }
          match g.kind, getSeg s seg with
          | .osn, _ => buildMore s seg
          | _, some g => resend s g fun _ => true
          | _, none => s
        else s
      | none => s
    else if seg < 262144 then s
    else
      let dev := (seg - 262144) / 2 ^ 32
      let osn := (seg - 262144) % 2 ^ 32
      match (getPeer s dev).retires.find? fun r => r.osn == osn with
      | some r =>
        match r.due with
        | some d => if frame s < d then s else sendRetire (modRetire s dev osn fun r => { r with due := none }) dev { r with at_ := some 0 }
        | none => s
      | none => s)

end Sys2Proof.Machine
end

