-- ==== Sys2Proof/Machine/Return.lean ====
section
/-!
DEFINITION. The CC's return and what the mailbox settles then (R48), and the steps of a hitless activation or of a revert (R400 to R402,
Table 16.9).
-/
namespace Sys2Proof.Machine

/-- A request that was held is executed (R48); one whose function was reset meanwhile, or is being reset, is gone (R451). -/
def serveHeld (f : FuseBank) (s : Sys) (h : Held) : Sys :=
  match h.req.who with
  | .fn hp fn =>
    let x := getFn s hp fn
    let s := modMbx s hp fn fun m => { m with held := false }
    if x.mbx.held ∧ x.flr = none then serveOp f s h.opcode h.req else s
  | .mctp _ => serveOp f s h.opcode h.req

/-- The CC is back (R48): the commands that its loss rolled back end INTERNAL, and held requests run in their order. -/
def ccBack (f : FuseBank) (s : Sys) : Sys :=
  let s := { s with svc := { s.svc with ccUp := true } }
  let s := endWait s (fun w => w == .lost) .internal []
  let hs := s.svc.held
  settle (hs.foldl (serveHeld f) { s with svc := { s.svc with held := [] } })

/-- CC_RETURN (R48, R405): the CC comes back from a restart with its slot's settings. -/
def runCcReturn (f : FuseBank) (s : Sys) : Sys :=
  if s.svc.ccUp = true ∨ s.upd.act.isSome ∨ dark s = true ∨ early s = true then s
  else ccBack f (loadSettings f s s.upd.run)

/-- The activation at another step. -/
def actTo (s : Sys) (a : Activation) (k : Nat) : Sys := { s with upd := { s.upd with act := some { a with step := k } } }

/-- A digest failed: the same steps lead back to the old images (R401). -/
def actFail (s : Sys) (a : Activation) : Sys :=
  { s with upd := { s.upd with act := some { a with slot := 1 - a.slot, step := 1, revert := true, failed := true } } }

/-- Step 1: the writes of R400 and the boot control record. -/
def actStep1 (s : Sys) (a : Activation) : Sys :=
  let b := if a.revert then none else some (getSlot s a.slot, s.upd.trialWin)
  let s := bootWrite s <| if a.revert then slotTo (slotTo s a.slot .active) (1 - a.slot) .invalid
    else slotTo (activateWrites s a.slot .trial a.trialEpochs) s.upd.run .backup
  actTo s { a with before := b } 2

/-- Step 4: the CC starts from the slot's image, with that slot's settings, and the measurements follow (R378, R405). -/
def actStep4 (f : FuseBank) (s : Sys) (a : Activation) : Sys :=
  let s : Sys := { s with upd := { s.upd with run := a.slot, gen := s.upd.gen + 1 }, sec := { s.sec with meas := hitlessMeas s a.slot } }
  actTo (loadSettings f s a.slot) a 5

/-- Step 5: fetching resumes, the mailbox settles, sessions end, the lock is released, UPDATE_ACTIVATE ends, and a trial begins; after a
    roll-back (R46) sessions and lock stay. -/
def actStep5 (f : FuseBank) (s : Sys) (a : Activation) : Sys :=
  let s : Sys := { s with upd := { s.upd with act := none } }
  let s := if a.undo then s else endSessions (releaseLock s) (fun _ => true) 4 fun _ => false
  let s := endWait s (fun w => w == .activate) (if a.failed then .internal else .ok) []
  ccBack f (if a.revert = false ∧ (getSlot s a.slot).st = .trial then startTrial s else s)

/-- ACTIVATION_STEP (R401, R402): the step that runs completes. `digestOk` is the digest check of steps 3 and 4; a revert is not checked
    again. -/
def runActivationStep (f : FuseBank) (s : Sys) (digestOk : Bool) : Sys :=
  if dark s then s
  else match s.upd.act with
  | none => s
  | some a =>
    let bad := !digestOk && !a.revert
    match a.step with
    | 1 => actStep1 s a
    | 2 => actTo s { a with stopped := true } 3
    | 3 => if bad then actFail s a else actTo (if s.svc.ccUp then ccLost s true else s) a 4
    | 4 => if bad then actFail s a else actStep4 f s a
    | _ => actStep5 f s a

end Sys2Proof.Machine
end

