-- ==== Sys2Proof/Machine/Exec.lean ====
section
/-!
DEFINITION. One meaning for every command: the effect of the command on the device, and nothing on the queue. Only the end of
a fuse operation touches the fuse bank (R382, R403).
-/
namespace Sys2Proof.Machine

/-- The device changed, its fuses and queue kept. -/
def State.on (s : State) (g : FuseBank → Sys → Sys) : State := { s with sys := g s.fuse s.sys }

/-- POWER_ON_RESET. -/
def execPowerOnReset (straps : Straps) (s : State) : Host.Outcome State Fault Refusal :=
  .next (s.on fun f y => runPowerOnReset f y straps)

/-- RESET_N_ASSERT. -/
def execResetNAssert (s : State) : Host.Outcome State Fault Refusal :=
  .next (s.on fun f y => runResetNAssert f y)

/-- PWR_OK_FALL. -/
def execPwrOkFall (s : State) : Host.Outcome State Fault Refusal :=
  .next (s.on fun f y => runPwrOkFall f y)

/-- WIPE_COMPLETE. -/
def execWipeComplete (misrOk : Bool) (flashOk : Bool) (badTags : List (Nat × Nat)) (s : State) : Host.Outcome State Fault Refusal :=
  .next (s.on fun f y => runWipeComplete f y misrOk flashOk badTags)

/-- BOOT_COMPLETE. -/
def execBootComplete (s : State) : Host.Outcome State Fault Refusal :=
  .next (s.on fun f y => runBootComplete f y)

/-- THERMAL_COOLDOWN_RELEASE. -/
def execThermalCooldownRelease (temps : List Int) (badTags : List (Nat × Nat)) (s : State) : Host.Outcome State Fault Refusal :=
  .next (s.on fun f y => runThermalCooldownRelease f y temps badTags)

/-- FRU_READ. -/
def execFruRead (recs : List FruRec) (s : State) : Host.Outcome State Fault Refusal :=
  .next (s.on fun f y => runFruRead f y recs)

/-- TIME_GATE_SETTLE_EXPIRY. -/
def execTimeGateSettleExpiry (s : State) : Host.Outcome State Fault Refusal :=
  .next (s.on fun f y => runTimeGateSettleExpiry f y)

/-- TABLE_DERIVE. -/
def execTableDerive (s : State) : Host.Outcome State Fault Refusal :=
  .next (s.on fun f y => runTableDerive f y)

/-- SWITCH_EPOCH_FREEZE. -/
def execSwitchEpochFreeze (s : State) : Host.Outcome State Fault Refusal :=
  .next (s.on fun f y => runSwitchEpochFreeze f y)

/-- TABLE_MODE_SWITCH. -/
def execTableModeSwitch (s : State) : Host.Outcome State Fault Refusal :=
  .next (s.on fun f y => runTableModeSwitch f y)

/-- FRAME_TICK. -/
def execFrameTick (cages : List CageIn) (temps : List Int) (s : State) : Host.Outcome State Fault Refusal :=
  .next (s.on fun f y => runFrameTick f y cages temps)

/-- EPOCH_TICK. -/
def execEpochTick (meas : EpochIn) (s : State) : Host.Outcome State Fault Refusal :=
  .next (s.on fun f y => runEpochTick f y meas)

/-- TASK_OVERRUN. -/
def execTaskOverrun (task : Nat) (port : Nat) (s : State) : Host.Outcome State Fault Refusal :=
  .next (s.on fun f y => runTaskOverrun f y task port)

/-- EPOCH_TASK_OVERRUN. -/
def execEpochTaskOverrun (task : Nat) (s : State) : Host.Outcome State Fault Refusal :=
  .next (s.on fun f y => runEpochTaskOverrun f y task)

/-- ROUTE_WEIGHT_RECOMPUTE. -/
def execRouteWeightRecompute (s : State) : Host.Outcome State Fault Refusal :=
  .next (s.on fun f y => runRouteWeightRecompute f y)

/-- PLACEMENT_BATCH. -/
def execPlacementBatch (s : State) : Host.Outcome State Fault Refusal :=
  .next (s.on fun f y => runPlacementBatch f y)

/-- CC_WATCHDOG_RESTART. -/
def execCcWatchdogRestart (s : State) : Host.Outcome State Fault Refusal :=
  .next (s.on fun f y => runCcWatchdogRestart f y)

/-- TARN_WATCHDOG_RESET. -/
def execTarnWatchdogReset (s : State) : Host.Outcome State Fault Refusal :=
  .next (s.on fun f y => runTarnWatchdogReset f y)

/-- CC_RETURN. -/
def execCcReturn (s : State) : Host.Outcome State Fault Refusal :=
  .next (s.on fun f y => runCcReturn f y)

/-- COUNTER_DUMP. -/
def execCounterDump (hp : Nat) (fn : Nat) (s : State) : Host.Outcome State Fault Refusal :=
  .next (s.on fun f y => runCounterDump f y hp fn)

/-- SESSION_IDLE_EXPIRY. -/
def execSessionIdleExpiry (token : Nat) (s : State) : Host.Outcome State Fault Refusal :=
  .next (s.on fun f y => runSessionIdleExpiry f y token)

/-- CHALLENGE_EXPIRY. -/
def execChallengeExpiry (who : Requester) (s : State) : Host.Outcome State Fault Refusal :=
  .next (s.on fun f y => runChallengeExpiry f y who)

/-- TIME_SEND. -/
def execTimeSend (port : Nat) (s : State) : Host.Outcome State Fault Refusal :=
  .next (s.on fun f y => runTimeSend f y port)

/-- TIME_RECEIVE. -/
def execTimeReceive (port : Nat) (hdr : CtlHdr) (m : TimeMsg) (cycle : Nat) (block : Nat) (s : State) : Host.Outcome State Fault Refusal :=
  .next (s.on fun f y => runTimeReceive f y port hdr m cycle block)

/-- PPS_EDGE. -/
def execPpsEdge (stamp : Nat) (s : State) : Host.Outcome State Fault Refusal :=
  .next (s.on fun f y => runPpsEdge f y stamp)

/-- LINK_HOLDOFF_EXPIRY. -/
def execLinkHoldoffExpiry (port : Nat) (s : State) : Host.Outcome State Fault Refusal :=
  .next (s.on fun f y => runLinkHoldoffExpiry f y port)

/-- TRAINING_PHASE_DONE. -/
def execTrainingPhaseDone (port : Nat) (rxFec : Nat) (skew : Int) (s : State) : Host.Outcome State Fault Refusal :=
  .next (s.on fun f y => runTrainingPhaseDone f y port rxFec skew)

/-- TRAINING_PHASE_TIMEOUT. -/
def execTrainingPhaseTimeout (port : Nat) (signal : Bool) (s : State) : Host.Outcome State Fault Refusal :=
  .next (s.on fun f y => runTrainingPhaseTimeout f y port signal)

/-- INIT_RECEIVE. -/
def execInitReceive (port : Nat) (hdr : CtlHdr) (m : InitMsg) (s : State) : Host.Outcome State Fault Refusal :=
  .next (s.on fun f y => runInitReceive f y port hdr m)

/-- INIT_TIMEOUT. -/
def execInitTimeout (port : Nat) (s : State) : Host.Outcome State Fault Refusal :=
  .next (s.on fun f y => runInitTimeout f y port)

/-- LL_PACKET_RECEIVE. -/
def execLlPacketReceive (port : Nat) (hcrc : Nat) (marks : List Nat) (p : Packet) (cut : Option Nat) (s : State) : Host.Outcome State Fault Refusal :=
  .next (s.on fun f y => runLlPacketReceive f y port hcrc marks p cut)

/-- LL_ACK_SEND. -/
def execLlAckSend (port : Nat) (s : State) : Host.Outcome State Fault Refusal :=
  .next (s.on fun f y => runLlAckSend f y port)

/-- LL_ACK_RECEIVE. -/
def execLlAckReceive (port : Nat) (hdr : CtlHdr) (m : AckMsg) (s : State) : Host.Outcome State Fault Refusal :=
  .next (s.on fun f y => runLlAckReceive f y port hdr m)

/-- LL_NACK_RECEIVE. -/
def execLlNackReceive (port : Nat) (hdr : CtlHdr) (m : NackMsg) (s : State) : Host.Outcome State Fault Refusal :=
  .next (s.on fun f y => runLlNackReceive f y port hdr m)

/-- CRED_SYNC_RECEIVE. -/
def execCredSyncReceive (port : Nat) (hdr : CtlHdr) (m : CredMsg) (s : State) : Host.Outcome State Fault Refusal :=
  .next (s.on fun f y => runCredSyncReceive f y port hdr m)

/-- REPLAY_TIMER_EXPIRY. -/
def execReplayTimerExpiry (port : Nat) (s : State) : Host.Outcome State Fault Refusal :=
  .next (s.on fun f y => runReplayTimerExpiry f y port)

/-- RIPPLE_RECEIVE. -/
def execRippleReceive (port : Nat) (hdr : CtlHdr) (m : Ripple) (s : State) : Host.Outcome State Fault Refusal :=
  .next (s.on fun f y => runRippleReceive f y port hdr m)

/-- LANE_RECEIVE. -/
def execLaneReceive (port : Nat) (hdr : CtlHdr) (m : LaneMsg) (s : State) : Host.Outcome State Fault Refusal :=
  .next (s.on fun f y => runLaneReceive f y port hdr m)

/-- LANE_REQ_TIMEOUT. -/
def execLaneReqTimeout (port : Nat) (s : State) : Host.Outcome State Fault Refusal :=
  .next (s.on fun f y => runLaneReqTimeout f y port)

/-- LANE_ADD_REQUEST. -/
def execLaneAddRequest (port : Nat) (s : State) : Host.Outcome State Fault Refusal :=
  .next (s.on fun f y => runLaneAddRequest f y port)

/-- LINK_DOWN_RECEIVE. -/
def execLinkDownReceive (port : Nat) (hdr : CtlHdr) (cause : Nat) (s : State) : Host.Outcome State Fault Refusal :=
  .next (s.on fun f y => runLinkDownReceive f y port hdr cause)

/-- SILENT_TIMEOUT. -/
def execSilentTimeout (port : Nat) (s : State) : Host.Outcome State Fault Refusal :=
  .next (s.on fun f y => runSilentTimeout f y port)

/-- LOS_DECLARE. -/
def execLosDeclare (port : Nat) (s : State) : Host.Outcome State Fault Refusal :=
  .next (s.on fun f y => runLosDeclare f y port)

/-- LOS_ASSERT. -/
def execLosAssert (port : Nat) (lane : Nat) (s : State) : Host.Outcome State Fault Refusal :=
  .next (s.on fun f y => runLosAssert f y port lane)

/-- LOCK_LOSS. -/
def execLockLoss (port : Nat) (lane : Nat) (s : State) : Host.Outcome State Fault Refusal :=
  .next (s.on fun f y => runLockLoss f y port lane)

/-- ALIGNMENT_LOSS. -/
def execAlignmentLoss (port : Nat) (s : State) : Host.Outcome State Fault Refusal :=
  .next (s.on fun f y => runAlignmentLoss f y port)

/-- QUAD_PLL_UNLOCK. -/
def execQuadPllUnlock (quad : Nat) (s : State) : Host.Outcome State Fault Refusal :=
  .next (s.on fun f y => runQuadPllUnlock f y quad)

/-- QUAD_PLL_RELOCK. -/
def execQuadPllRelock (quad : Nat) (s : State) : Host.Outcome State Fault Refusal :=
  .next (s.on fun f y => runQuadPllRelock f y quad)

/-- REFCLK_LOSS. -/
def execRefclkLoss (ref : Nat) (s : State) : Host.Outcome State Fault Refusal :=
  .next (s.on fun f y => runRefclkLoss f y ref)

/-- PACKET_TRANSMIT. -/
def execPacketTransmit (port : Nat) (cycle : Nat) (block : Nat) (s : State) : Host.Outcome State Fault Refusal :=
  .next (s.on fun f y => runPacketTransmit f y port cycle block)

/-- PACKET_ROUTE. -/
def execPacketRoute (cx : Nat) (vc : Nat) (s : State) : Host.Outcome State Fault Refusal :=
  .next (s.on fun f y => runPacketRoute f y cx vc)

/-- ROUTE_RECOMPUTE. -/
def execRouteRecompute (cx : Nat) (vc : Nat) (s : State) : Host.Outcome State Fault Refusal :=
  .next (s.on fun f y => runRouteRecompute f y cx vc)

/-- OUTPUT_ALLOCATE. -/
def execOutputAllocate (cx : Nat) (vc : Nat) (s : State) : Host.Outcome State Fault Refusal :=
  .next (s.on fun f y => runOutputAllocate f y cx vc)

/-- ESCAPE_MOVE. -/
def execEscapeMove (cx : Nat) (vc : Nat) (s : State) : Host.Outcome State Fault Refusal :=
  .next (s.on fun f y => runEscapeMove f y cx vc)

/-- AGE_SWEEP. -/
def execAgeSweep (s : State) : Host.Outcome State Fault Refusal :=
  .next (s.on fun f y => runAgeSweep f y)

/-- TABLE_SWITCH. -/
def execTableSwitch (s : State) : Host.Outcome State Fault Refusal :=
  .next (s.on fun f y => runTableSwitch f y)

/-- ESCAPE_FREEZE_END. -/
def execEscapeFreezeEnd (s : State) : Host.Outcome State Fault Refusal :=
  .next (s.on fun f y => runEscapeFreezeEnd f y)

/-- MODE_CHANGE_START. -/
def execModeChangeStart (s : State) : Host.Outcome State Fault Refusal :=
  .next (s.on fun f y => runModeChangeStart f y)

/-- MODE_TRANSFER_END. -/
def execModeTransferEnd (s : State) : Host.Outcome State Fault Refusal :=
  .next (s.on fun f y => runModeTransferEnd f y)

/-- HELLO_SEND. -/
def execHelloSend (port : Nat) (s : State) : Host.Outcome State Fault Refusal :=
  .next (s.on fun f y => runHelloSend f y port)

/-- HELLO_RECEIVE. -/
def execHelloReceive (s : State) : Host.Outcome State Fault Refusal :=
  .next (s.on fun f y => runHelloReceive f y)

/-- HELLO_EXPIRY. -/
def execHelloExpiry (port : Nat) (s : State) : Host.Outcome State Fault Refusal :=
  .next (s.on fun f y => runHelloExpiry f y port)

/-- DATAGRAM_RECEIVE. -/
def execDatagramReceive (s : State) : Host.Outcome State Fault Refusal :=
  .next (s.on fun f y => runDatagramReceive f y)

/-- SQ_TAIL_WRITE. -/
def execSqTailWrite (hp : Nat) (fn : Nat) (page : Nat) (value : Nat) (s : State) : Host.Outcome State Fault Refusal :=
  .next (s.on fun f y => runSqTailWrite f y hp fn page value)

/-- INLINE_PUSH. -/
def execInlinePush (hp : Nat) (fn : Nat) (page : Nat) (off : Nat) (data : Bytes) (s : State) : Host.Outcome State Fault Refusal :=
  .next (s.on fun f y => runInlinePush f y hp fn page off data)

/-- EQ_HEAD_WRITE. -/
def execEqHeadWrite (hp : Nat) (fn : Nat) (page : Nat) (value : Nat) (s : State) : Host.Outcome State Fault Refusal :=
  .next (s.on fun f y => runEqHeadWrite f y hp fn page value)

/-- ADMIN_HEAD_WRITE. -/
def execAdminHeadWrite (hp : Nat) (fn : Nat) (value : Nat) (s : State) : Host.Outcome State Fault Refusal :=
  .next (s.on fun f y => runAdminHeadWrite f y hp fn value)

/-- XFAULT_HEAD_WRITE. -/
def execXfaultHeadWrite (hp : Nat) (fn : Nat) (value : Nat) (s : State) : Host.Outcome State Fault Refusal :=
  .next (s.on fun f y => runXfaultHeadWrite f y hp fn value)

/-- REGISTER_WRITE. -/
def execRegisterWrite (hp : Nat) (fn : Nat) (off : RegAt) (width : Nat) (value : Nat) (s : State) : Host.Outcome State Fault Refusal :=
  .next (s.on fun f y => runRegisterWrite f y hp fn off width value)

/-- DESCRIPTOR_FETCH. -/
def execDescriptorFetch (ctx : Nat) (s : State) : Host.Outcome State Fault Refusal :=
  .next (s.on fun f y => runDescriptorFetch f y ctx)

/-- PUT. -/
def execPut (ctx : Nat) (s : State) : Host.Outcome State Fault Refusal :=
  .next (s.on fun f y => runPut f y ctx)

/-- PUT_IMM. -/
def execPutImm (ctx : Nat) (s : State) : Host.Outcome State Fault Refusal :=
  .next (s.on fun f y => runPutImm f y ctx)

/-- GET. -/
def execGet (ctx : Nat) (s : State) : Host.Outcome State Fault Refusal :=
  .next (s.on fun f y => runGet f y ctx)

/-- ATOMIC. -/
def execAtomic (ctx : Nat) (s : State) : Host.Outcome State Fault Refusal :=
  .next (s.on fun f y => runAtomic f y ctx)

/-- FETCH_ATOMIC. -/
def execFetchAtomic (ctx : Nat) (s : State) : Host.Outcome State Fault Refusal :=
  .next (s.on fun f y => runFetchAtomic f y ctx)

/-- CSWAP. -/
def execCswap (ctx : Nat) (s : State) : Host.Outcome State Fault Refusal :=
  .next (s.on fun f y => runCswap f y ctx)

/-- SEND. -/
def execSend (ctx : Nat) (s : State) : Host.Outcome State Fault Refusal :=
  .next (s.on fun f y => runSend f y ctx)

/-- RECV_POST. -/
def execRecvPost (ctx : Nat) (s : State) : Host.Outcome State Fault Refusal :=
  .next (s.on fun f y => runRecvPost f y ctx)

/-- RECV_CANCEL. -/
def execRecvCancel (ctx : Nat) (s : State) : Host.Outcome State Fault Refusal :=
  .next (s.on fun f y => runRecvCancel f y ctx)

/-- COL_START. -/
def execColStart (ctx : Nat) (s : State) : Host.Outcome State Fault Refusal :=
  .next (s.on fun f y => runColStart f y ctx)

/-- FENCE_NOP. -/
def execFenceNop (ctx : Nat) (s : State) : Host.Outcome State Fault Refusal :=
  .next (s.on fun f y => runFenceNop f y ctx)

/-- XLAT_INVALIDATE_RING. -/
def execXlatInvalidateRing (ctx : Nat) (s : State) : Host.Outcome State Fault Refusal :=
  .next (s.on fun f y => runXlatInvalidateRing f y ctx)

/-- DEFERRED_POST_RELEASE. -/
def execDeferredPostRelease (ctx : Nat) (s : State) : Host.Outcome State Fault Refusal :=
  .next (s.on fun f y => runDeferredPostRelease f y ctx)

/-- SEGMENT_ISSUE. -/
def execSegmentIssue (op : Nat) (s : State) : Host.Outcome State Fault Refusal :=
  .next (s.on fun f y => runSegmentIssue f y op)

/-- PACKET_INJECT. -/
def execPacketInject (hp : Nat) (s : State) : Host.Outcome State Fault Refusal :=
  .next (s.on fun f y => runPacketInject f y hp)

/-- MODERATION_TIMER_EXPIRY. -/
def execModerationTimerExpiry (ctx : Nat) (s : State) : Host.Outcome State Fault Refusal :=
  .next (s.on fun f y => runModerationTimerExpiry f y ctx)

/-- FUNCTION_LEVEL_RESET. -/
def execFunctionLevelReset (hp : Nat) (fn : Nat) (s : State) : Host.Outcome State Fault Refusal :=
  .next (s.on fun f y => runFunctionLevelReset f y hp fn)

/-- FLR_CLEANUP. -/
def execFlrCleanup (hp : Nat) (fn : Nat) (s : State) : Host.Outcome State Fault Refusal :=
  .next (s.on fun f y => runFlrCleanup f y hp fn)

/-- HOST_PORT_RESET. -/
def execHostPortReset (hp : Nat) (linkB : Bool) (cause : Nat) (s : State) : Host.Outcome State Fault Refusal :=
  .next (s.on fun f y => runHostPortReset f y hp linkB cause)

/-- PERST_DEASSERT. -/
def execPerstDeassert (hp : Nat) (linkB : Bool) (s : State) : Host.Outcome State Fault Refusal :=
  .next (s.on fun f y => runPerstDeassert f y hp linkB)

/-- VF_ENABLE_CLEAR. -/
def execVfEnableClear (hp : Nat) (linkB : Bool) (s : State) : Host.Outcome State Fault Refusal :=
  .next (s.on fun f y => runVfEnableClear f y hp linkB)

/-- VF_ENABLE_SET. -/
def execVfEnableSet (hp : Nat) (linkB : Bool) (s : State) : Host.Outcome State Fault Refusal :=
  .next (s.on fun f y => runVfEnableSet f y hp linkB)

/-- HOST_READ_COMPLETION. -/
def execHostReadCompletion (hp : Nat) (tag : Nat) (ok : Bool) (poisoned : Bool) (data : Bytes) (s : State) : Host.Outcome State Fault Refusal :=
  .next (s.on fun f y => runHostReadCompletion f y hp tag ok poisoned data)

/-- HOST_COMPLETION_TIMEOUT. -/
def execHostCompletionTimeout (hp : Nat) (tag : Nat) (s : State) : Host.Outcome State Fault Refusal :=
  .next (s.on fun f y => runHostCompletionTimeout f y hp tag)

/-- PUT_RECEIVE. -/
def execPutReceive (hp : Nat) (s : State) : Host.Outcome State Fault Refusal :=
  .next (s.on fun f y => runPutReceive f y hp)

/-- GET_REQ_RECEIVE. -/
def execGetReqReceive (hp : Nat) (s : State) : Host.Outcome State Fault Refusal :=
  .next (s.on fun f y => runGetReqReceive f y hp)

/-- ATOMIC_RECEIVE. -/
def execAtomicReceive (hp : Nat) (s : State) : Host.Outcome State Fault Refusal :=
  .next (s.on fun f y => runAtomicReceive f y hp)

/-- PROBE_RECEIVE. -/
def execProbeReceive (hp : Nat) (s : State) : Host.Outcome State Fault Refusal :=
  .next (s.on fun f y => runProbeReceive f y hp)

/-- RETIRE_RECEIVE. -/
def execRetireReceive (hp : Nat) (s : State) : Host.Outcome State Fault Refusal :=
  .next (s.on fun f y => runRetireReceive f y hp)

/-- SYNC_RECEIVE. -/
def execSyncReceive (hp : Nat) (s : State) : Host.Outcome State Fault Refusal :=
  .next (s.on fun f y => runSyncReceive f y hp)

/-- SEND_PACKET_RECEIVE. -/
def execSendPacketReceive (hp : Nat) (s : State) : Host.Outcome State Fault Refusal :=
  .next (s.on fun f y => runSendPacketReceive f y hp)

/-- RDV_GET_RECEIVE. -/
def execRdvGetReceive (hp : Nat) (s : State) : Host.Outcome State Fault Refusal :=
  .next (s.on fun f y => runRdvGetReceive f y hp)

/-- SEGMENT_COMPLETE_ACK. -/
def execSegmentCompleteAck (src : Nat) (osn : Nat) (s : State) : Host.Outcome State Fault Refusal :=
  .next (s.on fun f y => runSegmentCompleteAck f y src osn)

/-- FINAL_SEGMENT_NOTIFY. -/
def execFinalSegmentNotify (src : Nat) (osn : Nat) (s : State) : Host.Outcome State Fault Refusal :=
  .next (s.on fun f y => runFinalSegmentNotify f y src osn)

/-- ASSEMBLY_TIMEOUT. -/
def execAssemblyTimeout (src : Nat) (osn : Nat) (s : State) : Host.Outcome State Fault Refusal :=
  .next (s.on fun f y => runAssemblyTimeout f y src osn)

/-- RESULT_ENTRY_EXPIRY. -/
def execResultEntryExpiry (src : Nat) (osn : Nat) (s : State) : Host.Outcome State Fault Refusal :=
  .next (s.on fun f y => runResultEntryExpiry f y src osn)

/-- TRANSPORT_ACK_RECEIVE. -/
def execTransportAckReceive (hp : Nat) (s : State) : Host.Outcome State Fault Refusal :=
  .next (s.on fun f y => runTransportAckReceive f y hp)

/-- TRANSPORT_NACK_RECEIVE. -/
def execTransportNackReceive (hp : Nat) (s : State) : Host.Outcome State Fault Refusal :=
  .next (s.on fun f y => runTransportNackReceive f y hp)

/-- SACK_RECEIVE. -/
def execSackReceive (hp : Nat) (s : State) : Host.Outcome State Fault Refusal :=
  .next (s.on fun f y => runSackReceive f y hp)

/-- GET_RESP_RECEIVE. -/
def execGetRespReceive (hp : Nat) (s : State) : Host.Outcome State Fault Refusal :=
  .next (s.on fun f y => runGetRespReceive f y hp)

/-- SEGMENT_TIMEOUT. -/
def execSegmentTimeout (seg : Nat) (s : State) : Host.Outcome State Fault Refusal :=
  .next (s.on fun f y => runSegmentTimeout f y seg)

/-- NACK_RETRY_WAIT_EXPIRY. -/
def execNackRetryWaitExpiry (seg : Nat) (pidx : Nat) (s : State) : Host.Outcome State Fault Refusal :=
  .next (s.on fun f y => runNackRetryWaitExpiry f y seg pidx)

/-- RDV_PULL_ISSUE. -/
def execRdvPullIssue (msg : Nat) (s : State) : Host.Outcome State Fault Refusal :=
  .next (s.on fun f y => runRdvPullIssue f y msg)

/-- DEFERRED_MEMBER_CHOICE. -/
def execDeferredMemberChoice (msg : Nat) (s : State) : Host.Outcome State Fault Refusal :=
  .next (s.on fun f y => runDeferredMemberChoice f y msg)

/-- COL_JOIN_RECEIVE. -/
def execColJoinReceive (s : State) : Host.Outcome State Fault Refusal :=
  .next (s.on fun f y => runColJoinReceive f y)

/-- COL_JOIN_RESEND. -/
def execColJoinResend (mgid : Nat) (s : State) : Host.Outcome State Fault Refusal :=
  .next (s.on fun f y => runColJoinResend f y mgid)

/-- COL_SETUP_RECEIVE. -/
def execColSetupReceive (s : State) : Host.Outcome State Fault Refusal :=
  .next (s.on fun f y => runColSetupReceive f y)

/-- COL_READY_RECEIVE. -/
def execColReadyReceive (s : State) : Host.Outcome State Fault Refusal :=
  .next (s.on fun f y => runColReadyReceive f y)

/-- COL_GO_RECEIVE. -/
def execColGoReceive (s : State) : Host.Outcome State Fault Refusal :=
  .next (s.on fun f y => runColGoReceive f y)

/-- COL_FAIL_RECEIVE. -/
def execColFailReceive (s : State) : Host.Outcome State Fault Refusal :=
  .next (s.on fun f y => runColFailReceive f y)

/-- JOIN_TIMER_EXPIRY. -/
def execJoinTimerExpiry (mgid : Nat) (s : State) : Host.Outcome State Fault Refusal :=
  .next (s.on fun f y => runJoinTimerExpiry f y mgid)

/-- COL_UP_RECEIVE. -/
def execColUpReceive (s : State) : Host.Outcome State Fault Refusal :=
  .next (s.on fun f y => runColUpReceive f y)

/-- CONTRIBUTION_READ. -/
def execContributionRead (mgid : Nat) (ctx : Nat) (s : State) : Host.Outcome State Fault Refusal :=
  .next (s.on fun f y => runContributionRead f y mgid ctx)

/-- CHUNK_COMBINE. -/
def execChunkCombine (mgid : Nat) (s : State) : Host.Outcome State Fault Refusal :=
  .next (s.on fun f y => runChunkCombine f y mgid)

/-- COL_DOWN_RECEIVE. -/
def execColDownReceive (s : State) : Host.Outcome State Fault Refusal :=
  .next (s.on fun f y => runColDownReceive f y)

/-- COL_DONE_RECEIVE. -/
def execColDoneReceive (s : State) : Host.Outcome State Fault Refusal :=
  .next (s.on fun f y => runColDoneReceive f y)

/-- COL_CRED_RECEIVE. -/
def execColCredReceive (s : State) : Host.Outcome State Fault Refusal :=
  .next (s.on fun f y => runColCredReceive f y)

/-- COL_CRED_SEND. -/
def execColCredSend (mgid : Nat) (s : State) : Host.Outcome State Fault Refusal :=
  .next (s.on fun f y => runColCredSend f y mgid)

/-- COL_BEAT_SEND. -/
def execColBeatSend (mgid : Nat) (s : State) : Host.Outcome State Fault Refusal :=
  .next (s.on fun f y => runColBeatSend f y mgid)

/-- COL_BEAT_RECEIVE. -/
def execColBeatReceive (s : State) : Host.Outcome State Fault Refusal :=
  .next (s.on fun f y => runColBeatReceive f y)

/-- NEIGHBOUR_LOST. -/
def execNeighbourLost (mgid : Nat) (feid : Nat) (s : State) : Host.Outcome State Fault Refusal :=
  .next (s.on fun f y => runNeighbourLost f y mgid feid)

/-- CAGE_FAST_TRIP. -/
def execCageFastTrip (cage : Nat) (s : State) : Host.Outcome State Fault Refusal :=
  .next (s.on fun f y => runCageFastTrip f y cage)

/-- CAGE_BACKSTOP. -/
def execCageBackstop (cage : Nat) (s : State) : Host.Outcome State Fault Refusal :=
  .next (s.on fun f y => runCageBackstop f y cage)

/-- MODULE_BRINGUP. -/
def execModuleBringup (cage : Nat) (passive : Bool) (maxPower : Nat) (mismatch : List Nat) (cableLen : Nat) (s : State) : Host.Outcome State Fault Refusal :=
  .next (s.on fun f y => runModuleBringup f y cage passive maxPower mismatch cableLen)

/-- MODULE_READY. -/
def execModuleReady (cage : Nat) (txfir : Nat) (s : State) : Host.Outcome State Fault Refusal :=
  .next (s.on fun f y => runModuleReady f y cage txfir)

/-- MODULE_TIMEOUT. -/
def execModuleTimeout (cage : Nat) (s : State) : Host.Outcome State Fault Refusal :=
  .next (s.on fun f y => runModuleTimeout f y cage)

/-- MODULE_INTERRUPT. -/
def execModuleInterrupt (cage : Nat) (alarm : Option Nat) (dpFault : List Nat) (s : State) : Host.Outcome State Fault Refusal :=
  .next (s.on fun f y => runModuleInterrupt f y cage alarm dpFault)

/-- MODULE_LOW_POWER. -/
def execModuleLowPower (cage : Nat) (s : State) : Host.Outcome State Fault Refusal :=
  .next (s.on fun f y => runModuleLowPower f y cage)

/-- DOMAIN_POWER_UP. -/
def execDomainPowerUp (swd : Nat) (s : State) : Host.Outcome State Fault Refusal :=
  .next (s.on fun f y => runDomainPowerUp f y swd)

/-- DOMAIN_POWER_COMPLETE. -/
def execDomainPowerComplete (swd : Nat) (s : State) : Host.Outcome State Fault Refusal :=
  .next (s.on fun f y => runDomainPowerComplete f y swd)

/-- THERMAL_TRIP. -/
def execThermalTrip (sensor : Nat) (reading : Int) (s : State) : Host.Outcome State Fault Refusal :=
  .next (s.on fun f y => runThermalTrip f y sensor reading)

/-- DROOP_STRETCH. -/
def execDroopStretch (region : Nat) (s : State) : Host.Outcome State Fault Refusal :=
  .next (s.on fun f y => runDroopStretch f y region)

/-- FAULT_HANDLING_END. -/
def execFaultHandlingEnd (src : Nat) (s : State) : Host.Outcome State Fault Refusal :=
  .next (s.on fun f y => runFaultHandlingEnd f y src)

/-- FAULT_FLOOR_DECAY. -/
def execFaultFloorDecay (src : Nat) (s : State) : Host.Outcome State Fault Refusal :=
  .next (s.on fun f y => runFaultFloorDecay f y src)

/-- FAULT_AUTORESET. -/
def execFaultAutoreset (s : State) : Host.Outcome State Fault Refusal :=
  .next (s.on fun f y => runFaultAutoreset f y)

/-- LOG_COMMIT. -/
def execLogCommit (s : State) : Host.Outcome State Fault Refusal :=
  .next (s.on fun f y => runLogCommit f y)

/-- MCTP_CONTROL_MESSAGE. -/
def execMctpControlMessage (bus : Nat) (src : Nat) (eid : Nat) (msg : Bytes) (s : State) : Host.Outcome State Fault Refusal :=
  .next (s.on fun f y => runMctpControlMessage f y bus src eid msg)

/-- ABORT_COMPLETE. -/
def execAbortComplete (ctx : Nat) (s : State) : Host.Outcome State Fault Refusal :=
  .next (s.on fun f y => runAbortComplete f y ctx)

/-- ABORT_BOUND_REACHED. -/
def execAbortBoundReached (ctx : Nat) (s : State) : Host.Outcome State Fault Refusal :=
  .next (s.on fun f y => runAbortBoundReached f y ctx)

/-- QUIESCE_COMPLETE. -/
def execQuiesceComplete (s : State) : Host.Outcome State Fault Refusal :=
  .next (s.on fun f y => runQuiesceComplete f y)

/-- COMMAND_TIMEOUT. -/
def execCommandTimeout (who : Requester) (tag : Nat) (s : State) : Host.Outcome State Fault Refusal :=
  .next (s.on fun f y => runCommandTimeout f y who tag)

/-- BIST_TEST_COMPLETE. -/
def execBistTestComplete (group : Nat) (memory : Bool) (misr : Nat) (s : State) : Host.Outcome State Fault Refusal :=
  .next (s.on fun f y => runBistTestComplete f y group memory misr)

/-- BUNDLE_VERIFY_COMPLETE. -/
def execBundleVerifyComplete (s : State) : Host.Outcome State Fault Refusal :=
  .next (s.on fun f y => runBundleVerifyComplete f y)

/-- ACTIVATION_STEP. -/
def execActivationStep (digestOk : Bool) (s : State) : Host.Outcome State Fault Refusal :=
  .next (s.on fun f y => runActivationStep f y digestOk)

/-- TRIAL_WINDOW_EXPIRY. -/
def execTrialWindowExpiry (s : State) : Host.Outcome State Fault Refusal :=
  .next (s.on fun f y => runTrialWindowExpiry f y)

/-- STAGING_LOCK_IDLE. -/
def execStagingLockIdle (s : State) : Host.Outcome State Fault Refusal :=
  .next (s.on fun f y => runStagingLockIdle f y)

/-- LC_RESET. -/
def execLcReset (s : State) : Host.Outcome State Fault Refusal :=
  .next (s.on fun f y => runLcReset f y)

/-- ATTEST_COMPLETE. -/
def execAttestComplete (s : State) : Host.Outcome State Fault Refusal :=
  .next (s.on fun f y => runAttestComplete f y)

/-- ATTEST_REPORT_EXPIRY. -/
def execAttestReportExpiry (who : Requester) (s : State) : Host.Outcome State Fault Refusal :=
  .next (s.on fun f y => runAttestReportExpiry f y who)

/-- FRESHET_OFFER_RECEIVE. -/
def execFreshetOfferReceive (s : State) : Host.Outcome State Fault Refusal :=
  .next (s.on fun f y => runFreshetOfferReceive f y)

/-- FRESHET_REPLY_RECEIVE. -/
def execFreshetReplyReceive (s : State) : Host.Outcome State Fault Refusal :=
  .next (s.on fun f y => runFreshetReplyReceive f y)

/-- FRESHET_PULL_RECEIVE. -/
def execFreshetPullReceive (s : State) : Host.Outcome State Fault Refusal :=
  .next (s.on fun f y => runFreshetPullReceive f y)

/-- FRESHET_DATA_RECEIVE. -/
def execFreshetDataReceive (s : State) : Host.Outcome State Fault Refusal :=
  .next (s.on fun f y => runFreshetDataReceive f y)

/-- FRESHET_PULL_RESEND. -/
def execFreshetPullResend (s : State) : Host.Outcome State Fault Refusal :=
  .next (s.on fun f y => runFreshetPullResend f y)

/-- FRESHET_OFFER_SEND. -/
def execFreshetOfferSend (port : Nat) (s : State) : Host.Outcome State Fault Refusal :=
  .next (s.on fun f y => runFreshetOfferSend f y port)

/-- IDENTIFY. -/
def execIdentify (q : MbxReq) (s : State) : Host.Outcome State Fault Refusal :=
  .next (s.on fun f y => runIdentify f y q)

/-- GET_STATE. -/
def execGetState (q : MbxReq) (s : State) : Host.Outcome State Fault Refusal :=
  .next (s.on fun f y => runGetState f y q)

/-- ADMIN_RING_SET. -/
def execAdminRingSet (q : MbxReq) (s : State) : Host.Outcome State Fault Refusal :=
  .next (s.on fun f y => runAdminRingSet f y q)

/-- MBX_RESULT. -/
def execMbxResult (q : MbxReq) (s : State) : Host.Outcome State Fault Refusal :=
  .next (s.on fun f y => runMbxResult f y q)

/-- DEV_QUIESCE. -/
def execDevQuiesce (q : MbxReq) (s : State) : Host.Outcome State Fault Refusal :=
  .next (s.on fun f y => runDevQuiesce f y q)

/-- DEV_RESUME. -/
def execDevResume (q : MbxReq) (s : State) : Host.Outcome State Fault Refusal :=
  .next (s.on fun f y => runDevResume f y q)

/-- SESSION_OPEN. -/
def execSessionOpen (q : MbxReq) (s : State) : Host.Outcome State Fault Refusal :=
  .next (s.on fun f y => runSessionOpen f y q)

/-- SESSION_PROVE. -/
def execSessionProve (q : MbxReq) (s : State) : Host.Outcome State Fault Refusal :=
  .next (s.on fun f y => runSessionProve f y q)

/-- SESSION_CLOSE. -/
def execSessionClose (q : MbxReq) (s : State) : Host.Outcome State Fault Refusal :=
  .next (s.on fun f y => runSessionClose f y q)

/-- CTX_CREATE. -/
def execCtxCreate (q : MbxReq) (s : State) : Host.Outcome State Fault Refusal :=
  .next (s.on fun f y => runCtxCreate f y q)

/-- CTX_DESTROY. -/
def execCtxDestroy (q : MbxReq) (s : State) : Host.Outcome State Fault Refusal :=
  .next (s.on fun f y => runCtxDestroy f y q)

/-- CTX_ACTIVATE. -/
def execCtxActivate (q : MbxReq) (s : State) : Host.Outcome State Fault Refusal :=
  .next (s.on fun f y => runCtxActivate f y q)

/-- CTX_QUERY. -/
def execCtxQuery (q : MbxReq) (s : State) : Host.Outcome State Fault Refusal :=
  .next (s.on fun f y => runCtxQuery f y q)

/-- CTX_RESUME. -/
def execCtxResume (q : MbxReq) (s : State) : Host.Outcome State Fault Refusal :=
  .next (s.on fun f y => runCtxResume f y q)

/-- CTX_MODERATE. -/
def execCtxModerate (q : MbxReq) (s : State) : Host.Outcome State Fault Refusal :=
  .next (s.on fun f y => runCtxModerate f y q)

/-- CTX_SCHED. -/
def execCtxSched (q : MbxReq) (s : State) : Host.Outcome State Fault Refusal :=
  .next (s.on fun f y => runCtxSched f y q)

/-- FN_SHAPE. -/
def execFnShape (q : MbxReq) (s : State) : Host.Outcome State Fault Refusal :=
  .next (s.on fun f y => runFnShape f y q)

/-- FN_QUOTA. -/
def execFnQuota (q : MbxReq) (s : State) : Host.Outcome State Fault Refusal :=
  .next (s.on fun f y => runFnQuota f y q)

/-- CTX_ABORT. -/
def execCtxAbort (q : MbxReq) (s : State) : Host.Outcome State Fault Refusal :=
  .next (s.on fun f y => runCtxAbort f y q)

/-- FN_ABORT. -/
def execFnAbort (q : MbxReq) (s : State) : Host.Outcome State Fault Refusal :=
  .next (s.on fun f y => runFnAbort f y q)

/-- PD_CREATE. -/
def execPdCreate (q : MbxReq) (s : State) : Host.Outcome State Fault Refusal :=
  .next (s.on fun f y => runPdCreate f y q)

/-- PD_DESTROY. -/
def execPdDestroy (q : MbxReq) (s : State) : Host.Outcome State Fault Refusal :=
  .next (s.on fun f y => runPdDestroy f y q)

/-- REGION_REGISTER. -/
def execRegionRegister (q : MbxReq) (s : State) : Host.Outcome State Fault Refusal :=
  .next (s.on fun f y => runRegionRegister f y q)

/-- REGION_DEREGISTER. -/
def execRegionDeregister (q : MbxReq) (s : State) : Host.Outcome State Fault Refusal :=
  .next (s.on fun f y => runRegionDeregister f y q)

/-- FN_TENANT. -/
def execFnTenant (q : MbxReq) (s : State) : Host.Outcome State Fault Refusal :=
  .next (s.on fun f y => runFnTenant f y q)

/-- FN_S2_SET. -/
def execFnS2Set (q : MbxReq) (s : State) : Host.Outcome State Fault Refusal :=
  .next (s.on fun f y => runFnS2Set f y q)

/-- REGTAB_SET. -/
def execRegtabSet (q : MbxReq) (s : State) : Host.Outcome State Fault Refusal :=
  .next (s.on fun f y => runRegtabSet f y q)

/-- HOSTMAP_SET. -/
def execHostmapSet (q : MbxReq) (s : State) : Host.Outcome State Fault Refusal :=
  .next (s.on fun f y => runHostmapSet f y q)

/-- XLAT_FAULT_RING_SET. -/
def execXlatFaultRingSet (q : MbxReq) (s : State) : Host.Outcome State Fault Refusal :=
  .next (s.on fun f y => runXlatFaultRingSet f y q)

/-- XLAT_RESUME. -/
def execXlatResume (q : MbxReq) (s : State) : Host.Outcome State Fault Refusal :=
  .next (s.on fun f y => runXlatResume f y q)

/-- XLAT_INVALIDATE. -/
def execXlatInvalidate (q : MbxReq) (s : State) : Host.Outcome State Fault Refusal :=
  .next (s.on fun f y => runXlatInvalidate f y q)

/-- XLAT_AGE. -/
def execXlatAge (q : MbxReq) (s : State) : Host.Outcome State Fault Refusal :=
  .next (s.on fun f y => runXlatAge f y q)

/-- FRAME_CONFIG. -/
def execFrameConfig (q : MbxReq) (s : State) : Host.Outcome State Fault Refusal :=
  .next (s.on fun f y => runFrameConfig f y q)

/-- TIME_STATUS. -/
def execTimeStatus (q : MbxReq) (s : State) : Host.Outcome State Fault Refusal :=
  .next (s.on fun f y => runTimeStatus f y q)

/-- TE_CONFIG. -/
def execTeConfig (q : MbxReq) (s : State) : Host.Outcome State Fault Refusal :=
  .next (s.on fun f y => runTeConfig f y q)

/-- TBL_WRITE. -/
def execTblWrite (q : MbxReq) (s : State) : Host.Outcome State Fault Refusal :=
  .next (s.on fun f y => runTblWrite f y q)

/-- TBL_COMMIT. -/
def execTblCommit (q : MbxReq) (s : State) : Host.Outcome State Fault Refusal :=
  .next (s.on fun f y => runTblCommit f y q)

/-- TBL_READ. -/
def execTblRead (q : MbxReq) (s : State) : Host.Outcome State Fault Refusal :=
  .next (s.on fun f y => runTblRead f y q)

/-- ROUTE_CONFIG. -/
def execRouteConfig (q : MbxReq) (s : State) : Host.Outcome State Fault Refusal :=
  .next (s.on fun f y => runRouteConfig f y q)

/-- DGRAM_SEND. -/
def execDgramSend (q : MbxReq) (s : State) : Host.Outcome State Fault Refusal :=
  .next (s.on fun f y => runDgramSend f y q)

/-- DGRAM_RECV. -/
def execDgramRecv (q : MbxReq) (s : State) : Host.Outcome State Fault Refusal :=
  .next (s.on fun f y => runDgramRecv f y q)

/-- LINK_STATUS. -/
def execLinkStatus (q : MbxReq) (s : State) : Host.Outcome State Fault Refusal :=
  .next (s.on fun f y => runLinkStatus f y q)

/-- LINK_CONTROL. -/
def execLinkControl (q : MbxReq) (s : State) : Host.Outcome State Fault Refusal :=
  .next (s.on fun f y => runLinkControl f y q)

/-- SL_CONFIG. -/
def execSlConfig (q : MbxReq) (s : State) : Host.Outcome State Fault Refusal :=
  .next (s.on fun f y => runSlConfig f y q)

/-- SL_STATUS. -/
def execSlStatus (q : MbxReq) (s : State) : Host.Outcome State Fault Refusal :=
  .next (s.on fun f y => runSlStatus f y q)

/-- SL_PRBS. -/
def execSlPrbs (q : MbxReq) (s : State) : Host.Outcome State Fault Refusal :=
  .next (s.on fun f y => runSlPrbs f y q)

/-- SL_SLIP. -/
def execSlSlip (q : MbxReq) (s : State) : Host.Outcome State Fault Refusal :=
  .next (s.on fun f y => runSlSlip f y q)

/-- COMM_CREATE. -/
def execCommCreate (q : MbxReq) (s : State) : Host.Outcome State Fault Refusal :=
  .next (s.on fun f y => runCommCreate f y q)

/-- COMM_DESTROY. -/
def execCommDestroy (q : MbxReq) (s : State) : Host.Outcome State Fault Refusal :=
  .next (s.on fun f y => runCommDestroy f y q)

/-- COMM_QUERY. -/
def execCommQuery (q : MbxReq) (s : State) : Host.Outcome State Fault Refusal :=
  .next (s.on fun f y => runCommQuery f y q)

/-- MGID_GRANT. -/
def execMgidGrant (q : MbxReq) (s : State) : Host.Outcome State Fault Refusal :=
  .next (s.on fun f y => runMgidGrant f y q)

/-- COL_CONFIG. -/
def execColConfig (q : MbxReq) (s : State) : Host.Outcome State Fault Refusal :=
  .next (s.on fun f y => runColConfig f y q)

/-- ME_CTX_CONFIG. -/
def execMeCtxConfig (q : MbxReq) (s : State) : Host.Outcome State Fault Refusal :=
  .next (s.on fun f y => runMeCtxConfig f y q)

/-- ME_QUERY. -/
def execMeQuery (q : MbxReq) (s : State) : Host.Outcome State Fault Refusal :=
  .next (s.on fun f y => runMeQuery f y q)

/-- PSET_CREATE. -/
def execPsetCreate (q : MbxReq) (s : State) : Host.Outcome State Fault Refusal :=
  .next (s.on fun f y => runPsetCreate f y q)

/-- PSET_DESTROY. -/
def execPsetDestroy (q : MbxReq) (s : State) : Host.Outcome State Fault Refusal :=
  .next (s.on fun f y => runPsetDestroy f y q)

/-- PSET_ADD. -/
def execPsetAdd (q : MbxReq) (s : State) : Host.Outcome State Fault Refusal :=
  .next (s.on fun f y => runPsetAdd f y q)

/-- PSET_REMOVE. -/
def execPsetRemove (q : MbxReq) (s : State) : Host.Outcome State Fault Refusal :=
  .next (s.on fun f y => runPsetRemove f y q)

/-- PSET_HINT. -/
def execPsetHint (q : MbxReq) (s : State) : Host.Outcome State Fault Refusal :=
  .next (s.on fun f y => runPsetHint f y q)

/-- PSET_QUERY. -/
def execPsetQuery (q : MbxReq) (s : State) : Host.Outcome State Fault Refusal :=
  .next (s.on fun f y => runPsetQuery f y q)

/-- PE_POLICY. -/
def execPePolicy (q : MbxReq) (s : State) : Host.Outcome State Fault Refusal :=
  .next (s.on fun f y => runPePolicy f y q)

/-- PE_ROUTE_QUERY. -/
def execPeRouteQuery (q : MbxReq) (s : State) : Host.Outcome State Fault Refusal :=
  .next (s.on fun f y => runPeRouteQuery f y q)

/-- CNT_CONFIG. -/
def execCntConfig (q : MbxReq) (s : State) : Host.Outcome State Fault Refusal :=
  .next (s.on fun f y => runCntConfig f y q)

/-- CNT_READ. -/
def execCntRead (q : MbxReq) (s : State) : Host.Outcome State Fault Refusal :=
  .next (s.on fun f y => runCntRead f y q)

/-- CNT_GRANT. -/
def execCntGrant (q : MbxReq) (s : State) : Host.Outcome State Fault Refusal :=
  .next (s.on fun f y => runCntGrant f y q)

/-- CNT_BW. -/
def execCntBw (q : MbxReq) (s : State) : Host.Outcome State Fault Refusal :=
  .next (s.on fun f y => runCntBw f y q)

/-- BANDWIDTH_WINDOW_END. -/
def execBandwidthWindowEnd (port : Nat) (s : State) : Host.Outcome State Fault Refusal :=
  .next (s.on fun f y => runBandwidthWindowEnd f y port)

/-- FN_CNT_READ. -/
def execFnCntRead (q : MbxReq) (s : State) : Host.Outcome State Fault Refusal :=
  .next (s.on fun f y => runFnCntRead f y q)

/-- TRACE_CONFIG. -/
def execTraceConfig (q : MbxReq) (s : State) : Host.Outcome State Fault Refusal :=
  .next (s.on fun f y => runTraceConfig f y q)

/-- FAULT_READ. -/
def execFaultRead (q : MbxReq) (s : State) : Host.Outcome State Fault Refusal :=
  .next (s.on fun f y => runFaultRead f y q)

/-- FAULT_CLEAR. -/
def execFaultClear (q : MbxReq) (s : State) : Host.Outcome State Fault Refusal :=
  .next (s.on fun f y => runFaultClear f y q)

/-- FAULT_CONFIG. -/
def execFaultConfig (q : MbxReq) (s : State) : Host.Outcome State Fault Refusal :=
  .next (s.on fun f y => runFaultConfig f y q)

/-- FAULT_NOTIFY. -/
def execFaultNotify (q : MbxReq) (s : State) : Host.Outcome State Fault Refusal :=
  .next (s.on fun f y => runFaultNotify f y q)

/-- FAULT_INJECT. -/
def execFaultInject (q : MbxReq) (s : State) : Host.Outcome State Fault Refusal :=
  .next (s.on fun f y => runFaultInject f y q)

/-- LOG_READ. -/
def execLogRead (q : MbxReq) (s : State) : Host.Outcome State Fault Refusal :=
  .next (s.on fun f y => runLogRead f y q)

/-- LOG_CLEAR. -/
def execLogClear (q : MbxReq) (s : State) : Host.Outcome State Fault Refusal :=
  .next (s.on fun f y => runLogClear f y q)

/-- CHIP_RESET. -/
def execChipReset (q : MbxReq) (s : State) : Host.Outcome State Fault Refusal :=
  .next (s.on fun f y => runChipReset f y q)

/-- UPDATE_OPEN. -/
def execUpdateOpen (q : MbxReq) (s : State) : Host.Outcome State Fault Refusal :=
  .next (s.on fun f y => runUpdateOpen f y q)

/-- UPDATE_WRITE. -/
def execUpdateWrite (q : MbxReq) (s : State) : Host.Outcome State Fault Refusal :=
  .next (s.on fun f y => runUpdateWrite f y q)

/-- UPDATE_VERIFY. -/
def execUpdateVerify (q : MbxReq) (s : State) : Host.Outcome State Fault Refusal :=
  .next (s.on fun f y => runUpdateVerify f y q)

/-- UPDATE_ABANDON. -/
def execUpdateAbandon (q : MbxReq) (s : State) : Host.Outcome State Fault Refusal :=
  .next (s.on fun f y => runUpdateAbandon f y q)

/-- UPDATE_ACTIVATE. -/
def execUpdateActivate (q : MbxReq) (s : State) : Host.Outcome State Fault Refusal :=
  .next (s.on fun f y => runUpdateActivate f y q)

/-- UPDATE_CONFIRM. -/
def execUpdateConfirm (q : MbxReq) (s : State) : Host.Outcome State Fault Refusal :=
  .next (s.on fun f y => runUpdateConfirm f y q)

/-- UPDATE_STATUS. -/
def execUpdateStatus (q : MbxReq) (s : State) : Host.Outcome State Fault Refusal :=
  .next (s.on fun f y => runUpdateStatus f y q)

/-- FRESHET_CONFIG. -/
def execFreshetConfig (q : MbxReq) (s : State) : Host.Outcome State Fault Refusal :=
  .next (s.on fun f y => runFreshetConfig f y q)

/-- SETTINGS_SAVE. -/
def execSettingsSave (q : MbxReq) (s : State) : Host.Outcome State Fault Refusal :=
  .next (s.on fun f y => runSettingsSave f y q)

/-- SETTINGS_SET. -/
def execSettingsSet (q : MbxReq) (s : State) : Host.Outcome State Fault Refusal :=
  .next (s.on fun f y => runSettingsSet f y q)

/-- BIST_RUN. -/
def execBistRun (q : MbxReq) (s : State) : Host.Outcome State Fault Refusal :=
  .next (s.on fun f y => runBistRun f y q)

/-- PWR_STATUS. -/
def execPwrStatus (q : MbxReq) (s : State) : Host.Outcome State Fault Refusal :=
  .next (s.on fun f y => runPwrStatus f y q)

/-- PWR_DOMAIN. -/
def execPwrDomain (q : MbxReq) (s : State) : Host.Outcome State Fault Refusal :=
  .next (s.on fun f y => runPwrDomain f y q)

/-- CAGE_CONFIG. -/
def execCageConfig (q : MbxReq) (s : State) : Host.Outcome State Fault Refusal :=
  .next (s.on fun f y => runCageConfig f y q)

/-- CAGE_CONTROL. -/
def execCageControl (q : MbxReq) (s : State) : Host.Outcome State Fault Refusal :=
  .next (s.on fun f y => runCageControl f y q)

/-- CAGE_STATUS. -/
def execCageStatus (q : MbxReq) (s : State) : Host.Outcome State Fault Refusal :=
  .next (s.on fun f y => runCageStatus f y q)

/-- CMIS_ACCESS. -/
def execCmisAccess (q : MbxReq) (s : State) : Host.Outcome State Fault Refusal :=
  .next (s.on fun f y => runCmisAccess f y q)

/-- SENSOR_READ. -/
def execSensorRead (q : MbxReq) (s : State) : Host.Outcome State Fault Refusal :=
  .next (s.on fun f y => runSensorRead f y q)

/-- SENSOR_LIMITS. -/
def execSensorLimits (q : MbxReq) (s : State) : Host.Outcome State Fault Refusal :=
  .next (s.on fun f y => runSensorLimits f y q)

/-- LC_STATUS. -/
def execLcStatus (q : MbxReq) (s : State) : Host.Outcome State Fault Refusal :=
  .next (s.on fun f y => runLcStatus f y q)

/-- ATTEST_REQUEST. -/
def execAttestRequest (q : MbxReq) (s : State) : Host.Outcome State Fault Refusal :=
  .next (s.on fun f y => runAttestRequest f y q)

/-- ATTEST_READ. -/
def execAttestRead (q : MbxReq) (s : State) : Host.Outcome State Fault Refusal :=
  .next (s.on fun f y => runAttestRead f y q)

/-- ID_CERT_READ. -/
def execIdCertRead (q : MbxReq) (s : State) : Host.Outcome State Fault Refusal :=
  .next (s.on fun f y => runIdCertRead f y q)

/-- ID_CERT_WRITE. -/
def execIdCertWrite (q : MbxReq) (s : State) : Host.Outcome State Fault Refusal :=
  .next (s.on fun f y => runIdCertWrite f y q)

/-- KEY_SET. -/
def execKeySet (q : MbxReq) (s : State) : Host.Outcome State Fault Refusal :=
  .next (s.on fun f y => runKeySet f y q)

/-- LC_TRANSITION. -/
def execLcTransition (q : MbxReq) (s : State) : Host.Outcome State Fault Refusal :=
  .next (s.on fun f y => runLcTransition f y q)

/-- LOS_CLEAR. -/
def execLosClear (port : Nat) (lane : Nat) (s : State) : Host.Outcome State Fault Refusal :=
  .next (s.on fun f y => runLosClear f y port lane)

/-- LOCK_REGAIN. -/
def execLockRegain (port : Nat) (lane : Nat) (s : State) : Host.Outcome State Fault Refusal :=
  .next (s.on fun f y => runLockRegain f y port lane)

/-- ALIGNMENT_FOUND. -/
def execAlignmentFound (port : Nat) (s : State) : Host.Outcome State Fault Refusal :=
  .next (s.on fun f y => runAlignmentFound f y port)

/-- HOST_LINK_TRAINED. -/
def execHostLinkTrained (hp : Nat) (linkB : Bool) (rate : Nat) (width : Nat) (flit : Bool) (s : State) : Host.Outcome State Fault Refusal :=
  .next (s.on fun f y => runHostLinkTrained f y hp linkB rate width flit)

/-- MSIX_VECTOR_UNMASK. -/
def execMsixVectorUnmask (hp : Nat) (fn : Nat) (vec : Nat) (s : State) : Host.Outcome State Fault Refusal :=
  .next (s.on fun f y => runMsixVectorUnmask f y hp fn vec)

/-- MBX_DOORBELL. -/
def execMbxDoorbell (hp : Nat) (fn : Nat) (value : Nat) (mem : List (Nat × Nat)) (s : State) : Host.Outcome State Fault Refusal :=
  .next (s.on fun f y => runMbxDoorbell f y hp fn value mem)

/-- REQUEST_BUFFER_WRITE. -/
def execRequestBufferWrite (hp : Nat) (fn : Nat) (off : Nat) (data : Bytes) (s : State) : Host.Outcome State Fault Refusal :=
  .next (s.on fun f y => runRequestBufferWrite f y hp fn off data)

/-- DOMAIN_POWER_DOWN_COMPLETE. -/
def execDomainPowerDownComplete (swd : Nat) (s : State) : Host.Outcome State Fault Refusal :=
  .next (s.on fun f y => runDomainPowerDownComplete f y swd)

/-- FLASH_OPERATION_COMPLETE. -/
def execFlashOperationComplete (ok : Bool) (s : State) : Host.Outcome State Fault Refusal :=
  .next (s.on fun f y => runFlashOperationComplete f y ok)

/-- FUSE_PROGRAM_COMPLETE. -/
def execFuseProgramComplete (ok : Bool) (s : State) : Host.Outcome State Fault Refusal :=
  .next { s with fuse := (runFuseProgramComplete s.fuse s.sys ok).1, sys := (runFuseProgramComplete s.fuse s.sys ok).2 }

/-- JTAG_INSTRUCTION. -/
def execJtagInstruction (instr : Nat) (s : State) : Host.Outcome State Fault Refusal :=
  .next (s.on fun f y => runJtagInstruction f y instr)

end Sys2Proof.Machine
end

