-- ==== Sys2Proof/Machine/Dispatch.lean ====
section
/-! DEFINITION. One arm for every command: its meaning. -/
namespace Sys2Proof.Machine

def exec (i : Instr) (s : State) : Host.Outcome State Fault Refusal :=
  match i with
  | .powerOnReset straps => Sys2Proof.Machine.execPowerOnReset straps s
  | .resetNAssert => Sys2Proof.Machine.execResetNAssert s
  | .pwrOkFall => Sys2Proof.Machine.execPwrOkFall s
  | .wipeComplete misrOk flashOk badTags => Sys2Proof.Machine.execWipeComplete misrOk flashOk badTags s
  | .bootComplete => Sys2Proof.Machine.execBootComplete s
  | .thermalCooldownRelease temps badTags => Sys2Proof.Machine.execThermalCooldownRelease temps badTags s
  | .fruRead recs => Sys2Proof.Machine.execFruRead recs s
  | .timeGateSettleExpiry => Sys2Proof.Machine.execTimeGateSettleExpiry s
  | .tableDerive => Sys2Proof.Machine.execTableDerive s
  | .switchEpochFreeze => Sys2Proof.Machine.execSwitchEpochFreeze s
  | .tableModeSwitch => Sys2Proof.Machine.execTableModeSwitch s
  | .frameTick cages temps => Sys2Proof.Machine.execFrameTick cages temps s
  | .epochTick meas => Sys2Proof.Machine.execEpochTick meas s
  | .taskOverrun task port => Sys2Proof.Machine.execTaskOverrun task port s
  | .epochTaskOverrun task => Sys2Proof.Machine.execEpochTaskOverrun task s
  | .routeWeightRecompute => Sys2Proof.Machine.execRouteWeightRecompute s
  | .placementBatch => Sys2Proof.Machine.execPlacementBatch s
  | .ccWatchdogRestart => Sys2Proof.Machine.execCcWatchdogRestart s
  | .tarnWatchdogReset => Sys2Proof.Machine.execTarnWatchdogReset s
  | .ccReturn => Sys2Proof.Machine.execCcReturn s
  | .counterDump hp fn => Sys2Proof.Machine.execCounterDump hp fn s
  | .sessionIdleExpiry token => Sys2Proof.Machine.execSessionIdleExpiry token s
  | .challengeExpiry who => Sys2Proof.Machine.execChallengeExpiry who s
  | .timeSend port => Sys2Proof.Machine.execTimeSend port s
  | .timeReceive port hdr m cycle block => Sys2Proof.Machine.execTimeReceive port hdr m cycle block s
  | .ppsEdge stamp => Sys2Proof.Machine.execPpsEdge stamp s
  | .linkHoldoffExpiry port => Sys2Proof.Machine.execLinkHoldoffExpiry port s
  | .trainingPhaseDone port rxFec skew => Sys2Proof.Machine.execTrainingPhaseDone port rxFec skew s
  | .trainingPhaseTimeout port signal => Sys2Proof.Machine.execTrainingPhaseTimeout port signal s
  | .initReceive port hdr m => Sys2Proof.Machine.execInitReceive port hdr m s
  | .initTimeout port => Sys2Proof.Machine.execInitTimeout port s
  | .llPacketReceive port hcrc marks p cut => Sys2Proof.Machine.execLlPacketReceive port hcrc marks p cut s
  | .llAckSend port => Sys2Proof.Machine.execLlAckSend port s
  | .llAckReceive port hdr m => Sys2Proof.Machine.execLlAckReceive port hdr m s
  | .llNackReceive port hdr m => Sys2Proof.Machine.execLlNackReceive port hdr m s
  | .credSyncReceive port hdr m => Sys2Proof.Machine.execCredSyncReceive port hdr m s
  | .replayTimerExpiry port => Sys2Proof.Machine.execReplayTimerExpiry port s
  | .rippleReceive port hdr m => Sys2Proof.Machine.execRippleReceive port hdr m s
  | .laneReceive port hdr m => Sys2Proof.Machine.execLaneReceive port hdr m s
  | .laneReqTimeout port => Sys2Proof.Machine.execLaneReqTimeout port s
  | .laneAddRequest port => Sys2Proof.Machine.execLaneAddRequest port s
  | .linkDownReceive port hdr cause => Sys2Proof.Machine.execLinkDownReceive port hdr cause s
  | .silentTimeout port => Sys2Proof.Machine.execSilentTimeout port s
  | .losDeclare port => Sys2Proof.Machine.execLosDeclare port s
  | .losAssert port lane => Sys2Proof.Machine.execLosAssert port lane s
  | .lockLoss port lane => Sys2Proof.Machine.execLockLoss port lane s
  | .alignmentLoss port => Sys2Proof.Machine.execAlignmentLoss port s
  | .quadPllUnlock quad => Sys2Proof.Machine.execQuadPllUnlock quad s
  | .quadPllRelock quad => Sys2Proof.Machine.execQuadPllRelock quad s
  | .refclkLoss ref => Sys2Proof.Machine.execRefclkLoss ref s
  | .packetTransmit port cycle block => Sys2Proof.Machine.execPacketTransmit port cycle block s
  | .packetRoute cx vc => Sys2Proof.Machine.execPacketRoute cx vc s
  | .routeRecompute cx vc => Sys2Proof.Machine.execRouteRecompute cx vc s
  | .outputAllocate cx vc => Sys2Proof.Machine.execOutputAllocate cx vc s
  | .escapeMove cx vc => Sys2Proof.Machine.execEscapeMove cx vc s
  | .ageSweep => Sys2Proof.Machine.execAgeSweep s
  | .tableSwitch => Sys2Proof.Machine.execTableSwitch s
  | .escapeFreezeEnd => Sys2Proof.Machine.execEscapeFreezeEnd s
  | .modeChangeStart => Sys2Proof.Machine.execModeChangeStart s
  | .modeTransferEnd => Sys2Proof.Machine.execModeTransferEnd s
  | .helloSend port => Sys2Proof.Machine.execHelloSend port s
  | .helloReceive => Sys2Proof.Machine.execHelloReceive s
  | .helloExpiry port => Sys2Proof.Machine.execHelloExpiry port s
  | .datagramReceive => Sys2Proof.Machine.execDatagramReceive s
  | .sqTailWrite hp fn page value => Sys2Proof.Machine.execSqTailWrite hp fn page value s
  | .inlinePush hp fn page off data => Sys2Proof.Machine.execInlinePush hp fn page off data s
  | .eqHeadWrite hp fn page value => Sys2Proof.Machine.execEqHeadWrite hp fn page value s
  | .adminHeadWrite hp fn value => Sys2Proof.Machine.execAdminHeadWrite hp fn value s
  | .xfaultHeadWrite hp fn value => Sys2Proof.Machine.execXfaultHeadWrite hp fn value s
  | .registerWrite hp fn off width value => Sys2Proof.Machine.execRegisterWrite hp fn off width value s
  | .descriptorFetch ctx => Sys2Proof.Machine.execDescriptorFetch ctx s
  | .put ctx => Sys2Proof.Machine.execPut ctx s
  | .putImm ctx => Sys2Proof.Machine.execPutImm ctx s
  | .get ctx => Sys2Proof.Machine.execGet ctx s
  | .atomic ctx => Sys2Proof.Machine.execAtomic ctx s
  | .fetchAtomic ctx => Sys2Proof.Machine.execFetchAtomic ctx s
  | .cswap ctx => Sys2Proof.Machine.execCswap ctx s
  | .send ctx => Sys2Proof.Machine.execSend ctx s
  | .recvPost ctx => Sys2Proof.Machine.execRecvPost ctx s
  | .recvCancel ctx => Sys2Proof.Machine.execRecvCancel ctx s
  | .colStart ctx => Sys2Proof.Machine.execColStart ctx s
  | .fenceNop ctx => Sys2Proof.Machine.execFenceNop ctx s
  | .xlatInvalidateRing ctx => Sys2Proof.Machine.execXlatInvalidateRing ctx s
  | .deferredPostRelease ctx => Sys2Proof.Machine.execDeferredPostRelease ctx s
  | .segmentIssue op => Sys2Proof.Machine.execSegmentIssue op s
  | .packetInject hp => Sys2Proof.Machine.execPacketInject hp s
  | .moderationTimerExpiry ctx => Sys2Proof.Machine.execModerationTimerExpiry ctx s
  | .functionLevelReset hp fn => Sys2Proof.Machine.execFunctionLevelReset hp fn s
  | .flrCleanup hp fn => Sys2Proof.Machine.execFlrCleanup hp fn s
  | .hostPortReset hp linkB cause => Sys2Proof.Machine.execHostPortReset hp linkB cause s
  | .perstDeassert hp linkB => Sys2Proof.Machine.execPerstDeassert hp linkB s
  | .vfEnableClear hp linkB => Sys2Proof.Machine.execVfEnableClear hp linkB s
  | .vfEnableSet hp linkB => Sys2Proof.Machine.execVfEnableSet hp linkB s
  | .hostReadCompletion hp tag ok poisoned data => Sys2Proof.Machine.execHostReadCompletion hp tag ok poisoned data s
  | .hostCompletionTimeout hp tag => Sys2Proof.Machine.execHostCompletionTimeout hp tag s
  | .putReceive hp => Sys2Proof.Machine.execPutReceive hp s
  | .getReqReceive hp => Sys2Proof.Machine.execGetReqReceive hp s
  | .atomicReceive hp => Sys2Proof.Machine.execAtomicReceive hp s
  | .probeReceive hp => Sys2Proof.Machine.execProbeReceive hp s
  | .retireReceive hp => Sys2Proof.Machine.execRetireReceive hp s
  | .syncReceive hp => Sys2Proof.Machine.execSyncReceive hp s
  | .sendPacketReceive hp => Sys2Proof.Machine.execSendPacketReceive hp s
  | .rdvGetReceive hp => Sys2Proof.Machine.execRdvGetReceive hp s
  | .segmentCompleteAck src osn => Sys2Proof.Machine.execSegmentCompleteAck src osn s
  | .finalSegmentNotify src osn => Sys2Proof.Machine.execFinalSegmentNotify src osn s
  | .assemblyTimeout src osn => Sys2Proof.Machine.execAssemblyTimeout src osn s
  | .resultEntryExpiry src osn => Sys2Proof.Machine.execResultEntryExpiry src osn s
  | .transportAckReceive hp => Sys2Proof.Machine.execTransportAckReceive hp s
  | .transportNackReceive hp => Sys2Proof.Machine.execTransportNackReceive hp s
  | .sackReceive hp => Sys2Proof.Machine.execSackReceive hp s
  | .getRespReceive hp => Sys2Proof.Machine.execGetRespReceive hp s
  | .segmentTimeout seg => Sys2Proof.Machine.execSegmentTimeout seg s
  | .nackRetryWaitExpiry seg pidx => Sys2Proof.Machine.execNackRetryWaitExpiry seg pidx s
  | .rdvPullIssue msg => Sys2Proof.Machine.execRdvPullIssue msg s
  | .deferredMemberChoice msg => Sys2Proof.Machine.execDeferredMemberChoice msg s
  | .colJoinReceive => Sys2Proof.Machine.execColJoinReceive s
  | .colJoinResend mgid => Sys2Proof.Machine.execColJoinResend mgid s
  | .colSetupReceive => Sys2Proof.Machine.execColSetupReceive s
  | .colReadyReceive => Sys2Proof.Machine.execColReadyReceive s
  | .colGoReceive => Sys2Proof.Machine.execColGoReceive s
  | .colFailReceive => Sys2Proof.Machine.execColFailReceive s
  | .joinTimerExpiry mgid => Sys2Proof.Machine.execJoinTimerExpiry mgid s
  | .colUpReceive => Sys2Proof.Machine.execColUpReceive s
  | .contributionRead mgid ctx => Sys2Proof.Machine.execContributionRead mgid ctx s
  | .chunkCombine mgid => Sys2Proof.Machine.execChunkCombine mgid s
  | .colDownReceive => Sys2Proof.Machine.execColDownReceive s
  | .colDoneReceive => Sys2Proof.Machine.execColDoneReceive s
  | .colCredReceive => Sys2Proof.Machine.execColCredReceive s
  | .colCredSend mgid => Sys2Proof.Machine.execColCredSend mgid s
  | .colBeatSend mgid => Sys2Proof.Machine.execColBeatSend mgid s
  | .colBeatReceive => Sys2Proof.Machine.execColBeatReceive s
  | .neighbourLost mgid feid => Sys2Proof.Machine.execNeighbourLost mgid feid s
  | .cageFastTrip cage => Sys2Proof.Machine.execCageFastTrip cage s
  | .cageBackstop cage => Sys2Proof.Machine.execCageBackstop cage s
  | .moduleBringup cage passive maxPower mismatch cableLen => Sys2Proof.Machine.execModuleBringup cage passive maxPower mismatch cableLen s
  | .moduleReady cage txfir => Sys2Proof.Machine.execModuleReady cage txfir s
  | .moduleTimeout cage => Sys2Proof.Machine.execModuleTimeout cage s
  | .moduleInterrupt cage alarm dpFault => Sys2Proof.Machine.execModuleInterrupt cage alarm dpFault s
  | .moduleLowPower cage => Sys2Proof.Machine.execModuleLowPower cage s
  | .domainPowerUp swd => Sys2Proof.Machine.execDomainPowerUp swd s
  | .domainPowerComplete swd => Sys2Proof.Machine.execDomainPowerComplete swd s
  | .thermalTrip sensor reading => Sys2Proof.Machine.execThermalTrip sensor reading s
  | .droopStretch region => Sys2Proof.Machine.execDroopStretch region s
  | .faultHandlingEnd src => Sys2Proof.Machine.execFaultHandlingEnd src s
  | .faultFloorDecay src => Sys2Proof.Machine.execFaultFloorDecay src s
  | .faultAutoreset => Sys2Proof.Machine.execFaultAutoreset s
  | .logCommit => Sys2Proof.Machine.execLogCommit s
  | .mctpControlMessage bus src eid msg => Sys2Proof.Machine.execMctpControlMessage bus src eid msg s
  | .abortComplete ctx => Sys2Proof.Machine.execAbortComplete ctx s
  | .abortBoundReached ctx => Sys2Proof.Machine.execAbortBoundReached ctx s
  | .quiesceComplete => Sys2Proof.Machine.execQuiesceComplete s
  | .commandTimeout who tag => Sys2Proof.Machine.execCommandTimeout who tag s
  | .bistTestComplete group memory misr => Sys2Proof.Machine.execBistTestComplete group memory misr s
  | .bundleVerifyComplete => Sys2Proof.Machine.execBundleVerifyComplete s
  | .activationStep digestOk => Sys2Proof.Machine.execActivationStep digestOk s
  | .trialWindowExpiry => Sys2Proof.Machine.execTrialWindowExpiry s
  | .stagingLockIdle => Sys2Proof.Machine.execStagingLockIdle s
  | .lcReset => Sys2Proof.Machine.execLcReset s
  | .attestComplete => Sys2Proof.Machine.execAttestComplete s
  | .attestReportExpiry who => Sys2Proof.Machine.execAttestReportExpiry who s
  | .freshetOfferReceive => Sys2Proof.Machine.execFreshetOfferReceive s
  | .freshetReplyReceive => Sys2Proof.Machine.execFreshetReplyReceive s
  | .freshetPullReceive => Sys2Proof.Machine.execFreshetPullReceive s
  | .freshetDataReceive => Sys2Proof.Machine.execFreshetDataReceive s
  | .freshetPullResend => Sys2Proof.Machine.execFreshetPullResend s
  | .freshetOfferSend port => Sys2Proof.Machine.execFreshetOfferSend port s
  | .identify q => Sys2Proof.Machine.execIdentify q s
  | .getState q => Sys2Proof.Machine.execGetState q s
  | .adminRingSet q => Sys2Proof.Machine.execAdminRingSet q s
  | .mbxResult q => Sys2Proof.Machine.execMbxResult q s
  | .devQuiesce q => Sys2Proof.Machine.execDevQuiesce q s
  | .devResume q => Sys2Proof.Machine.execDevResume q s
  | .sessionOpen q => Sys2Proof.Machine.execSessionOpen q s
  | .sessionProve q => Sys2Proof.Machine.execSessionProve q s
  | .sessionClose q => Sys2Proof.Machine.execSessionClose q s
  | .ctxCreate q => Sys2Proof.Machine.execCtxCreate q s
  | .ctxDestroy q => Sys2Proof.Machine.execCtxDestroy q s
  | .ctxActivate q => Sys2Proof.Machine.execCtxActivate q s
  | .ctxQuery q => Sys2Proof.Machine.execCtxQuery q s
  | .ctxResume q => Sys2Proof.Machine.execCtxResume q s
  | .ctxModerate q => Sys2Proof.Machine.execCtxModerate q s
  | .ctxSched q => Sys2Proof.Machine.execCtxSched q s
  | .fnShape q => Sys2Proof.Machine.execFnShape q s
  | .fnQuota q => Sys2Proof.Machine.execFnQuota q s
  | .ctxAbort q => Sys2Proof.Machine.execCtxAbort q s
  | .fnAbort q => Sys2Proof.Machine.execFnAbort q s
  | .pdCreate q => Sys2Proof.Machine.execPdCreate q s
  | .pdDestroy q => Sys2Proof.Machine.execPdDestroy q s
  | .regionRegister q => Sys2Proof.Machine.execRegionRegister q s
  | .regionDeregister q => Sys2Proof.Machine.execRegionDeregister q s
  | .fnTenant q => Sys2Proof.Machine.execFnTenant q s
  | .fnS2Set q => Sys2Proof.Machine.execFnS2Set q s
  | .regtabSet q => Sys2Proof.Machine.execRegtabSet q s
  | .hostmapSet q => Sys2Proof.Machine.execHostmapSet q s
  | .xlatFaultRingSet q => Sys2Proof.Machine.execXlatFaultRingSet q s
  | .xlatResume q => Sys2Proof.Machine.execXlatResume q s
  | .xlatInvalidate q => Sys2Proof.Machine.execXlatInvalidate q s
  | .xlatAge q => Sys2Proof.Machine.execXlatAge q s
  | .frameConfig q => Sys2Proof.Machine.execFrameConfig q s
  | .timeStatus q => Sys2Proof.Machine.execTimeStatus q s
  | .teConfig q => Sys2Proof.Machine.execTeConfig q s
  | .tblWrite q => Sys2Proof.Machine.execTblWrite q s
  | .tblCommit q => Sys2Proof.Machine.execTblCommit q s
  | .tblRead q => Sys2Proof.Machine.execTblRead q s
  | .routeConfig q => Sys2Proof.Machine.execRouteConfig q s
  | .dgramSend q => Sys2Proof.Machine.execDgramSend q s
  | .dgramRecv q => Sys2Proof.Machine.execDgramRecv q s
  | .linkStatus q => Sys2Proof.Machine.execLinkStatus q s
  | .linkControl q => Sys2Proof.Machine.execLinkControl q s
  | .slConfig q => Sys2Proof.Machine.execSlConfig q s
  | .slStatus q => Sys2Proof.Machine.execSlStatus q s
  | .slPrbs q => Sys2Proof.Machine.execSlPrbs q s
  | .slSlip q => Sys2Proof.Machine.execSlSlip q s
  | .commCreate q => Sys2Proof.Machine.execCommCreate q s
  | .commDestroy q => Sys2Proof.Machine.execCommDestroy q s
  | .commQuery q => Sys2Proof.Machine.execCommQuery q s
  | .mgidGrant q => Sys2Proof.Machine.execMgidGrant q s
  | .colConfig q => Sys2Proof.Machine.execColConfig q s
  | .meCtxConfig q => Sys2Proof.Machine.execMeCtxConfig q s
  | .meQuery q => Sys2Proof.Machine.execMeQuery q s
  | .psetCreate q => Sys2Proof.Machine.execPsetCreate q s
  | .psetDestroy q => Sys2Proof.Machine.execPsetDestroy q s
  | .psetAdd q => Sys2Proof.Machine.execPsetAdd q s
  | .psetRemove q => Sys2Proof.Machine.execPsetRemove q s
  | .psetHint q => Sys2Proof.Machine.execPsetHint q s
  | .psetQuery q => Sys2Proof.Machine.execPsetQuery q s
  | .pePolicy q => Sys2Proof.Machine.execPePolicy q s
  | .peRouteQuery q => Sys2Proof.Machine.execPeRouteQuery q s
  | .cntConfig q => Sys2Proof.Machine.execCntConfig q s
  | .cntRead q => Sys2Proof.Machine.execCntRead q s
  | .cntGrant q => Sys2Proof.Machine.execCntGrant q s
  | .cntBw q => Sys2Proof.Machine.execCntBw q s
  | .bandwidthWindowEnd port => Sys2Proof.Machine.execBandwidthWindowEnd port s
  | .fnCntRead q => Sys2Proof.Machine.execFnCntRead q s
  | .traceConfig q => Sys2Proof.Machine.execTraceConfig q s
  | .faultRead q => Sys2Proof.Machine.execFaultRead q s
  | .faultClear q => Sys2Proof.Machine.execFaultClear q s
  | .faultConfig q => Sys2Proof.Machine.execFaultConfig q s
  | .faultNotify q => Sys2Proof.Machine.execFaultNotify q s
  | .faultInject q => Sys2Proof.Machine.execFaultInject q s
  | .logRead q => Sys2Proof.Machine.execLogRead q s
  | .logClear q => Sys2Proof.Machine.execLogClear q s
  | .chipReset q => Sys2Proof.Machine.execChipReset q s
  | .updateOpen q => Sys2Proof.Machine.execUpdateOpen q s
  | .updateWrite q => Sys2Proof.Machine.execUpdateWrite q s
  | .updateVerify q => Sys2Proof.Machine.execUpdateVerify q s
  | .updateAbandon q => Sys2Proof.Machine.execUpdateAbandon q s
  | .updateActivate q => Sys2Proof.Machine.execUpdateActivate q s
  | .updateConfirm q => Sys2Proof.Machine.execUpdateConfirm q s
  | .updateStatus q => Sys2Proof.Machine.execUpdateStatus q s
  | .freshetConfig q => Sys2Proof.Machine.execFreshetConfig q s
  | .settingsSave q => Sys2Proof.Machine.execSettingsSave q s
  | .settingsSet q => Sys2Proof.Machine.execSettingsSet q s
  | .bistRun q => Sys2Proof.Machine.execBistRun q s
  | .pwrStatus q => Sys2Proof.Machine.execPwrStatus q s
  | .pwrDomain q => Sys2Proof.Machine.execPwrDomain q s
  | .cageConfig q => Sys2Proof.Machine.execCageConfig q s
  | .cageControl q => Sys2Proof.Machine.execCageControl q s
  | .cageStatus q => Sys2Proof.Machine.execCageStatus q s
  | .cmisAccess q => Sys2Proof.Machine.execCmisAccess q s
  | .sensorRead q => Sys2Proof.Machine.execSensorRead q s
  | .sensorLimits q => Sys2Proof.Machine.execSensorLimits q s
  | .lcStatus q => Sys2Proof.Machine.execLcStatus q s
  | .attestRequest q => Sys2Proof.Machine.execAttestRequest q s
  | .attestRead q => Sys2Proof.Machine.execAttestRead q s
  | .idCertRead q => Sys2Proof.Machine.execIdCertRead q s
  | .idCertWrite q => Sys2Proof.Machine.execIdCertWrite q s
  | .keySet q => Sys2Proof.Machine.execKeySet q s
  | .lcTransition q => Sys2Proof.Machine.execLcTransition q s
  | .losClear port lane => Sys2Proof.Machine.execLosClear port lane s
  | .lockRegain port lane => Sys2Proof.Machine.execLockRegain port lane s
  | .alignmentFound port => Sys2Proof.Machine.execAlignmentFound port s
  | .hostLinkTrained hp linkB rate width flit => Sys2Proof.Machine.execHostLinkTrained hp linkB rate width flit s
  | .msixVectorUnmask hp fn vec => Sys2Proof.Machine.execMsixVectorUnmask hp fn vec s
  | .mbxDoorbell hp fn value mem => Sys2Proof.Machine.execMbxDoorbell hp fn value mem s
  | .requestBufferWrite hp fn off data => Sys2Proof.Machine.execRequestBufferWrite hp fn off data s
  | .domainPowerDownComplete swd => Sys2Proof.Machine.execDomainPowerDownComplete swd s
  | .flashOperationComplete ok => Sys2Proof.Machine.execFlashOperationComplete ok s
  | .fuseProgramComplete ok => Sys2Proof.Machine.execFuseProgramComplete ok s
  | .jtagInstruction instr => Sys2Proof.Machine.execJtagInstruction instr s

end Sys2Proof.Machine
end

