-- ==== Sys2Proof/Safety.lean ====
section
/-!
DEFINITION. What a safe run of the block is, in the terms that statements use: a state whose fuses only ever gain bits, buffers,
rings and sessions within their bounds, and the outcomes of a mailbox command: served, refused, taken, closed or held.
-/
namespace Sys2Proof.Machine

/-! ### Fuses and buffers -/

/-- A fuse bank `g` has every bit of `f`, and the fields that no command programs are those of `f` (R373, Table 15.7). -/
def FuseBank.grown (f g : FuseBank) : Prop :=
  g.uid = f.uid ∧ g.rootKeys = f.rootKeys ∧ g.rootRev = f.rootRev ∧ g.order = f.order ∧ g.npdis = f.npdis ∧
    f.lc &&& g.lc = f.lc ∧ f.dbgCnt &&& g.dbgCnt = f.dbgCnt ∧ f.svnFloor &&& g.svnFloor = f.svnFloor ∧
    f.udsLock &&& g.udsLock = f.udsLock ∧ g.uds = f.uds

/-- A command that may program fuses. -/
def programsFuses : Instr → Bool
  | .fuseProgramComplete _ => true
  | _ => false

/-- A safe run: from a bank of fuses on, none of its bits is ever lost. -/
def Safe (f : FuseBank) (s : State) : Prop := f.grown s.fuse

/-! ### Ring indices, buffers and sessions within their bounds -/

/-- An admin or fault ring: its write index lies in the ring, and no more records are unread than it has slots. -/
def EvRing.Fits (r : EvRing) : Prop := r.widx < r.count ∧ r.unread ≤ r.count

/-- A mailbox: both buffers in canonical form, the heads within 12 bits, the rings within their bounds. -/
def Mbx.Fits (m : Mbx) : Prop :=
  Memory.wf m.reqBuf = true ∧ Memory.wf m.rspBuf = true ∧ m.adminHead < 4096 ∧ m.xfHead < 4096 ∧
    (∀ r, m.admin = some r → r.Fits) ∧ ∀ r, m.xfault = some r → r.Fits

/-- A context: the indices of both rings lie in them (R77, R85, R87). -/
def Ctx.Fits (x : Ctx) : Prop :=
  x.head < 2 ^ x.sqLog ∧ x.tail < 2 ^ x.sqLog ∧ x.eqHead < 2 ^ x.eqLog ∧ x.eqTail < 2 ^ x.eqLog ∧ x.eqUsed ≤ 2 ^ x.eqLog

/-- The device: every mailbox and every context within its bounds, and at most 4 sessions to a limit (R59, R365). -/
def Fits (y : Sys) : Prop :=
  (∀ hp fn, (getFn y hp fn).mbx.Fits) ∧ (∀ c x, getCtx y c = some x → x.Fits) ∧
    ∀ who, (y.sec.sessions.filter fun x => sameLimit x.who who).length ≤ 4

/-- The rows by which the host moves a ring index or writes a buffer, a ring is set, and sessions come and go. A register write at the doorbell
    of the mailbox serves a request, whose opcode has a row of its own. -/
def movesBounds : Instr → Bool
  | .sqTailWrite _ _ _ _ | .eqHeadWrite _ _ _ _ | .inlinePush _ _ _ _ _ | .adminHeadWrite _ _ _ | .xfaultHeadWrite _ _ _
  | .requestBufferWrite _ _ _ _ | .adminRingSet _ | .xlatFaultRingSet _ | .identify _ | .getState _ | .sessionOpen _ | .sessionProve _
  | .sessionClose _ | .sessionIdleExpiry _ | .challengeExpiry _ | .attestReportExpiry _ => true
  | .registerWrite _ _ (.bar0 off) w _ => off != 0x10 && !(w == 8 && off == 0xC)
  | _ => false

/-! ### Outcomes of a mailbox command -/

/-- The device served a request of opcode `op` at once. On a mailbox: the CC answers, the device has not tripped, and the mailbox is open and
    holds no request (R43, R48, R451). Over MCTP: the message is addressed to this device on a bus that carries it (R94, R363, R364) and no
    longer than Tarn reassembles (R363); in WIPING and BOOT it is IDENTIFY or GET_STATE, and while the CC is away it is one that Tarn serves
    itself (R366). -/
def takes (op : Nat) (s : Sys) (q : MbxReq) : Bool :=
  match q.who with
  | .fn hp fn => !ccAway s && !mbxClosed s hp fn && !(getFn s hp fn).mbx.held
  | .mctp e =>
    (match q.via with | some v => viaOk s v | none => mctpUp s e) && decide (q.payload.length ≤ 4080) &&
      (if early s then op == 1 || op == 2 else !ccAway s || tarnTakes s op q)

/-- The device with the bus noted over which a message of the request's endpoint came last (R363). -/
def reached (s : Sys) (q : MbxReq) : Sys :=
  match q.who, q.via with
  | .mctp e, some v => heardOver s e v.bus
  | _, _ => s

/-- A lifecycle transition runs that a command of family 0x0B would disturb (R382). -/
def lcBusy (c : Spec) (s : Sys) : Bool := s.sec.busyLc && c.opcode / 256 == 0x0B && c.opcode != 0x0B01

/-- A request is taken and passes the checks of Table 3.8 that precede the command's own; no lifecycle transition makes it BUSY. -/
def passes (c : Spec) (s : State) (q : MbxReq) : Bool :=
  takes c.opcode s.sys q && (preCheck c s.fuse (reached s.sys q) q).isNone && !lcBusy c s.sys

/-- A request that the device takes and that passes the checks of Table 3.8 before those of its requester: the order in which a command that an
    MCTP endpoint may not use turns it away (log entry 109). -/
def wellMade (c : Spec) (s : State) (q : MbxReq) : Bool :=
  let x := reached s.sys q
  takes c.opcode s.sys q && c.lenOk q.payload.length && decide (q.payload.length ≤ 4080) && decide (q.flags < 2) && c.param s.fuse x q &&
    !pendingTag x q.who q.tag

/-- The device once the use of the request's session is noted (R59, R393). -/
def used (s : State) (q : MbxReq) : Sys := touchSession (reached s.sys q) q.who q.token

/-- The requester may have one more accepted command (R45). -/
def mayWait (s : State) (q : MbxReq) : Bool := decide (pendCount s.sys q.who < 16)

/-- The state with another device. -/
def State.at (s : State) (y : Sys) : State := { s with sys := y }

/-- A command has ended with OK on the device `y`: its response carries `d`, and DONE_EVT posts MBX_DONE. -/
def okay (c : Spec) (q : MbxReq) (y : Sys) (d : Bytes) : Sys := finishNow y q c.opcode .ok (c.named y q.payload) d true

/-- The command `i` changes nothing but the response: it ends with OK and an answer `d` that has the property. -/
def answers (i : Instr) (c : Spec) (s : State) (q : MbxReq) (P : Bytes → Prop) : Prop :=
  ∃ d, P d ∧ exec i s = .next (s.at (okay c q (used s q) d))

/-- A command has ended with a status other than OK on the device `y`; PRIVILEGE shows no state of what the command names (R49, R97). -/
def refusedWith (c : Spec) (q : MbxReq) (y : Sys) (e : Status) : Sys :=
  finishNow y q c.opcode e (if e = .privilege then none else c.named y q.payload) [] (c.cls == .fast)

/-- A request that fails a check of Table 3.8 is answered with its status; the answer shows the state of what it names only to a requester
    that reaches it (R42, R49). -/
def turnedAway (c : Spec) (f : FuseBank) (q : MbxReq) (s : Sys) (e : Status) : Sys :=
  finishNow (touchSession s q.who q.token) q c.opcode e (shown c f s q e) [] (c.cls == .fast)

/-- A command has been accepted on the device `y` and waits for `w` (R44). -/
def waits (c : Spec) (q : MbxReq) (y : Sys) (w : Wait) : Sys :=
  let n := c.named y q.payload
  let y := respond y q.who q.tag (mkResp y c.opcode q.tag .accepted n [])
  { y with svc := { y.svc with pend := y.svc.pend ++
    [{ who := q.who, tag := q.tag, opcode := c.opcode, ft := y.time.ft, wait := w, res := none, ctxId := n, tarn := ccAway y }] } }

/-- A slow command has been accepted on the device `x` and is complete at once, leaving `y`: its result is stored, and MBX_DONE is posted
    (R44). -/
def endsAtOnce (c : Spec) (q : MbxReq) (x y : Sys) (d : Bytes) : Sys :=
  let n := c.named y q.payload
  let y := respond y q.who q.tag (mkResp x c.opcode q.tag .accepted n [])
  let y := { y with svc := { y.svc with pend := y.svc.pend ++
    [{ who := q.who, tag := q.tag, opcode := c.opcode, ft := y.time.ft, wait := .commit,
       res := some (mkResp y c.opcode q.tag .ok n d), ctxId := n, tarn := ccAway x }] } }
  postDone y q.who q.tag c.opcode 0

/-- The traits and the request of a mailbox command. -/
def mailbox : Instr → Option (Spec × MbxReq)
  | .identify q => some (specIdentify, q)
  | .getState q => some (specGetState, q)
  | .adminRingSet q => some (specAdminRingSet, q)
  | .mbxResult q => some (specMbxResult, q)
  | .devQuiesce q => some (specDevQuiesce, q)
  | .devResume q => some (specDevResume, q)
  | .sessionOpen q => some (specSessionOpen, q)
  | .sessionProve q => some (specSessionProve, q)
  | .sessionClose q => some (specSessionClose, q)
  | .ctxCreate q => some (specCtxCreate, q)
  | .ctxDestroy q => some (specCtxDestroy, q)
  | .ctxActivate q => some (specCtxActivate, q)
  | .ctxQuery q => some (specCtxQuery, q)
  | .ctxResume q => some (specCtxResume, q)
  | .ctxModerate q => some (specCtxModerate, q)
  | .ctxSched q => some (specCtxSched, q)
  | .fnShape q => some (specFnShape, q)
  | .fnQuota q => some (specFnQuota, q)
  | .ctxAbort q => some (specCtxAbort, q)
  | .fnAbort q => some (specFnAbort, q)
  | .pdCreate q => some (specPdCreate, q)
  | .pdDestroy q => some (specPdDestroy, q)
  | .regionRegister q => some (specRegionRegister, q)
  | .regionDeregister q => some (specRegionDeregister, q)
  | .fnTenant q => some (specFnTenant, q)
  | .fnS2Set q => some (specFnS2Set, q)
  | .regtabSet q => some (specRegtabSet, q)
  | .hostmapSet q => some (specHostmapSet (num q.payload 2 1), q)
  | .xlatFaultRingSet q => some (specXlatFaultRingSet, q)
  | .xlatResume q => some (specXlatResume, q)
  | .xlatInvalidate q => some (specXlatInvalidate, q)
  | .xlatAge q => some (specXlatAge, q)
  | .frameConfig q => some (specFrameConfig, q)
  | .timeStatus q => some (specTimeStatus, q)
  | .teConfig q => some (specTeConfig, q)
  | .tblWrite q => some (specTblWriteOf q, q)
  | .tblCommit q => some (specTblCommit, q)
  | .tblRead q => some (specTblRead, q)
  | .routeConfig q => some (specRouteConfig, q)
  | .dgramSend q => some (specDgramSend, q)
  | .dgramRecv q => some (specDgramRecv, q)
  | .linkStatus q => some (specLinkStatus, q)
  | .linkControl q => some (specLinkControl, q)
  | .slConfig q => some (specSlConfig, q)
  | .slStatus q => some (specSlStatus, q)
  | .slPrbs q => some (specSlPrbs, q)
  | .slSlip q => some (specSlSlip, q)
  | .commCreate q => some (specCommCreate, q)
  | .commDestroy q => some (specCommDestroy, q)
  | .commQuery q => some (specCommQuery, q)
  | .mgidGrant q => some (specMgidGrant, q)
  | .colConfig q => some (specColConfig, q)
  | .meCtxConfig q => some (specMeCtxConfig, q)
  | .meQuery q => some (specMeQuery, q)
  | .psetCreate q => some (specPsetCreate, q)
  | .psetDestroy q => some (specPsetDestroy, q)
  | .psetAdd q => some (specPsetAdd, q)
  | .psetRemove q => some (specPsetRemove, q)
  | .psetHint q => some (specPsetHint, q)
  | .psetQuery q => some (specPsetQuery, q)
  | .pePolicy q => some (specPePolicy, q)
  | .peRouteQuery q => some (specPeRouteQuery, q)
  | .cntConfig q => some (specCntConfig, q)
  | .cntRead q => some (specCntRead, q)
  | .cntGrant q => some (specCntGrant, q)
  | .cntBw q => some (specCntBw, q)
  | .fnCntRead q => some (specFnCntRead, q)
  | .traceConfig q => some (specTraceConfig, q)
  | .faultRead q => some (specFaultRead, q)
  | .faultClear q => some (specFaultClear, q)
  | .faultConfig q => some (specFaultConfig q, q)
  | .faultNotify q => some (specFaultNotify, q)
  | .faultInject q => some (specFaultInject, q)
  | .logRead q => some (specLogRead, q)
  | .logClear q => some (specLogClear, q)
  | .chipReset q => some (specChipReset, q)
  | .updateOpen q => some (specUpdateOpen, q)
  | .updateWrite q => some (specUpdateWrite, q)
  | .updateVerify q => some (specUpdateVerify, q)
  | .updateAbandon q => some (specUpdateAbandon, q)
  | .updateActivate q => some (specUpdateActivate, q)
  | .updateConfirm q => some (specUpdateConfirm, q)
  | .updateStatus q => some (specUpdateStatus, q)
  | .freshetConfig q => some (specFreshetConfig, q)
  | .settingsSave q => some (specSettingsSave, q)
  | .settingsSet q => some (specSettingsSet, q)
  | .bistRun q => some (specBistRun, q)
  | .pwrStatus q => some (specPwrStatus, q)
  | .pwrDomain q => some (specPwrDomain, q)
  | .cageConfig q => some (specCageConfig, q)
  | .cageControl q => some (specCageControl, q)
  | .cageStatus q => some (specCageStatus, q)
  | .cmisAccess q => some (specCmis q, q)
  | .sensorRead q => some (specSensorRead, q)
  | .sensorLimits q => some (specSensorLimits, q)
  | .lcStatus q => some (specLcStatus, q)
  | .attestRequest q => some (specAttestRequest, q)
  | .attestRead q => some (specAttestRead, q)
  | .idCertRead q => some (specIdCertRead, q)
  | .idCertWrite q => some (specIdCertWrite, q)
  | .keySet q => some (specKeySet, q)
  | .lcTransition q => some (specLcTransition, q)
  | _ => none

/-- What follows the response of a mailbox command: contexts, accesses and collectives that it let go on, an abort that is already over,
    and the challenge that SESSION_PROVE consumes. -/
def follows : Instr → Sys → Sys
  | .sessionProve q, y => dropChal y q.who
  | .ctxActivate _, y => settle y
  | .ctxResume _, y => settle y
  | .ctxAbort _, y => settle y
  | .fnAbort q, y => settle (fnAbortCheck y (num q.payload 1 1) (num q.payload 0 1))
  | .regionDeregister _, y => settle y
  | .xlatResume _, y => settle y
  | .xlatInvalidate _, y => settle y
  | .commCreate _, y => settle y
  | .commDestroy _, y => settle y
  | .psetDestroy _, y => settle y
  | .psetRemove _, y => settle y
  | _, y => y

end Sys2Proof.Machine
end

