-- ==== Sys2Proof/Certificates/Slice0/Obligations.lean ====
section
/-!
DEFINITION. The statements for the provers. Each follows rules of the spec or sections of it, as its docstring says; a clause that rests on a
choice of the model names the log entry.
-/
open Sys2Proof Sys2Proof.Machine

/-- A step is `exec` of the front command on the state with the rest of the queue; on an empty queue the block idles (log entry 1). -/
def Obligations.StepRunsFrontCommand : Prop :=
  (∀ (c : Instr) (rest : List Instr) (s : State), s.pending = c :: rest → step s = exec c { s with pending := rest }) ∧
    ∀ s : State, s.pending = [] → step s = .next s

/-- No command stops, and none touches the queue: that a row whose condition does not hold changes nothing, and does not stop, is log entry 9's. -/
def Obligations.EveryCommandAnswersNext : Prop :=
  ∀ (c : Instr) (s : State), ∃ t, exec c s = .next t ∧ t.pending = s.pending

/-- R373: fuse fields only gain bits, whatever command a step carries out, and only FUSE_PROGRAM_COMPLETE adds any. -/
def Obligations.FuseBitsAreNeverLost : Prop :=
  (∀ (f : FuseBank) (s t : State), Safe f s → step s = .next t → Safe f t) ∧
  (∀ s t : State, step s = .next t → (s.pending.head?.map programsFuses).getD false = false → t.fuse = s.fuse)

/-- What a power-on reset leaves (Table 13.1). The blank fuses are the model's choice (log entry 4), as are the erased flash (log entry 5), the
    configuration fields of host links (log entry 6, the family's), readings before the first measurement (log entry 7) and what else the spec gives
    no value for (log entry 8). -/
def Obligations.ResetStateStandsAtPowerOn : Prop :=
  let y := State.reset.sys
  Safe FuseBank.blank State.reset ∧ State.reset.pending = [] ∧ y.dev.st = .wiping ∧ y.start.cause = 1 ∧ y.time.ft = 0 ∧
    y.time.sync = .freeRun ∧ (∀ p, p < 64 → (getNp y p).st = .disabled ∧ (getNp y p).admin = false) ∧ y.rt.millpond = true ∧
    cvOf y.rt.act = false ∧ y.ctxs = [] ∧ y.svc.ccUp = false ∧ (∀ hp fn, mbxClosed y hp fn = true) ∧ y.log.recs = [] ∧
    Fits y

/-- A final response of a function's command (R43, Table 3.6), with its frame. Which context byte 9 shows is log entry 113's, and that BUSY ends in
    the step of the request log entry 10's. -/
def Obligations.ResponseLandsInItsBuffer : Prop :=
  ∀ (y : Sys) (q : MbxReq) (op : Nat) (st : Status) (named : Option Nat) (d : Bytes) (evt : Bool) (hp fn : Nat), q.who = .fn hp fn → fn < 64 →
    let t := finishNow y q op st named d evt
    let d' := if st = .stateConflict then [] else d
    let m := (getFn t hp fn).mbx
    Memory.readAll m.rspBuf 0 (16 + d'.length) =
        le 2 op ++ le 2 st.code ++ le 2 q.tag ++ le 2 d'.length ++ le 1 y.dev.st.code ++ le 1 (ctxByte y named) ++ zeros 6 ++ d' ∧
      m.lastTag = q.tag ∧ m.rspReady = (st != .accepted) ∧ m.accepted = (st == .accepted) ∧ m.held = false ∧
      m.reqBuf = (getFn y hp fn).mbx.reqBuf ∧
      t = { y with fns := t.fns, out := t.out, cnt := t.cnt } ∧
      (∀ hp' fn', fn' < 64 → (hp', fn') ≠ (hp, fn) → getFn t hp' fn' = getFn y hp' fn')

/-- R49: the first check that fails decides the status, and the refused request leaves no side effect but the signs of use of R59 and R393 (log
    entry 55) and the bus noted (R363, log entry 134). Byte 9 of the answer is log entry 122's, and that the answer comes in the same step
    log entry 10's. -/
def Obligations.RefusedCommandHasNoEffect : Prop :=
  ∀ (i : Instr) (c : Spec) (s : State) (q : MbxReq) (e : Status), mailbox i = some (c, q) →
    takes c.opcode s.sys q = true → preCheck c s.fuse (reached s.sys q) q = some e →
    exec i s = .next (s.at (follows i (turnedAway c s.fuse q (reached s.sys q) e)))

/-- R43, R451: a request on a closed or occupied mailbox; R48: a request while the CC is away. Over MCTP: what R363 and R364 discard (longer than
    Tarn reassembles, another EID, IANA number or KIND; that a row carries the whole message and the numbers of the buses are log entry 134's), what
    PCIe cannot carry while the link of HP0 is down (R94; which endpoint is on PCIe is log entry 134's), what the Wellhead ROM and Tarn serve (R366;
    which results are Tarn's own is log entry 56's), and what waits for the CC. What is served is stated with each command. -/
def Obligations.ClosedMailboxIgnoresRequests : Prop :=
  (∀ (i : Instr) (c : Spec) (s : State) (q : MbxReq), mailbox i = some (c, q) →
    (∀ hp fn, q.who = .fn hp fn →
      (mbxClosed s.sys hp fn = true ∨ (getFn s.sys hp fn).mbx.held = true →
        exec i s = .next (s.at (modMbx s.sys hp fn fun m => { m with ovr := true }))) ∧
      (mbxClosed s.sys hp fn = false → (getFn s.sys hp fn).mbx.held = false → s.sys.svc.ccUp = false ∨ s.sys.pwr.tripped = true →
        ∃ y, exec i s = .next (s.at y) ∧ y.svc.held = (s.sys.svc.held.filter fun h => h.req.who != q.who) ++ [{ opcode := c.opcode, req := q }] ∧
          y = { modMbx s.sys hp fn fun m => { m with held := true, accepted := false, rspReady := false } with svc := y.svc } ∧
          y.svc = { s.sys.svc with held := y.svc.held })) ∧
    (∀ e, q.who = .mctp e →
      let here := (match q.via with | some v => viaOk s.sys v | none => mctpUp s.sys e) = true
      let x := reached s.sys q
      (4080 < q.payload.length ∨ ¬ here → exec i s = .next s) ∧
      (q.payload.length ≤ 4080 → here → early s.sys = true → c.opcode ≠ 1 → c.opcode ≠ 2 →
        exec i s = .next (s.at (finishNow x q c.opcode .busy none [] false))) ∧
      (q.payload.length ≤ 4080 → here → early s.sys = false → s.sys.svc.ccUp = false ∨ s.sys.pwr.tripped = true →
        tarnTakes s.sys c.opcode q = false → exec i s =
          .next (s.at { x with svc := { x.svc with held := s.sys.svc.held ++ [{ opcode := c.opcode, req := q }] } })))) ∧
  (∀ (y : Sys) (v : MctpVia), viaOk y v = true ↔ v.iana = 0x00F42A91 ∧ v.kind = 1 ∧ (v.dst = 0 ∨ tget y.svc.eids v.bus = some v.dst) ∧
    (v.bus = 2 → (getHp y 0).a.up = true)) ∧
  (∀ (y : Sys) (op : Nat) (q : MbxReq), tarnTakes y op q = true ↔
    op ∈ [1, 2, 0x07E0, 0x07E1, 0x07F0, 0x0B01] ∨ op / 256 = 0x0A ∨
      (op = 4 ∧ ∃ p, p ∈ y.svc.pend ∧ p.who = q.who ∧ p.tag = num q.payload 0 2 ∧ p.tarn = true))

/-- The answers of the commands that report on the device, over the mailbox and, in the states of R366, over MCTP. TIME_STATUS gives the sample of
    the last tick (R39; what it shows of hops, rate, HOLDOVER and a wide offset: log entries 104, 118 and 120; CERT_LEN: log entry 99). That they
    answer in the same step is log entry 10's. -/
def Obligations.DeviceQueriesAnswer : Prop :=
  ∀ (s : State) (q : MbxReq), let y := s.sys
    (passes specIdentify s q = true → answers (.identify q) specIdentify s q fun d =>
      d.length = 48 ∧ num d 0 1 = s.fuse.order % 256 ∧ num d 1 1 = 0x21 ∧ num d 16 2 = y.start.incarn % 65536 ∧ num d 18 1 = y.dev.st.code ∧
        num d 19 1 = (lifecycle s.fuse y).code ∧ num d 24 8 = s.fuse.uid % 2 ^ 64 ∧ num d 32 8 = npMask s.fuse) ∧
    (passes specGetState s q = true → answers (.getState q) specGetState s q fun d =>
      d.length = 16 ∧ num d 0 1 = y.dev.st.code ∧ num d 1 1 = y.dev.prev.code ∧ (num d 2 1).testBit 0 = degr y ∧
        num d 3 1 = (y.svc.pend.filter fun p => p.who == q.who).length % 256 ∧ num d 8 8 = y.dev.ftTrans % 2 ^ 64) ∧
    (passes specTimeStatus s q = true →
      exec (.timeStatus q) s = .next (s.at (okay specTimeStatus q (used s q) (y.time.samp.getD (timeStatusBytes y))))) ∧
    (sampleTime y).time.samp = some (timeStatusBytes y) ∧
    (let d := timeStatusBytes y;
      d.length = 40 ∧ num d 0 8 = y.time.ft % 2 ^ 64 ∧ num d 9 1 = (y.time.upPort.getD 0x7F) % 256 ∧ num d 13 1 = y.time.colwin % 256 ∧
        num d 24 8 = (y.time.ppsOrigin.getD 0) % 2 ^ 64 ∧ num d 32 8 = ((y.time.pendCfg.map (·.epoch)).getD 0) % 2 ^ 64) ∧
    (passes specUpdateStatus s q = true → answers (.updateStatus q) specUpdateStatus s q fun d =>
      d.length = 96 ∧ num d 0 1 = (getSlot y 0).st.code ∧ num d 1 1 = (getSlot y 1).st.code ∧ (num d 2 1).testBit 0 = y.upd.lock.isSome ∧
        sub d 16 32 = fit 32 (getSlot y 0).mdigest ∧ sub d 48 32 = fit 32 (getSlot y 1).mdigest ∧ num d 88 1 = y.upd.lastEnd % 256) ∧
    (passes specLcStatus s q = true → answers (.lcStatus q) specLcStatus s q fun d =>
      d.length = 96 ∧ num d 0 1 = (lifecycle s.fuse y).code ∧ num d 1 1 = popcount (fusesNow s.fuse y).dbgCnt ∧ num d 8 8 = popcount s.fuse.svnFloor ∧
        num d 16 8 = s.fuse.uid % 2 ^ 64 ∧ num d 24 4 = certLen y % 2 ^ 32) ∧
    (passes specLinkStatus s q = true → answers (.linkStatus q) specLinkStatus s q fun d =>
      let n := getNp y (num q.payload 0 1)
      d.length = 24 ∧ num d 0 1 = n.st.code ∧ num d 2 1 = n.cause % 256 ∧ num d 3 1 = n.attempts % 256 ∧ num d 4 2 = n.ll.txseq % 65536 ∧
        num d 6 2 = n.ll.nrx % 65536 ∧ num d 8 2 = n.ll.replay.length % 65536 ∧ num d 14 2 = (n.tm.rtt.getD 3200) % 65536 ∧
        num d 16 4 = n.downs % 2 ^ 32)

/-- The answers of the commands that report on one object of the device. COMM_QUERY without membership is log entry 33's, what it shows before the
    list is read log entry 136's, ME_QUERY's bytes on chip log entry 165's, PSET_QUERY by a member's function log entry 34's, and the SHARE of a
    FIXED or EQUAL set log entry 154's. That a request is answered in the step of its row is log entry 10's, and what an answer to a refused one
    shows and leaves log entries 55 and 113's. -/
def Obligations.ContextQueriesAnswer : Prop :=
  ∀ (s : State) (q : MbxReq), let y := used s q
    (passes specCtxQuery s q = true →
      (∀ x, getCtx y (arg0 q.payload) = some x → exec (.ctxQuery q) s = .next (s.at (okay specCtxQuery q y
        (le 1 x.st.code ++ le 1 (stallBits x) ++ le 2 x.pd ++ le 2 x.slot ++ le 2 x.head ++ le 4 (heldFault y (arg0 q.payload)) ++
          le 4 (y.te.segs.filter fun g => g.ctx == arg0 q.payload).length)))) ∧
      (getCtx y (arg0 q.payload) = none → exec (.ctxQuery q) s = .next (s.at (okay specCtxQuery q y (zeros 16))))) ∧
    (passes specMeQuery s q = true →
      (∀ x, getCtx y (arg0 q.payload) = some x → exec (.meQuery q) s = .next (s.at (okay specMeQuery q y
        (le 2 x.posted.length ++ le 2 (unexpOf y (arg0 q.payload)).length ++ le 4 (onChip y (arg0 q.payload)) ++ le 4 (ovfUsed x) ++
          le 2 x.deferred.length ++ zeros 2)))) ∧
      (getCtx y (arg0 q.payload) = none → exec (.meQuery q) s = .next (s.at (refusedWith specMeQuery q y .stateConflict)))) ∧
    (passes specCommQuery s q = true →
      (∀ c m, memberOf y (num q.payload 2 2) (arg0 q.payload) = some (c, m) →
        exec (.commQuery q) s = .next (s.at (okay specCommQuery q y (commBytes c m)))) ∧
      (memberOf y (num q.payload 2 2) (arg0 q.payload) = none →
        exec (.commQuery q) s = .next (s.at (refusedWith specCommQuery q y .stateConflict)))) ∧
    (passes specPsetQuery s q = true → ∀ p, getSet y (arg0 q.payload) = some p →
      exec (.psetQuery q) s = .next (s.at (okay specPsetQuery q y (psetBytes p)))) ∧
    (passes specPeRouteQuery s q = true →
      let c := (tget y.pe.cands (arg0 q.payload)).getD { list := [], frame := 0 }
      exec (.peRouteQuery q) s = .next (s.at (okay specPeRouteQuery q y
        (((List.range 4).flatMap fun i => le 2 ((c.list[i]?.map (·.1)).getD 0x3FF)) ++
          ((List.range 4).flatMap fun i => le 2 ((c.list[i]?.map (·.2)).getD 0xFFFF)) ++ le 4 c.frame))))

/-- The commands that read records. FN_CNT_READ over MCTP is log entry 48's, ranges beyond the last block log entry 101's, CERT_LEN and the
    certificate's bytes log entry 99's, and that reports are the requester's own log entry 100's. That a request is answered in the step of its row
    is log entry 10's, and what an answer to a refused one shows and leaves log entries 113 and 122's. -/
def Obligations.RecordsAreRead : Prop :=
  ∀ (s : State) (q : MbxReq), let y := used s q
    let b := q.payload
    (passes specCntRead s q = true → exec (.cntRead q) s = .next (s.at (okay specCntRead q y
      (((List.range (num b 1 1)).flatMap fun i => blockRecs y (num b 0 1 + i)).flatten)))) ∧
    (passes specFnCntRead s q = true → ∀ hp fn, q.who = .fn hp fn →
      exec (.fnCntRead q) s = .next (s.at (okay specFnCntRead q y (recD3 y hp fn)))) ∧
    (∀ e, q.who = .mctp e → takes specFnCntRead.opcode s.sys q = true → b = [] → q.flags < 2 →
      exec (.fnCntRead q) s = .next (s.at (turnedAway specFnCntRead s.fuse q (reached s.sys q) .badParam))) ∧
    (passes specFaultRead s q = true → exec (.faultRead q) s = .next (s.at (okay specFaultRead q y
      (le 16 (fsw y) ++ le 16 (lostBits y) ++ ((List.range (num b 1 1)).flatMap fun k => srcBytes s.fuse y (num b 0 1 + k)))))) ∧
    (passes specLogRead s q = true →
      exec (.logRead q) s = .next (s.at (okay specLogRead q y (logReadBytes y (num b 0 4) (num b 4 1))))) ∧
    (passes specIdCertRead s q = true →
      exec (.idCertRead q) s = .next (s.at (okay specIdCertRead q y (sub y.sec.cert (num b 0 4) (num b 4 2))))) ∧
    (passes specTblRead s q = true → exec (.tblRead q) s = .next (s.at (okay specTblRead q y
      ((List.range (num b 2 2)).flatMap fun i =>
        le (tblShape (num b 0 1)).1 (bankRead y (if num b 1 1 = 1 then y.rt.sh else y.rt.act) (num b 0 1) (num b 4 4 + i)))))) ∧
    (passes specAttestRead s q = true → ∀ r, reportOf y q = some r → exec (.attestRead q) s = .next (s.at (okay specAttestRead q
      { y with sec := { y.sec with reports := y.sec.reports.map fun x => if x == r then { x with lastEpoch := epoch y } else x } }
      (sub r.data (num b 4 4) (num b 8 2)))))

/-- The commands on the board and the lanes that read. What a module answers is a free value (log entry 3) and what a write does there is R358's
    alone (log entry 82); which bytes a write may not touch once the module is ready is log entry 38's, and that it may touch none in steps 1 and 5
    and until the module answers is R362's. That a request is answered in the step of its row is log entry 10's, and what an answer to a refused one
    shows and leaves log entries 55 and 113's. -/
def Obligations.BoardQueriesAnswer : Prop :=
  ∀ (s : State) (q : MbxReq), let y := used s q
    let b := q.payload
    (passes specPwrStatus s q = true → exec (.pwrStatus q) s = .next (s.at (okay specPwrStatus q y (pwrStatusBytes y)))) ∧
    (passes specSensorRead s q = true → exec (.sensorRead q) s = .next (s.at (okay specSensorRead q y (sensorBytes y)))) ∧
    (passes specCageStatus s q = true →
      exec (.cageStatus q) s = .next (s.at (okay specCageStatus q y (cageStatusBytes (getCage y (num b 0 1)))))) ∧
    (passes specSlStatus s q = true →
      let t := if num b 1 1 = 1 then modNp y (num b 0 1) fun n => { n with corrUnits := 0, uncorrUnits := 0, corrSyms := 0 } else y
      exec (.slStatus q) s = .next (s.at (okay specSlStatus q t (slStatusBytes (getNp y (num b 0 1)))))) ∧
    (passes (specCmis q) s q = true → mayWait s q = true → (getCage y (num b 0 1)).st = .powered → num b 1 1 ≠ 1 →
      exec (.cmisAccess q) s =
        .next (s.at (endsAtOnce (specCmis q) q y { y with free := y.free + num b 5 1 } (freeBytes y.free (num b 5 1))))) ∧
    (passes (specCmis q) s q = true → mayWait s q = true → (getCage y (num b 0 1)).st = .powered → num b 1 1 = 1 →
      ((getCage y (num b 0 1)).ready = false ∨ (getCage y (num b 0 1)).passive = true ∨
        cmisTouches (num b 3 1) (num b 4 1) (num b 5 1) = false) →
      (getCage y (num b 0 1)).step ≠ 1 → (getCage y (num b 0 1)).step ≠ 5 → (getCage y (num b 0 1)).step ≠ 6 →
      exec (.cmisAccess q) s = .next (s.at (endsAtOnce (specCmis q) q y y []))) ∧
    (passes (specCmis q) s q = true → (getCage y (num b 0 1)).st = .powered → num b 1 1 = 1 →
      ((getCage y (num b 0 1)).ready = true ∧ (getCage y (num b 0 1)).passive = false ∧
          cmisTouches (num b 3 1) (num b 4 1) (num b 5 1) = true) ∨
        (getCage y (num b 0 1)).step = 1 ∨ (getCage y (num b 0 1)).step = 5 ∨ (getCage y (num b 0 1)).step = 6 →
      exec (.cmisAccess q) s = .next (s.at (refusedWith (specCmis q) q y .stateConflict))) ∧
    (passes (specCmis q) s q = true → (getCage y (num b 0 1)).st ≠ .powered →
      exec (.cmisAccess q) s = .next (s.at (refusedWith (specCmis q) q y .stateConflict)))

/-- Event rings, notification masks and stored results. XLAT_FAULT_RING_SET over MCTP is PRIVILEGE (log entry 109). MBX_RESULT gives the stored
    result with its own tag as LAST_TAG; that the MBX_DONE event which DONE_EVT asks of it has status 0 is log entry 80's. That a request is
    answered in the step of its row is log entry 10's, and what an answer to a refused one shows and leaves log entries 55, 113 and 122's. -/
def Obligations.RingsAndResultsAreSet : Prop :=
  ∀ (s : State) (q : MbxReq), let y := used s q
    let b := q.payload
    (passes specAdminRingSet s q = true →
      (∀ hp fn, q.who = .fn hp fn → exec (.adminRingSet q) s = .next (s.at (okay specAdminRingSet q (modMbx y hp fn fun m =>
        { m with adminHead := 0,
                 admin := if num b 0 8 = 0 then none else
                   some { base := num b 0 8, count := num b 8 2, widx := 0, phase := true, unread := 0, vector := 0 } }) []))) ∧
      (∀ e, q.who = .mctp e → exec (.adminRingSet q) s = .next (s.at (okay specAdminRingSet q { y with svc := { y.svc with
        subs := (y.svc.subs.filter (· != e)) ++ (if num b 0 8 = 0 then [] else [e]) } } [])))) ∧
    (passes specXlatFaultRingSet s q = true → ∀ hp fn, q.who = .fn hp fn →
      exec (.xlatFaultRingSet q) s = .next (s.at (okay specXlatFaultRingSet q (modMbx y hp fn fun m =>
        { m with xfHead := 0,
                 xfault := if num b 0 8 = 0 then none else
                   some { base := num b 0 8, count := num b 8 2, widx := 0, phase := true, unread := 0, vector := num b 10 2 } }) []))) ∧
    (∀ e, q.who = .mctp e → wellMade specXlatFaultRingSet s q = true →
      exec (.xlatFaultRingSet q) s = .next (s.at (turnedAway specXlatFaultRingSet s.fuse q (reached s.sys q) .privilege))) ∧
    (passes specFaultNotify s q = true →
      (∀ hp fn, q.who = .fn hp fn → exec (.faultNotify q) s = .next (s.at (okay specFaultNotify q (modFn y hp fn fun g =>
        { g with notifyMask := num b 0 16, notifyVec := num b 16 2 }) []))) ∧
      (∀ e, q.who = .mctp e → exec (.faultNotify q) s = .next (s.at (okay specFaultNotify q { y with flt := { y.flt with
        notify := if num b 0 16 = 0 then tdel y.flt.notify e else tset y.flt.notify e (num b 0 16) } } [])))) ∧
    (passes specMbxResult s q = true → ∀ p, pendOf y q.who (arg0 b) = some p →
      (∀ r, p.res = some r → exec (.mbxResult q) s = .next (s.at
        (let t := respond { y with svc := { y.svc with pend := y.svc.pend.filter fun p => !(p.who == q.who && p.tag == arg0 b) } } q.who q.tag r
         if q.flags.testBit 0 then postDone t q.who q.tag 0x0004 0 else t))) ∧
      (p.res = none → exec (.mbxResult q) s = .next (s.at (refusedWith specMbxResult q y .busy))))

/-- Sessions: challenge, proof and end. The nonce and the token are free values (R56, R57; log entry 3); the count of epochs of a back-off is log
    entry 123's, and that in BLANK and FIELD_DEBUG there is none R383's. That a request is answered in the step of its row is log entry 10's, and
    what an answer to a refused one shows and leaves log entries 55 and 113's. -/
def Obligations.SessionsOpenProveAndClose : Prop :=
  ∀ (s : State) (q : MbxReq), let y := used s q
    let k := num q.payload 0 1
    let plain := lifecycle s.fuse y ≠ .blank ∧ lifecycle s.fuse y ≠ .fieldDebug
    (passes specSessionOpen s q = true →
      (plain → (keySlot y k).until_ ≤ epoch y →
        let n := le 32 (Config.nonce y.free).toNat
        exec (.sessionOpen q) s = .next (s.at (okay specSessionOpen q { y with free := y.free + 1, sec := { y.sec with
          chals := (y.sec.chals.filter fun c => c.who != q.who) ++ [{ who := q.who, slot := k, nonce := n, epoch := epoch y }] } } n))) ∧
      (plain → epoch y < (keySlot y k).until_ → exec (.sessionOpen q) s = .next (s.at (refusedWith specSessionOpen q y .busy))) ∧
      (¬ plain → exec (.sessionOpen q) s = .next (s.at (refusedWith specSessionOpen q y .stateConflict)))) ∧
    (passes specSessionProve s q = true →
      ((y.sec.chals.find? fun c => c.who == q.who && c.slot == k) = none →
        exec (.sessionProve q) s = .next (s.at (dropChal (refusedWith specSessionProve q y .authFail) q.who))) ∧
      (∀ c, (y.sec.chals.find? fun c => c.who == q.who && c.slot == k) = some c →
        let back := min 1024 (2 ^ (keySlot y c.slot).fails)
        let held := (y.sec.sessions.filter fun x => sameLimit x.who q.who).length
        let good := modKey y c.slot fun x => { x with fails := 0, until_ := 0 }
        (proofOk s.fuse y q c = false → exec (.sessionProve q) s = .next (s.at (dropChal (refusedWith specSessionProve q
          (logW (modKey y c.slot fun x => { x with fails := (keySlot y c.slot).fails + 1, until_ := epoch y + back })
            0x0013 1 0xFFFF (c.slot + 256 * min 255 ((keySlot y c.slot).fails + 1))) .authFail) q.who))) ∧
        (proofOk s.fuse y q c = true → 4 ≤ held →
          exec (.sessionProve q) s = .next (s.at (dropChal (refusedWith specSessionProve q good .noResource) q.who))) ∧
        (proofOk s.fuse y q c = true → held < 4 →
          let tok := (Config.tokenLessOne y.free).val + 1
          let fam := (keySlot good c.slot).mask
          exec (.sessionProve q) s = .next (s.at (dropChal (okay specSessionProve q { good with free := y.free + 1, sec := { good.sec with
            sessions := y.sec.sessions ++
              [{ who := q.who, token := tok, slot := c.slot, families := fam, lastEpoch := epoch y, nonce := c.nonce, keySets := 0 }] } }
            (le 8 tok ++ le 2 (fam % 0x1000) ++ zeros 2 ++ le 4 y.upd.idle)) q.who))))) ∧
    (passes specSessionClose s q = true → exec (.sessionClose q) s = .next (s.at (okay specSessionClose q
      (endSessions y (fun x => x.who == q.who && x.token == q.token) 1 fun _ => false) [])))

/-- Quiescence and aborts begin. DEV_QUIESCE while one runs is log entry 79's, which contexts FN_ABORT counts log entry 61's, and which events an
    abort posts log entry 63's. That a request is answered in the step of its row is log entry 10's, what an answer to a refused one shows and
    leaves log entries 55 and 113's, and what goes on at once after it (`settle`) log entry 110's. -/
def Obligations.QuiesceAndAbortBegin : Prop :=
  ∀ (s : State) (q : MbxReq), mayWait s q = true → let y := used s q
    let c := arg0 q.payload
    let fn := num q.payload 0 1
    let hp := num q.payload 1 1
    let live := y.dev.st = .ready ∨ y.dev.st = .degraded
    (passes specDevQuiesce s q = true →
      (live → y.dev.quiescing = false →
        exec (.devQuiesce q) s = .next (s.at (waits specDevQuiesce q { y with dev := { y.dev with quiescing := true } } .quiesce))) ∧
      (¬ live ∨ y.dev.quiescing = true → exec (.devQuiesce q) s = .next (s.at (refusedWith specDevQuiesce q y .stateConflict)))) ∧
    (passes specDevResume s q = true →
      (y.dev.st = .quiesced → exec (.devResume q) s = .next (s.at (endsAtOnce specDevResume q y (setDev y (readyOr y)) []))) ∧
      (y.dev.st ≠ .quiesced → exec (.devResume q) s = .next (s.at (refusedWith specDevResume q y .stateConflict)))) ∧
    (passes specCtxAbort s q = true →
      (abortable y c = true → exec (.ctxAbort q) s =
        .next (s.at (settle (waits specCtxAbort q (abortCtx y c (!ownCtx y q c)) (.ctxAbort c (frame y + 40)))))) ∧
      (abortable y c = false → exec (.ctxAbort q) s = .next (s.at (settle (refusedWith specCtxAbort q y .stateConflict))))) ∧
    (passes specFnAbort s q = true →
      ((getFn y hp fn).fnAbort = false → exec (.fnAbort q) s = .next (s.at (settle (fnAbortCheck (waits specFnAbort q
        (abortFn (modFn y hp fn fun g => { g with fnAbort := true }) hp fn (q.who != .fn hp fn))
        (.fnAbort hp fn (frame y + 400) 0 0 0 0)) hp fn)))) ∧
      ((getFn y hp fn).fnAbort = true →
        exec (.fnAbort q) s = .next (s.at (settle (fnAbortCheck (refusedWith specFnAbort q y .stateConflict) hp fn)))))

/-- The life of a context under the commands. CTX_CREATE over MCTP is PRIVILEGE: an endpoint owns no PD (R97, log entry 109). Which CTX_STATE events
    are posted is log entry 63's, byte 9 of the answers log entry 113's. That a request is answered in the step of its row is log entry 10's, what
    an answer to a refused one shows and leaves log entries 55 and 122's, and what goes on at once after it (`settle`) log entry 110's. -/
def Obligations.ContextsAreMadeAndFreed : Prop :=
  ∀ (s : State) (q : MbxReq), let y := used s q
    let b := q.payload
    let c := arg0 b
    (passes specCtxCreate s q = true → ∀ hp fn, q.who = .fn hp fn →
      (∀ k, freeCtxId y = some k → exec (.ctxCreate q) s =
        .next (s.at (okay specCtxCreate q { y with ctxs := tset y.ctxs k (Ctx.new hp fn b) } (le 2 k ++ zeros 2)))) ∧
      (freeCtxId y = none → exec (.ctxCreate q) s = .next (s.at (refusedWith specCtxCreate q y .noResource)))) ∧
    (∀ e, q.who = .mctp e → wellMade specCtxCreate s q = true →
      exec (.ctxCreate q) s = .next (s.at (turnedAway specCtxCreate s.fuse q (reached s.sys q) .privilege))) ∧
    (passes specCtxDestroy s q = true → ∀ x, getCtx y c = some x →
      let may := (x.st = .created ∨ x.st = .drained) ∧ inComm y c = false ∧ inSet y c = false
      (may → q.who = .fn x.hp x.fn → exec (.ctxDestroy q) s = .next (s.at (okay specCtxDestroy q (freeCtx y c) []))) ∧
      (may → q.who ≠ .fn x.hp x.fn → exec (.ctxDestroy q) s = .next (s.at (okay specCtxDestroy q
        (adminFn (freeCtx y c) x.hp x.fn { AEv.of 0xE2 with old := x.st.code, tag := c }) []))) ∧
      (¬ may → exec (.ctxDestroy q) s = .next (s.at (refusedWith specCtxDestroy q y .stateConflict)))) ∧
    (passes specCtxActivate s q = true → ∀ x, getCtx y c = some x →
      (x.st = .created → exec (.ctxActivate q) s =
        .next (s.at (settle (okay specCtxActivate q (ctxTo y c .active (!ownCtx y q c)) [])))) ∧
      (x.st ≠ .created → exec (.ctxActivate q) s = .next (s.at (settle (refusedWith specCtxActivate q y .stateConflict))))) ∧
    (passes specCtxResume s q = true → ∀ x, getCtx y c = some x →
      (x.st = .stalled → eqFull x = false → exec (.ctxResume q) s = .next (s.at (settle (okay specCtxResume q
        (unstall (modCtx y c fun z => { z with ringSt := false }) c (!ownCtx y q c)) [])))) ∧
      (x.st = .stalled → eqFull x = true → (x.ringSt = false ∨ x.cmdSt = true ∨ x.dataSt = true) →
        exec (.ctxResume q) s = .next (s.at (settle (okay specCtxResume q y [])))) ∧
      (x.st ≠ .stalled ∨ (x.ringSt = true ∧ x.cmdSt = false ∧ x.dataSt = false ∧ eqFull x = true) →
        exec (.ctxResume q) s = .next (s.at (settle (refusedWith specCtxResume q y .stateConflict)))))

/-- Settings of contexts, functions and the transport, each pending where its rule says so. That a request is answered in the step of its row is log
    entry 10's, and what an answer to a refused one shows and leaves log entries 55 and 113's. -/
def Obligations.ContextSettingsAreStored : Prop :=
  ∀ (s : State) (q : MbxReq), let y := used s q
    let b := q.payload
    let c := arg0 b
    let fn := num b 0 1
    let hp := num b 1 1
    (passes specCtxModerate s q = true →
      (∀ x, getCtx y c = some x → exec (.ctxModerate q) s = .next (s.at (okay specCtxModerate q
        (modCtx y c fun x => { x with modPend := some (num b 2 2, num b 4 2, num b 6 2) }) []))) ∧
      (getCtx y c = none → exec (.ctxModerate q) s = .next (s.at (refusedWith specCtxModerate q y .stateConflict)))) ∧
    (passes specCtxSched s q = true →
      (∀ x, getCtx y c = some x → exec (.ctxSched q) s = .next (s.at (okay specCtxSched q (modCtx y c fun x =>
        { x with weightPend := some (num b 2 1), shaper := { x.shaper with pend := some (num b 4 4, num b 8 4) } }) []))) ∧
      (getCtx y c = none → exec (.ctxSched q) s = .next (s.at (refusedWith specCtxSched q y .stateConflict)))) ∧
    (passes specFnShape s q = true → exec (.fnShape q) s = .next (s.at (okay specFnShape q
      (modFn y hp fn fun g => { g with shaper := { g.shaper with pend := some (num b 4 4, num b 8 4) } }) []))) ∧
    (passes specFnQuota s q = true →
      let tooMany := (y.ctxs.any fun e => e.2.hp == hp && e.2.fn == fn && decide (num b 2 2 ≤ e.2.slot)) = true ∨ num b 4 2 < pdCount y hp fn
      (¬ tooMany → exec (.fnQuota q) s = .next (s.at (okay specFnQuota q
        (modFn y hp fn fun g => { g with ctxQuota := num b 2 2, pdQuota := num b 4 2 }) []))) ∧
      (tooMany → exec (.fnQuota q) s = .next (s.at (refusedWith specFnQuota q y .stateConflict)))) ∧
    (passes specMeCtxConfig s q = true → ∀ x, getCtx y c = some x →
      let moved := num b 16 8 ≠ x.ovfBase ∨ num b 24 4 ≠ x.ovfPages
      let keep := x.posted.length ≤ num b 8 2 ∧ (unexpOf y c).length ≤ num b 10 2 ∧ (moved → ovfUsed x = 0)
      (keep → exec (.meCtxConfig q) s = .next (s.at (okay specMeCtxConfig q (modCtx y c fun z =>
        { z with eager := num b 4 4, postedMax := num b 8 2, unexpMax := num b 10 2, onchip := num b 12 4, ovfBase := num b 16 8,
                 ovfPages := num b 24 4, ovfNext := if moved then 0 else z.ovfNext }) []))) ∧
      (¬ keep → exec (.meCtxConfig q) s = .next (s.at (refusedWith specMeCtxConfig q y .stateConflict)))) ∧
    (passes specMeCtxConfig s q = true → getCtx y c = none →
      exec (.meCtxConfig q) s = .next (s.at (refusedWith specMeCtxConfig q y .stateConflict))) ∧
    (passes specTeConfig s q = true → exec (.teConfig q) s = .next (s.at (okay specTeConfig q
      { y with te := { y.te with rto := num b 0 2, retryLimit := num b 2 1, nackLimit := num b 4 2, peerIssue := num b 6 2 } } [])))

/-- Protection domains, tenants and stage 2. Which PDID is given is log entry 130's, what FN_S2_SET leaves cached log entry 131's, and PD_CREATE
    over MCTP log entry 109's. That a request is answered in the step of its row is log entry 10's, and what an answer to a refused one shows and
    leaves log entries 55, 113 and 122's. -/
def Obligations.DomainsAndTenants : Prop :=
  ∀ (s : State) (q : MbxReq), let y := used s q
    let b := q.payload
    let fn := num b 0 1
    let hp := num b 1 1
    (passes specPdCreate s q = true → ∀ h g, q.who = .fn h g →
      (∀ k, freePdId y = some k → pdCount y h g < (getFn y h g).pdQuota →
        let pd : Pd := { hp := h, fn := g, tid := (getFn y h g).tid, root := num b 0 8, s1En := (num b 8 1).testBit 0,
                         adTrap := (num b 8 1).testBit 1, sug := (num b 8 1).testBit 2, dataStall := (num b 8 1).testBit 3 }
        exec (.pdCreate q) s =
          .next (s.at (okay specPdCreate q { y with xl := { y.xl with pds := tset y.xl.pds k pd } } (le 2 k ++ zeros 2)))) ∧
      (freePdId y = none ∨ (getFn y h g).pdQuota ≤ pdCount y h g →
        exec (.pdCreate q) s = .next (s.at (refusedWith specPdCreate q y .noResource)))) ∧
    (∀ e, q.who = .mctp e → wellMade specPdCreate s q = true →
      exec (.pdCreate q) s = .next (s.at (turnedAway specPdCreate s.fuse q (reached s.sys q) .privilege))) ∧
    (passes specPdDestroy s q = true →
      let busy := (y.ctxs.any fun e => e.2.pd == arg0 b) = true ∨ pdHasRegion y (arg0 b) = true
      (¬ busy → exec (.pdDestroy q) s =
        let t := invalPdAll y (arg0 b)
        .next (s.at (okay specPdDestroy q { t with xl := { t.xl with pds := tdel t.xl.pds (arg0 b) } } []))) ∧
      (busy → exec (.pdDestroy q) s = .next (s.at (refusedWith specPdDestroy q y .stateConflict)))) ∧
    (passes specFnTenant s q = true →
      (pdCount y hp fn = 0 →
        exec (.fnTenant q) s = .next (s.at (okay specFnTenant q (modFn y hp fn fun g => { g with tid := num b 2 2 }) []))) ∧
      (pdCount y hp fn ≠ 0 → exec (.fnTenant q) s = .next (s.at (refusedWith specFnTenant q y .stateConflict)))) ∧
    (passes specFnS2Set s q = true →
      (ctxsOf y hp fn = [] → exec (.fnS2Set q) s = .next (s.at (okay specFnS2Set q (modFn y hp fn fun g =>
        { g with s2En := (num b 2 1).testBit 0, s2Ad := (num b 2 1).testBit 1, s2Root := num b 8 8 }) []))) ∧
      (ctxsOf y hp fn ≠ [] → exec (.fnS2Set q) s = .next (s.at (refusedWith specFnS2Set q y .stateConflict))))

/-- Remote regions and host address windows. Where the first allocation starts, what REGTAB_SET reads and that a read in flight of the old table
    puts nothing into the cache is log entry 72's, and REGION_DEREGISTER over MCTP log entry 30's. That a request is answered in the step of its row
    is log entry 10's, what an answer to a refused one shows and leaves log entries 55, 113 and 122's, and what goes on at once after it (`settle`)
    log entry 110's. -/
def Obligations.RegionsAndWindows : Prop :=
  ∀ (s : State) (q : MbxReq), let y := used s q
    let b := q.payload
    (passes specRegionRegister s q = true → ∀ p, tget y.xl.pds (num b 0 2) = some p →
      (∀ t, (getHp y p.hp).regtab = some t →
        (∀ i, t.next = some i → let g := genAfter (t.at_ i).lgen
          exec (.regionRegister q) s = .next (s.at (okay specRegionRegister q (putRegion y p.hp i
            { base := num b 8 8, len := num b 16 8, pd := num b 0 2, rights := num b 2 1, gen := g, fn := p.fn, lgen := (t.at_ i).lgen } true)
            (le 4 (g * 2 ^ 24 + i))))) ∧
        (t.next = none → exec (.regionRegister q) s = .next (s.at (refusedWith specRegionRegister q y .noResource)))) ∧
      ((getHp y p.hp).regtab = none → exec (.regionRegister q) s = .next (s.at (refusedWith specRegionRegister q y .noResource)))) ∧
    (passes specRegionDeregister s q = true → mayWait s q = true → ∀ hp fn r, q.who = .fn hp fn → regionOf y hp (num b 0 4) = some r →
      exec (.regionDeregister q) s = .next (s.at (settle (waits specRegionDeregister q
        (putRegion y hp (num b 0 4 % 2 ^ 24) { r with gen := 0, lgen := r.gen } false) (.deregister hp (num b 0 4 % 2 ^ 24)))))) ∧
    (∀ e, q.who = .mctp e → wellMade specRegionDeregister s q = true →
      exec (.regionDeregister q) s = .next (s.at (settle (turnedAway specRegionDeregister s.fuse q (reached s.sys q) .privilege)))) ∧
    (passes specRegtabSet s q = true →
      let used' := ∃ t, (getHp y (num b 0 1)).regtab = some t ∧ ∃ e ∈ t.ents, e.2.gen ≠ 0
      let t : Sys := { y with xl := { y.xl with l2 := y.xl.l2.filter fun e => match e with | .reg h _ _ => h != num b 0 1 | .comb _ => true } }
      let t := staleReads t (num b 0 1) fun _ => true
      (¬ used' → exec (.regtabSet q) s = .next (s.at (okay specRegtabSet q (modHp t (num b 0 1) fun h =>
        { h with regtab := if num b 8 8 = 0 then none else
                   some { bus := num b 8 8, log2 := num b 1 1, last := 2 ^ num b 1 1 - 1, ents := regEnts (num b 1 1) q.mem } }) []))) ∧
      (used' → exec (.regtabSet q) s = .next (s.at (refusedWith specRegtabSet q y .busy)))) ∧
    (passes (specHostmapSet (num b 2 1)) s q = true → exec (.hostmapSet q) s = .next (s.at (okay (specHostmapSet (num b 2 1)) q
      (modHp y (num b 0 1) fun h => { h with windows := windowsAfter y b }) [])))

/-- Translation faults, invalidation and age. The stall reason DATA where a retry ends otherwise is log entry 127's. That a request is answered in
    the step of its row is log entry 10's, and what goes on at once after it (`settle`) log entry 110's. -/
def Obligations.TranslationCommands : Prop :=
  ∀ (s : State) (q : MbxReq), let y := used s q
    let b := q.payload
    let lo := fun pages : Bool => if pages then num b 8 8 else 0
    let hi := fun pages : Bool => if pages then num b 8 8 + 4096 * num b 16 8 else 2 ^ 64
    (passes specXlatResume s q = true → ∀ h, holdOf y b = some h →
      let t := dropHolds (dropFor y h) fun x => x.id == h.id
      (h.kind = .cmd ∨ h.kind = .data → exec (.xlatResume q) s = .next (s.at (settle (okay specXlatResume q
        (resumeAcc t h (num b 4 1 == 1) (ownCtx t q h.ctx)) [])))) ∧
      (h.kind ≠ .cmd → h.kind ≠ .data → exec (.xlatResume q) s = .next (s.at (settle (okay specXlatResume q t []))))) ∧
    (passes specXlatInvalidate s q = true → mayWait s q = true →
      (num b 0 1 ≤ 1 → let p := num b 0 1 == 0
        exec (.xlatInvalidate q) s = .next (s.at (settle (waits specXlatInvalidate q (invalRange y (num b 4 2) (lo p) (hi p))
          (.invalidate (invalWaits y fun a => usesRange y a (num b 4 2) (lo p) (hi p))))))) ∧
      (2 ≤ num b 0 1 → let p := num b 0 1 == 2
        let which := fun k : Nat => num b 0 1 == 4 || k == fnKey (num b 2 1) (num b 1 1)
        exec (.xlatInvalidate q) s = .next (s.at (settle (waits specXlatInvalidate q (invalFns y which (lo p) (hi p) (!p))
          (.invalidate (invalWaits y fun a => which (fnKey a.hp a.fn)))))))) ∧
    (passes specXlatAge s q = true → exec (.xlatAge q) s = .next (s.at (okay specXlatAge q
      { y with xl := { y.xl with agePend := some (num b 0 2) } } [])))

/-- Settings of the device. Grants of MGIDs are log entry 75's, the edges of the counters' commands log entry 101's. That a request is answered in
    the step of its row is log entry 10's, and what an answer to a refused one shows and leaves log entries 55 and 113's. -/
def Obligations.DeviceSettingsAreStored : Prop :=
  ∀ (s : State) (q : MbxReq), let y := used s q
    let b := q.payload
    let quiet := (getNp y (num b 0 1)).st = .disabled ∨ (getNp y (num b 0 1)).st = .down
    (passes specFrameConfig s q = true → exec (.frameConfig q) s = .next (s.at (okay specFrameConfig q { y with time := { y.time with
      pendCfg := some { epoch := if num b 0 8 = 0 then epoch y + 1 else num b 0 8, colwin := num b 8 1, prio := num b 9 1,
                        pps := num b 10 1 == 1 } } } []))) ∧
    (passes specColConfig s q = true → exec (.colConfig q) s = .next (s.at (okay specColConfig q
      { y with ce := { y.ce with joinEpochs := num b 0 2, beatFrames := num b 2 2 } } []))) ∧
    (passes specPePolicy s q = true → exec (.pePolicy q) s = .next (s.at (okay specPePolicy q { y with pe := { y.pe with
      polPend := some { wHint := num b 0 1 % 16, wCong := num b 0 1 / 16, wFill := num b 1 1 % 16, wHops := num b 1 1 / 16,
                        wOut := num b 2 1 % 16, rootPolicy := num b 3 1, spread := num b 4 2, refresh := num b 6 2,
                        fnMax := num b 8 2 } } } []))) ∧
    (passes specSettingsSet s q = true → exec (.settingsSet q) s = .next (s.at (okay specSettingsSet q
      { y with upd := setSetting y.upd (num b 0 2) (num b 4 4) } []))) ∧
    (passes specFreshetConfig s q = true → exec (.freshetConfig q) s = .next (s.at (okay specFreshetConfig q { y with upd := { y.upd with
      frEn := (num b 0 1).testBit 0, frRelay := (num b 0 1).testBit 1, frDepth := num b 1 1, frMask := num b 8 8, frMaskSet := true } } []))) ∧
    (passes specSensorLimits s q = true → exec (.sensorLimits q) s = .next (s.at (okay specSensorLimits q
      { y with pwr := { y.pwr with limPend := some (num b 0 1, num b 1 1) } } []))) ∧
    (passes specCntBw s q = true → exec (.cntBw q) s = .next (s.at (okay specCntBw q
      { y with cnt := { y.cnt with bwFrames := num b 0 2 } } []))) ∧
    (passes specCntConfig s q = true → exec (.cntConfig q) s = .next (s.at (okay specCntConfig q (modBlk y (num b 0 1) fun k =>
      { k with ctrs := k.ctrs.modify (num b 1 1 % 8) fun c => { c with pend := some (num b 2 1, num b 4 2, num b 6 2, (num b 1 1).testBit 3,
          (num b 1 1).testBit 4 || (match c.pend with | some p => p.2.2.2.2 | none => false)) } }) []))) ∧
    (passes specCntGrant s q = true → exec (.cntGrant q) s = .next (s.at (okay specCntGrant q (modFn y (num b 1 1) (num b 0 1) fun g =>
      { g with grants := num b 8 16, dump := { g.dump with sel := g.dump.sel &&& num b 8 16 } }) []))) ∧
    (passes specSlConfig s q = true →
      (quiet →
        let c : SlCfg := { chan := bits (num b 1 1) 0 2, fec := bits (num b 1 1) 2 2, train := bits (num b 1 1) 4 2, swapInv := num b 2 1,
                           serWarn := num b 4 4 }
        exec (.slConfig q) s = .next (s.at (okay specSlConfig q (modNp y (num b 0 1) fun n => { n with slNext := some c }) []))) ∧
      (¬ quiet → exec (.slConfig q) s = .next (s.at (refusedWith specSlConfig q y .stateConflict)))) ∧
    (passes specSlSlip s q = true →
      (quiet → exec (.slSlip q) s = .next (s.at (okay specSlSlip q
        (modLane y (num b 0 1) (num b 1 1) fun l => { l with slip := num b 2 2 }) []))) ∧
      (¬ quiet → exec (.slSlip q) s = .next (s.at (refusedWith specSlSlip q y .stateConflict)))) ∧
    (passes specMgidGrant s q = true →
      let taken := (y.ce.comms.any fun e => decide (num b 0 2 ≤ e.1) && decide (e.1 < num b 0 2 + grantCount b)) = true
      (¬ taken → exec (.mgidGrant q) s = .next (s.at (okay specMgidGrant q { y with ce := { y.ce with
        grants := y.ce.grants ++ [(num b 0 2, grantCount b, num b 4 2, (num b 6 1).testBit 0)] } } []))) ∧
      (taken → exec (.mgidGrant q) s = .next (s.at (refusedWith specMgidGrant q y .stateConflict))))

/-- The shadow bank, its commit, and the routing mode. That a request is answered in the step of its row is log entry 10's, and what an answer to a
    refused one shows and leaves log entries 55 and 113's. -/
def Obligations.RoutingTablesAndMode : Prop :=
  ∀ (s : State) (q : MbxReq), let y := used s q
    let b := q.payload
    let busy := y.rt.commit.isSome = true ∨ y.rt.copying = true
    let want := (num b 8 1).testBit 0
    let e := if num b 0 8 = 0 then epoch y + 1 else num b 0 8
    let cfg : RtCfg := { nmEn := (num b 8 1).testBit 1, nmBias := num b 10 2, revThresh := num b 12 2, mgRate := num b 16 2,
                         mgBurst := num b 18 2, dgRate := num b 20 2, dgBurst := num b 22 2 }
    let may := want = true ∨ cvOf y.rt.act = true
    (passes (specTblWriteOf q) s q = true →
      (¬ busy → exec (.tblWrite q) s = .next (s.at (okay (specTblWriteOf q) q
        { y with rt := { y.rt with sh := bankWrite y.rt.sh (num b 0 1) (tblEntries (num b 0 1) b) } } []))) ∧
      (busy → exec (.tblWrite q) s = .next (s.at (refusedWith (specTblWriteOf q) q y .busy)))) ∧
    (passes specTblCommit s q = true → mayWait s q = true →
      (¬ busy → exec (.tblCommit q) s = .next (s.at (waits specTblCommit q { y with rt := { y.rt with
        commit := some { frame := if num b 0 8 = 0 then frame y + 1 else num b 0 8 * 2048 } } } .commit))) ∧
      (busy → exec (.tblCommit q) s = .next (s.at (refusedWith specTblCommit q y .busy)))) ∧
    (passes specRouteConfig s q = true →
      (may → y.rt.transfer = none → exec (.routeConfig q) s = .next (s.at (okay specRouteConfig q { y with rt := { y.rt with
        cfgPend := some cfg, modePend := if want = y.rt.millpond then none else some (e * 2048, want) } } []))) ∧
      (may → ∀ f m, y.rt.transfer = some (f, m) →
        (m = want → exec (.routeConfig q) s = .next (s.at (okay specRouteConfig q { y with rt := { y.rt with cfgPend := some cfg } } []))) ∧
        (m ≠ want → exec (.routeConfig q) s = .next (s.at (refusedWith specRouteConfig q y .busy)))) ∧
      (¬ may → exec (.routeConfig q) s = .next (s.at (refusedWith specRouteConfig q y .stateConflict))))

/-- Datagrams of the CC, ports and their test patterns. Where a datagram of the CC enters the switch is log entry 21's, its IGROUP log entry 117's,
    what a checker has counted comes with the row (log entry 81), and what is driven goes to `out` (log entry 111). That a request is answered in
    the step of its row is log entry 10's, and what an answer to a refused one shows and leaves log entries 55 and 113's. -/
def Obligations.DatagramsAndLinks : Prop :=
  ∀ (s : State) (q : MbxReq), let y := used s q
    let b := q.payload
    let p := num b 0 1
    let n := getNp y p
    (passes specDgramSend s q = true →
      let d := dgram y (num b 0 4) (b.drop 8)
      let room := d.len * 64 ≤ y.rt.ownDg ∧ y.rt.cfg.dgRate ≠ 0
      (∀ w, routeOf y 64 d = .drop w → exec (.dgramSend q) s = .next (s.at (okay specDgramSend q y (le 1 0x08 ++ zeros 3)))) ∧
      ((∀ w, routeOf y 64 d ≠ .drop w) → room → exec (.dgramSend q) s = .next (s.at (okay specDgramSend q
        (enterCx { y with rt := { y.rt with ownDg := y.rt.ownDg - d.len * 64 } } d) (zeros 4)))) ∧
      ((∀ w, routeOf y 64 d ≠ .drop w) → ¬ room →
        exec (.dgramSend q) s = .next (s.at (okay specDgramSend q y (le 1 0x07 ++ zeros 3))))) ∧
    (passes specDgramRecv s q = true →
      (y.rt.dgq = [] → exec (.dgramRecv q) s = .next (s.at (okay specDgramRecv q y []))) ∧
      (∀ c d rest, y.rt.dgq = (c, d) :: rest → exec (.dgramRecv q) s = .next (s.at (okay specDgramRecv q
        { y with rt := { y.rt with dgq := rest } } (le 4 c ++ le 2 d.length ++ zeros 2 ++ d))))) ∧
    (passes specLinkControl s q = true → mayWait s q = true →
      (num b 1 1 = 0 → exec (.linkControl q) s = .next (s.at (endsAtOnce specLinkControl q y (portDisable y p) []))) ∧
      (num b 1 1 = 1 → n.st = .disabled →
        ((getNp (portEnable y p) p).st ≠ .down → exec (.linkControl q) s = .next (s.at (waits specLinkControl q (portEnable y p) (.link p)))) ∧
        ((getNp (portEnable y p) p).st = .down →
          exec (.linkControl q) s = .next (s.at (endsAtOnce specLinkControl q y (portEnable y p) [])))) ∧
      (num b 1 1 = 1 → n.st = .down → 8 ≤ n.attempts →
        exec (.linkControl q) s = .next (s.at (endsAtOnce specLinkControl q y (portToDown y p) []))) ∧
      (num b 1 1 = 1 → n.st ≠ .disabled → n.st ≠ .down ∨ n.attempts < 8 →
        exec (.linkControl q) s = .next (s.at (endsAtOnce specLinkControl q y y []))) ∧
      (num b 1 1 = 2 → n.st = .up → n.lreq = none →
        let bad := ∃ k, k < 2 ∧ (num b 2 1).testBit k = true ∧ n.rxLanes.testBit k = false ∧ laneGood n k = false
        (¬ bad → exec (.linkControl q) s =
          .next (s.at (waits specLinkControl q (laneRequest y p (num b 2 1) false (some (q.who, q.tag))) (.lanes p)))) ∧
        (bad → exec (.linkControl q) s = .next (s.at (refusedWith specLinkControl q y .stateConflict)))) ∧
      (num b 1 1 = 2 → n.st = .up → n.lreq ≠ none → exec (.linkControl q) s = .next (s.at (refusedWith specLinkControl q y .busy))) ∧
      (num b 1 1 = 2 → n.st ≠ .up → exec (.linkControl q) s = .next (s.at (refusedWith specLinkControl q y .stateConflict)))) ∧
    (passes specSlPrbs s q = true →
      (n.st = .disabled →
        let c := prbsAdd n (memAt q 0) (memAt q 1) (memAt q 2)
        let gen := (num b 1 1).testBit 2 && num b 2 1 != 0
        let lanes := if num b 2 1 = 0 then 0 else if num b 2 1 = 4 then 3 else bits (num b 1 1) 0 2
        let t := if (n.prbs.gen = true ∨ gen = true) ∧ quadLocked y (p / 2) = true then
            emit y (.pattern p (if gen = true then lanes else n.prbs.lanes) (if gen = true then num b 2 1 else 0)) else y
        exec (.slPrbs q) s = .next (s.at (okay specSlPrbs q
          (modNp t p fun n => { n with prbs :=
            { lanes, gen, check := (num b 1 1).testBit 3 && num b 2 1 != 0 && num b 2 1 != 3, pattern := num b 2 1,
              err0 := 0, err1 := 0, ui := 0 } })
          (le 8 c.err0 ++ le 8 c.err1 ++ le 8 c.ui)))) ∧
      (n.st ≠ .disabled → exec (.slPrbs q) s = .next (s.at (refusedWith specSlPrbs q y .stateConflict))))

/-- Joining and leaving a communicator. COMM_DESTROY without membership is log entry 33's, a second tenant log entry 137's, how the list's reserved
    bits are read log entry 150's, and what becomes of a communicator that a member leaves log entry 76's. That a request is answered in the step of
    its row is log entry 10's, what an answer to a refused one shows and leaves log entries 55 and 113's, and what goes on at once after it
    (`settle`) log entry 110's. -/
def Obligations.CommunicatorsAreJoinedAndLeft : Prop :=
  ∀ (s : State) (q : MbxReq), let y := used s q
    let b := q.payload
    let ctx := arg0 b
    let k := num b 2 2
    (passes specCommCreate s q = true → mayWait s q = true → ∀ x, getCtx y ctx = some x →
      let c := (getComm y k).getD (Comm.new (ctxTid y ctx) (epoch y + y.ce.joinEpochs))
      let may := (x.st = .created ∨ x.st = .active) ∧ c.st = .joining ∧ ∀ m ∈ c.members, m.ctx ≠ ctx ∧ m.feid ≠ ctxFeid y x
      (may →
        let m : ColMember := { rank := num b 8 4, feid := ctxFeid y x, ctx, digest := [], nmemb := num b 4 4, slotLog := num b 12 1,
                               depth := num b 13 1, ready := false, nextCseq := 0, reading := [] }
        exec (.commCreate q) s = .next (s.at (settle (waits specCommCreate q
          (startAcc { y with ce := { y.ce with comms := tset y.ce.comms k { c with members := c.members ++ [m] } } }
            ctx .lread (num b 16 8) (4 * num b 4 4) [] 0 (.colList k ctx 0) none) (.commCreate k ctx))))) ∧
      (¬ may → exec (.commCreate q) s = .next (s.at (settle (refusedWith specCommCreate q y .stateConflict))))) ∧
    (passes specCommDestroy s q = true → mayWait s q = true →
      (∀ r, memberOf y k ctx = some r → exec (.commDestroy q) s =
        .next (s.at (settle (endsAtOnce specCommDestroy q y (leave y k ctx) [])))) ∧
      (memberOf y k ctx = none → exec (.commDestroy q) s = .next (s.at (settle (refusedWith specCommDestroy q y .stateConflict)))))

/-- Placement sets. The lowest free PSETID is log entry 130's, the JOINKEY a free value (log entry 3), a member's own function is log entry 34's,
    the commands at the edge are log entry 78's, what holds PSET_DESTROY back is log entry 155's, and PSET_HINT without ST_V log entry 152's. That a
    request is answered in the step of its row is log entry 10's, what an answer to a refused one shows and leaves log entries 55 and 113's, and
    what goes on at once after it (`settle`) log entry 110's. -/
def Obligations.PlacementSetsAreManaged : Prop :=
  ∀ (s : State) (q : MbxReq), let y := used s q
    let b := q.payload
    let k := num b 0 2
    let i := num b 2 1
    let fl := num b 3 1
    (passes specPsetCreate s q = true → ∀ x, getCtx y k = some x →
      let live := x.st = .created ∨ x.st = .active
      (live → setsOf y x.hp x.fn < y.pe.pol.fnMax → ∀ j, freeSetId y = some j →
        let key := (Config.joinKeyLessOne y.free).val + 1
        let p : Pset := { kind := num b 2 1, mode := num b 3 1, fixed := num b 4 1, owner := k, pd := x.pd, joinkey := key,
                          members := if num b 2 1 = 2 then [(0, PMember.new k 0 0 0 0 false 0)] else [], elig := 0, ftCommit := 0,
                          lastCommit := frame y, queued := none, trig := false, destroying := false }
        exec (.psetCreate q) s = .next (s.at (okay specPsetCreate q
          { y with free := y.free + 1, pe := { y.pe with sets := tset y.pe.sets j (if num b 2 1 = 2 then p.trigger else p) } }
          (le 2 j ++ zeros 2 ++ le 4 key)))) ∧
      (live → y.pe.pol.fnMax ≤ setsOf y x.hp x.fn ∨ freeSetId y = none →
        exec (.psetCreate q) s = .next (s.at (refusedWith specPsetCreate q y .noResource))) ∧
      (¬ live → exec (.psetCreate q) s = .next (s.at (refusedWith specPsetCreate q y .stateConflict)))) ∧
    (∀ p, getSet y k = some p →
      (passes specPsetDestroy s q = true → mayWait s q = true →
        (setPosted y k = false → p.destroying = false → exec (.psetDestroy q) s = .next (s.at (settle (waits specPsetDestroy q
          (modSet y k fun p => { p with destroying := true, members := tmap p.members fun _ m => { m with removing := true } })
          (.psetDestroy k))))) ∧
        (setPosted y k = true ∨ p.destroying = true →
          exec (.psetDestroy q) s = .next (s.at (settle (refusedWith specPsetDestroy q y .stateConflict))))) ∧
      (passes specPsetAdd s q = true →
        let may := tget p.members i = none ∧ ¬ (p.kind = 2 ∧ i = 0) ∧ p.destroying = false
        (may →
          let m := PMember.new (num b 8 2) (num b 12 4) (num b 16 4) (num b 24 8) (num b 32 8) (p.kind == 1 && fl.testBit 0)
            (if p.kind = 1 then num b 10 1 else 0)
          exec (.psetAdd q) s = .next (s.at (okay specPsetAdd q
            (modSet y k fun g => { (g.trigger) with members := tset g.members i m }) []))) ∧
        (¬ may → exec (.psetAdd q) s = .next (s.at (refusedWith specPsetAdd q y .stateConflict)))) ∧
      (∀ m, tget p.members i = some m →
        (passes specPsetRemove s q = true → mayWait s q = true →
          (m.removing = false → exec (.psetRemove q) s = .next (s.at (settle (waits specPsetRemove q
            (modMember (modSet y k fun p => p.trigger) k i fun m => { m with removing := true }) (.psetRemove k i))))) ∧
          (m.removing = true → exec (.psetRemove q) s = .next (s.at (settle (refusedWith specPsetRemove q y .stateConflict))))) ∧
        (passes specPsetHint s q = true →
          (fl.testBit 0 = false ∨ m.armed = false → exec (.psetHint q) s = .next (s.at (okay specPsetHint q
            (modSet (modMember y k i fun m =>
                { m with armed := m.armed || fl.testBit 0, rearmed := m.rearmed || fl.testBit 0,
                         stPend := if fl.testBit 1 then some (num b 5 1) else m.stPend,
                         hintPend := if fl.testBit 2 then some (num b 4 1) else m.hintPend }) k fun p =>
              if fl.testBit 2 then p.trigger else p) []))) ∧
          (fl.testBit 0 = true → m.armed = true →
            exec (.psetHint q) s = .next (s.at (refusedWith specPsetHint q y .stateConflict))))))

/-- Faults and trace under command. That TRACE_CONFIG with ENABLE starts a new ring is log entry 49's, and TRACE_CONFIG over MCTP log entry 48's.
    That a request is answered in the step of its row is log entry 10's, and what an answer to a refused one shows and leaves log entries 55, 113
    and 122's. -/
def Obligations.FaultsAreManagedByCommand : Prop :=
  ∀ (s : State) (q : MbxReq), let y := used s q
    let b := q.payload
    let ks := maskSrcs (num b 0 16)
    let fl := num b 0 1
    (passes specFaultClear s q = true →
      let t := ks.foldl (fun s k => modSrc s k fun x => { x with cls := 0, lost := false, cap := none }) y
      ((∀ k ∈ ks, (getSrc y k).cls ≠ 3 ∧ (getSrc y k).handling = false) → exec (.faultClear q) s = .next (s.at (okay specFaultClear q
        (regrade (if fswZero t then { t with flt := { t.flt with dcap := none } } else t)) []))) ∧
      ((∃ k ∈ ks, (getSrc y k).cls = 3) → exec (.faultClear q) s = .next (s.at (refusedWith specFaultClear q y .stateConflict))) ∧
      ((∀ k ∈ ks, (getSrc y k).cls ≠ 3) → (∃ k ∈ ks, (getSrc y k).handling = true) →
        exec (.faultClear q) s = .next (s.at (refusedWith specFaultClear q y .busy)))) ∧
    (passes (specFaultConfig q) s q = true →
      let t := (List.range (num b 1 1)).foldl (fun s i => modSrc s (num b 0 1 + i) fun x =>
        { x with n := num b (8 + 4 * i) 1, ceil := num b (9 + 4 * i) 1, w := num b (10 + 4 * i) 2 }) y
      exec (.faultConfig q) s = .next (s.at (okay (specFaultConfig q) q
        (if (num b 2 1).testBit 0 then { t with flt := { t.flt with autoreset := num b 4 2 } } else t) []))) ∧
    (passes specFaultInject s q = true → ∀ cls, causeClass (num b 0 1) (num b 1 1) = some cls →
      exec (.faultInject q) s = .next (s.at (okay specFaultInject q (fault y (num b 0 1) (num b 1 1) cls (num b 8 8) 15 0) []))) ∧
    (passes specTraceConfig s q = true → ∀ hp fn, q.who = .fn hp fn →
      let c : Cnt := { y.cnt with trEn := fl.testBit 0, trTag := fl.testBit 1, trK := num b 1 1, trStages := num b 2 1 }
      (fl.testBit 0 = false → exec (.traceConfig q) s = .next (s.at (okay specTraceConfig q { y with cnt := c } []))) ∧
      (fl.testBit 0 = true →
        let c : Cnt := { c with trQ := [], trSize := num b 3 1, trBase := num b 8 8, trHp := hp, trHead := 0, trTail := 0, trPhase := true,
                                trLost := false }
        exec (.traceConfig q) s = .next (s.at (okay specTraceConfig q { traceFlush y with cnt := c } [])))) ∧
    (∀ e, q.who = .mctp e → takes specTraceConfig.opcode s.sys q = true → b.length = 16 → q.flags < 2 →
      exec (.traceConfig q) s = .next (s.at (turnedAway specTraceConfig s.fuse q (reached s.sys q) .badParam)))

/-- Staging of a bundle. UPDATE_OPEN by the holder is log entry 43's, the commands without a lock and a STAGED slot verified again log entry 94's.
    That a request is answered in the step of its row is log entry 10's, and what an answer to a refused one shows and leaves log entries 55 and
    113's. -/
def Obligations.BundlesAreStaged : Prop :=
  ∀ (s : State) (q : MbxReq), let y := used s q
    let b := q.payload
    let shut := y.dev.st = .discovery ∨ onTrial y = true
    (passes specUpdateOpen s q = true →
      (¬ shut → y.upd.lock = none → exec (.updateOpen q) s = .next (s.at (okay specUpdateOpen q
        (openLock y (.req q.who q.token) (sub b 0 32) (num b 32 4) (some 0)) (le 4 0)))) ∧
      (¬ shut → ∀ l, y.upd.lock = some l →
        let same := holds l q.who = true ∧ (stageSlot y l).mdigest = sub b 0 32 ∧ (stageSlot y l).blen = num b 32 4
        (same → exec (.updateOpen q) s = .next (s.at (okay specUpdateOpen q y (le 4 (received y l))))) ∧
        (¬ same → exec (.updateOpen q) s = .next (s.at (refusedWith specUpdateOpen q y .updateBusy)))) ∧
      (shut → exec (.updateOpen q) s = .next (s.at (refusedWith specUpdateOpen q y .stateConflict)))) ∧
    (passes specUpdateWrite s q = true →
      (∀ l, y.upd.lock = some l →
        (holds l q.who = true → repeats l b = true → exec (.updateWrite q) s = .next (s.at (okay specUpdateWrite q y (le 4 (received y l))))) ∧
        (holds l q.who = true → repeats l b = false →
          let t := modLock (modSlot y l.slot fun x => { x with data := x.data ++ b.drop 8 }) fun l =>
            { l with lastOff := num b 0 4, lastData := b.drop 8 }
          exec (.updateWrite q) s = .next (s.at (okay specUpdateWrite q t (le 4 (received t l))))) ∧
        (holds l q.who = false → exec (.updateWrite q) s = .next (s.at (refusedWith specUpdateWrite q y .updateBusy)))) ∧
      (y.upd.lock = none → exec (.updateWrite q) s = .next (s.at (refusedWith specUpdateWrite q y .stateConflict)))) ∧
    (passes specUpdateVerify s q = true → mayWait s q = true →
      (∀ l, y.upd.lock = some l → (stageSlot y l).blen ≤ received y l →
        (holds l q.who = true →
          exec (.updateVerify q) s = .next (s.at (waits specUpdateVerify q (modLock y fun l => { l with verifying := true }) .verify))) ∧
        (holds l q.who = false → exec (.updateVerify q) s = .next (s.at (refusedWith specUpdateVerify q y .updateBusy)))) ∧
      (∀ l, y.upd.lock = some l → received y l < (stageSlot y l).blen →
        exec (.updateVerify q) s = .next (s.at (refusedWith specUpdateVerify q y .stateConflict))) ∧
      (y.upd.lock = none → exec (.updateVerify q) s = .next (s.at (refusedWith specUpdateVerify q y .stateConflict)))) ∧
    (passes specUpdateAbandon s q = true → mayWait s q = true →
      (∀ l, y.upd.lock = some l → y.upd.act = none →
        exec (.updateAbandon q) s = .next (s.at (endsAtOnce specUpdateAbandon q y (abandon y) []))) ∧
      (y.upd.lock = none ∨ y.upd.act ≠ none → exec (.updateAbandon q) s = .next (s.at (refusedWith specUpdateAbandon q y .stateConflict))))

/-- Activation, confirmation and the commanded chip reset. UPDATE_CONFIRM beside a fuse operation or a revert is log entry 95's, a health failure
    beside an activation log entry 116's, seconds as epochs log entry 98's, the release of the lock with NEXT_BOOT log entry 96's, the copies of the
    boot control record log entry 145's, and a reset that a fuse operation puts off log entry 160's. That a request is answered in the step of its
    row is log entry 10's, and what an answer to a refused one shows and leaves log entries 55 and 113's. -/
def Obligations.ActivationBeginsAndEnds : Prop :=
  ∀ (s : State) (q : MbxReq), let y := used s q
    let b := q.payload
    let t := if num b 4 4 = 0 then secEpochs y.upd.trialS else secEpochs (num b 4 4)
    (passes specUpdateActivate s q = true → mayWait s q = true →
      (∀ k, stagedSlot y = some k → y.upd.act = none →
        (num b 0 1 = 1 → exec (.updateActivate q) s = .next (s.at (endsAtOnce specUpdateActivate q y
          (releaseLock (bootWrite y (activateWrites y k .trialNext t))) []))) ∧
        (num b 0 1 ≠ 1 →
          let a : Activation := { slot := k, step := 1, revert := false, failed := false, owner := some (q.who, q.tag), trialEpochs := t }
          exec (.updateActivate q) s = .next (s.at (waits specUpdateActivate q { y with upd := { y.upd with act := some a } } .activate)))) ∧
      (stagedSlot y = none ∨ y.upd.act ≠ none →
        exec (.updateActivate q) s = .next (s.at (refusedWith specUpdateActivate q y .stateConflict)))) ∧
    (passes specUpdateConfirm s q = true →
      (∀ k, slotIn y .trial = some k →
        (num b 0 1 = 1 → y.upd.act.any (·.revert) = false →
          exec (.updateConfirm q) s = .next (s.at (okay specUpdateConfirm q (healthFail y 2) []))) ∧
        (num b 0 1 = 1 → y.upd.act.any (·.revert) = true →
          exec (.updateConfirm q) s = .next (s.at (refusedWith specUpdateConfirm q y .stateConflict))) ∧
        (num b 0 1 = 0 → floorRaise s.fuse y k = none →
          exec (.updateConfirm q) s = .next (s.at (okay specUpdateConfirm q (confirmTrial y k) []))) ∧
        (num b 0 1 = 0 → ∀ v, floorRaise s.fuse y k = some v →
          (y.svc.fuseOp = none → exec (.updateConfirm q) s = .next (s.at (raiseFloor (reached s.sys q) q k v))) ∧
          (y.svc.fuseOp ≠ none → exec (.updateConfirm q) s = .next (s.at (refusedWith specUpdateConfirm q y .busy))))) ∧
      (slotIn y .trial = none → exec (.updateConfirm q) s = .next (s.at (refusedWith specUpdateConfirm q y .stateConflict)))) ∧
    (passes specChipReset s q = true → exec (.chipReset q) s = .next (s.at (chipReset (okay specChipReset q y []) 3 0xFFFF)))

/-- Self test, attestation and lifecycle, and the commands whose effect is a flash operation. A volatile key store without identity seeds is log
    entry 107's, an attestation over other rows log entries 100 and 157's; what SETTINGS_SAVE stores is log entry 91's, how keys are stored log
    entry 158's, KEY_SET in FIELD_DEBUG log entry 99's, what an answer to a refused one shows and leaves log entries 55 and 113's, and that a slow
    command answers in the same step log entry 10's. -/
def Obligations.ServiceCommandsRun : Prop :=
  (∀ (s : State) (q : MbxReq), mayWait s q = true → let y := used s q
     let b := q.payload
     let gs := bistGroups (num b 2 2)
     let clash := (gs.any fun g => (groupPorts g).any fun p => !portOff y p) = true ∨
       ((gs.any fun g => [1, 3, 4, 5, 7].contains g) = true ∧ (((List.range 64).any fun p => !portOff y p) = true ∨ y.ctxs ≠ []))
     let runs := waiting y (fun w => match w with | .bist _ _ _ _ => true | _ => false)
     let signer := lifecycle s.fuse y = .provisioned ∨ lifecycle s.fuse y = .field
     let t := num b 0 1
     (passes specBistRun s q = true →
       (¬ clash → runs = false → exec (.bistRun q) s =
         .next (s.at (waits specBistRun q y (.bist gs ((num b 0 1).testBit 0) ((num b 0 1).testBit 1) [])))) ∧
       (¬ clash → runs = true → exec (.bistRun q) s = .next (s.at (refusedWith specBistRun q y .busy))) ∧
       (clash → exec (.bistRun q) s = .next (s.at (refusedWith specBistRun q y .stateConflict)))) ∧
     (passes specAttestRequest s q = true →
       (signer → y.sec.signing = none → y.sec.ids.isSome = true → exec (.attestRequest q) s = .next (s.at (waits specAttestRequest q { y with sec := { y.sec with
         reports := y.sec.reports.filter fun r => !(r.who == q.who), signing := some (q.who, q.tag, attestBody s.fuse y b) } } .attest))) ∧
       (signer → y.sec.signing ≠ none → exec (.attestRequest q) s = .next (s.at (refusedWith specAttestRequest q y .busy))) ∧
       (¬ signer ∨ (y.sec.signing = none ∧ y.sec.ids = none) → exec (.attestRequest q) s = .next (s.at (refusedWith specAttestRequest q y .stateConflict)))) ∧
     (passes specLcTransition s q = true →
       (lcRefusal s.fuse y t = none → y.svc.fuseOp = none → ¬ (lifecycle s.fuse y = .fieldDebug ∧ t = 2) →
         exec (.lcTransition q) s = .next (s.at (waits specLcTransition q
           { lcBegin y with svc := { (lcBegin y).svc with fuseOp := some (.lc t) } } (.lcFuse t)))) ∧
       (lcRefusal s.fuse y t = none → y.svc.fuseOp = none → lifecycle s.fuse y = .fieldDebug → t = 2 →
         exec (.lcTransition q) s = .next (s.at (endsAtOnce specLcTransition q y (lcDone (lcBegin y) 3 2) []))) ∧
       (lcRefusal s.fuse y t = none → y.svc.fuseOp ≠ none → exec (.lcTransition q) s = .next (s.at (refusedWith specLcTransition q y .busy))) ∧
       (∀ e, lcRefusal s.fuse y t = some e → exec (.lcTransition q) s = .next (s.at (refusedWith specLcTransition q y
         (if e = .noResource ∧ y.svc.fuseOp.isSome = true then .busy else e)))))) ∧
  (∀ (s : State) (q : MbxReq), mayWait s q = true → let y := used s q
     let b := q.payload
     (passes specLogClear s q = true → exec (.logClear q) s = .next (s.at (waits specLogClear q y (.flash .logClear)))) ∧
     (passes specSettingsSave s q = true → exec (.settingsSave q) s = .next (s.at (waits specSettingsSave q y
       (.flash (.settings (saveSlot y) (slotFmt y (saveSlot y)) (currentSets s.fuse y)))))) ∧
     ((∀ k, slotIn y .trial = some k → saveSlot y = k) ∧ (slotIn y .trial = none → saveSlot y = y.upd.run)) ∧
     (passes specKeySet s q = true →
       (lifecycle s.fuse y ≠ .fieldDebug → exec (.keySet q) s = .next (s.at (waits specKeySet q
         { y with sec := { y.sec with sessions := y.sec.sessions.map fun x =>
           if x.who == q.who && x.token == q.token then { x with keySets := x.keySets + 1 } else x } }
         (.flash (.key (num b 0 1) (if num b 2 2 = 0 then none else some (newKeyOf y q)) (num b 2 2)))))) ∧
       (lifecycle s.fuse y = .fieldDebug → exec (.keySet q) s = .next (s.at (refusedWith specKeySet q y .stateConflict)))) ∧
     (passes specIdCertWrite s q = true →
       (lifecycle s.fuse y = .blank → exec (.idCertWrite q) s = .next (s.at (waits specIdCertWrite q y
         (.flash (.cert (num b 0 4) (num b 4 4) (b.drop 8)))))) ∧
       (lifecycle s.fuse y ≠ .blank → exec (.idCertWrite q) s = .next (s.at (refusedWith specIdCertWrite q y .stateConflict)))))

/-- Power domains and cages under command. What OFF of a host port does is log entry 84's, the state a domain shows on its way from RETAIN to ON log
    entry 140's, CAGE_CONTROL where it has nothing to do log entry 83's, and how a cage takes its ports down log entry 162's. That a request is
    answered in the step of its row is log entry 10's, and what an answer to a refused one shows and leaves log entries 55 and 113's. -/
def Obligations.DomainsAndCagesAreSwitched : Prop :=
  ∀ (s : State) (q : MbxReq), let y := used s q
    let b := q.payload
    let k := num b 0 2
    let hp := k % 4
    let c := num b 0 1
    let g := getCage y c
    let low := g.st = .disabled ∨ g.st = .empty ∨ g.st = .fault
    (passes specPwrDomain s q = true → mayWait s q = true →
      (num b 2 1 = 0 →
        let t := runHostPortReset s.fuse y hp false 3
        let t := if (getHp t hp).bifd then runHostPortReset s.fuse t hp true 3 else t
        (y.pwr.hpOff.contains hp = true → exec (.pwrDomain q) s = .next (s.at (endsAtOnce specPwrDomain q y y []))) ∧
        (y.pwr.hpOff.contains hp = false → exec (.pwrDomain q) s = .next (s.at (endsAtOnce specPwrDomain q y
          { t with pwr := { t.pwr with hpOff := t.pwr.hpOff ++ [hp],
                                       waitUp := t.pwr.waitUp.filter fun d => d != 96 + hp && d != 100 + hp } } [])))) ∧
      (num b 2 1 = 1 →
        let t : Sys := { y with pwr := { y.pwr with retain := y.pwr.retain.filter (· != k) ++ [k] } }
        (swdState t k = 1 → exec (.pwrDomain q) s = .next (s.at (endsAtOnce specPwrDomain q y t []))) ∧
        (swdState t k ≠ 1 → exec (.pwrDomain q) s = .next (s.at (waits specPwrDomain q t (.domain k 1))))) ∧
      (num b 2 1 = 2 →
        let t : Sys := { y with pwr := { y.pwr with retain := y.pwr.retain.filter (· != k) } }
        let t := if k < 104 then
            swdRequest (swdRequest { t with pwr := { t.pwr with hpOff := t.pwr.hpOff.filter (· != hp) } } (96 + hp)) (100 + hp)
          else if swdState t k = 1 then setSwd t k 3 else t
        (swdAll t k 2 = true → exec (.pwrDomain q) s = .next (s.at (endsAtOnce specPwrDomain q y t []))) ∧
        (swdAll t k 2 = false → exec (.pwrDomain q) s = .next (s.at (waits specPwrDomain q t (.domain k 2)))))) ∧
    (passes specCageConfig s q = true →
      (low → exec (.cageConfig q) s = .next (s.at (okay specCageConfig q
        (storeSet (modCage y c fun g => { g with cfg := cageCfgOf b }) { opcode := 0x0A10, key := c, payload := b }) []))) ∧
      (¬ low → exec (.cageConfig q) s = .next (s.at (refusedWith specCageConfig q y .stateConflict)))) ∧
    (passes specCageControl s q = true → mayWait s q = true →
      (num b 1 1 = 0 → exec (.cageControl q) s =
        .next (s.at (endsAtOnce specCageControl q y (holdPorts (modCage y c fun g => g.clear .disabled)) []))) ∧
      (num b 1 1 = 1 → exec (.cageControl q) s = .next (s.at (endsAtOnce specCageControl q y
        (if g.st = .disabled then modCage y c fun g => { g with st := .empty, deb := 0 } else y) []))) ∧
      (num b 1 1 = 2 → g.st = .fault → g.model ≤ (g.cfg.trestart : Rat) → exec (.cageControl q) s = .next (s.at (endsAtOnce specCageControl q y
        (modCage y c fun g => { g with st := .wait, delay := 0 }) []))) ∧
      (num b 1 1 = 2 → g.st ≠ .fault ∨ (g.cfg.trestart : Rat) < g.model →
        exec (.cageControl q) s = .next (s.at (refusedWith specCageControl q y .stateConflict))) ∧
      (num b 1 1 = 3 → cageIdle y c = true → exec (.cageControl q) s = .next (s.at (endsAtOnce specCageControl q y (moduleLow y c) []))) ∧
      (num b 1 1 = 3 → cageIdle y c = false → exec (.cageControl q) s = .next (s.at (refusedWith specCageControl q y .stateConflict))) ∧
      (num b 1 1 = 4 → exec (.cageControl q) s = .next (s.at (endsAtOnce specCageControl q y (moduleHigh y c) []))))

/-- What each reset row does, and what holds after a reset (Table 13.1). A row whose condition does not hold changes nothing (log entry 9);
    POWER_ON_RESET in every state is log entry 112's, the debug latch log entry 88's, what a reset put off leaves of the fuses log entry 160's, the
    reason of SESSION_END before a reset of cause 5 log entry 125's, standby log entry 86's, and a powered cage over a reset log entries 89 and
    161's. -/
def Obligations.ResetsBeginAgain : Prop :=
  ∀ s : State, let y := s.sys
    (∀ straps, exec (.powerOnReset straps) s = .next (s.at (afterReset y straps 1 0xFFFF))) ∧
    exec .resetNAssert s = .next (s.at (chipReset y 2 0xFFFF)) ∧
    (y.sec.lcTarget.isSome = true → exec .lcReset s = .next (s.at (chipReset y 5 0xFFFF))) ∧
    (∀ e, y.flt.fatalAt = some e → y.flt.autoreset ≠ 0 → e + y.flt.autoreset ≤ epoch y →
      exec .faultAutoreset s = .next (s.at (chipReset y 4 y.flt.fatalSrc))) ∧
    (256 ≤ ovrRunOf y 7 → dark y = false → y.flt.wdAt = some (epoch y) → exec .tarnWatchdogReset s = .next (s.at (chipReset y 6 0xFFFF))) ∧
    (256 ≤ ovrRunOf y 7 → dark y = false → y.flt.wdAt ≠ some (epoch y) → exec .tarnWatchdogReset s = .next (s.at (healthFail (fault
      { y with flt := { y.flt with wdAt := some (epoch y) }, time := { y.time with ovrRun := y.time.ovrRun.set 7 0 },
               pwr := { y.pwr with cages := y.pwr.cages.map fun g => { g.restart with missed := 0 } } } 113 1 2 0 11 0) 4))) ∧
    (exec .pwrOkFall s = .next (s.at
      { darken y with pwr := { (darken y).pwr with tripped := y.pwr.tripped }, svc := { (darken y).svc with fuseOp := none },
                      pins := { (darken y).pins with pwrOk := false, standby := true, deferred := none } })) ∧
    (∀ c src, y.pins.standby = true → chipReset y c src = y) ∧
    (∀ c src, y.pins.standby = false → y.svc.fuseOp.isSome = true →
      chipReset y c src = { y with pins := { y.pins with deferred := some (y.pins.deferred.getD c) } }) ∧
    (∀ straps c src,
      (y.pins.standby = false → y.svc.fuseOp = none → chipReset y c src = afterReset (beforeReset y c) y.pins.straps c src) ∧
      let t := afterReset y straps c src
      t.dev.st = .wiping ∧ t.start.cause = c ∧ t.start.causeSrc = src ∧ t.time.ft = 0 ∧ t.time.sync = .freeRun ∧ t.ctxs = [] ∧
        t.svc.pend = [] ∧ t.svc.ccUp = false ∧ t.sec.sessions = [] ∧ (∀ p, p < 64 → (getNp t p).st = .disabled) ∧
        t.upd.slots = y.upd.slots.map Slot.afterReset ∧ t.out = y.out ∧ t.free = y.free)

/-- Start-up from WIPING to DISCOVERY, and the tables that a device then derives for itself. Whether the wipe was clean, whether the flash answers
    and which tags of the key store were spoilt come with the row (log entries 7 and 158); a row whose condition does not hold changes nothing
    (log entry 9); stored settings at boot are log entry 90's, both copies of the boot control record log entry 145's, the details of discovery
    log entry 93's. -/
def Obligations.StartUpGoesOn : Prop :=
  (∀ s : State, let y := s.sys
     (∀ ok bad, y.dev.st = .wiping → y.start.wiped = false → y.start.misrBad = false → y.pins.standby = false →
       let t : Sys := { y with start := { y.start with wiped := true, flashOk := ok } }
       (y.start.thermHold = false → exec (.wipeComplete true ok bad) s = .next (s.at (enterBoot s.fuse t bad))) ∧
       (y.start.thermHold = true → exec (.wipeComplete true ok bad) s = .next (s.at t)) ∧
       exec (.wipeComplete false ok bad) s = .next (s.at (fault { y with start := { y.start with misrBad := true } } 117 1 3 0 12 0))) ∧
     (∀ good ok bad, y.dev.st ≠ .wiping ∨ y.start.wiped = true ∨ y.start.misrBad = true ∨ y.pins.standby = true →
       exec (.wipeComplete good ok bad) s = .next s) ∧
     (∀ temps bad, y.dev.st = .wiping → y.start.wiped = true → y.start.thermHold = true → y.pins.standby = false → (∀ t ∈ temps, t < 760) →
       exec (.thermalCooldownRelease temps bad) s =
         .next (s.at (enterBoot s.fuse { y with pwr := { y.pwr with temps := temps } } bad))) ∧
     (∀ bad, let a := bootSelect s.fuse (loadKeys s.fuse (bootRead y) bad)
       (a.2 = none → (selectSlot s.fuse y bad).start.noSlot = true) ∧
       (∀ k, a.2 = some k → let t := selectSlot s.fuse y bad
         t.start.noSlot = false ∧ t.upd.run = k ∧ t.upd.slots = a.1.upd.slots ∧ bundleFail s.fuse a.1 k true = 0 ∧
           ((getSlot t k).st = .active ∨ (getSlot t k).st = .trial))) ∧
     (y.dev.st = .boot → y.start.bootHold = false → y.start.noSlot = false → dark y = false →
       let t : Sys := { y with
         upd := { y.upd with gen := y.upd.gen + 1 }, svc := { y.svc with ccUp := true }, start := { y.start with discEpoch := epoch y },
         hps := y.hps.map fun h => { h with a := { h.a with crs := !h.a.up || h.a.inReset }, b := { h.b with crs := !h.b.up || h.b.inReset } } }
       let t := setDev (takeSettings (loadSettings s.fuse t y.upd.run)) .discovery
       let t := logW { t with start := { t.start with settle := t.upd.settle } } 0x0001 0 t.start.causeSrc t.start.cause
       exec .bootComplete s = .next (s.at (if (getSlot t y.upd.run).st = .trial then startTrial t else t))) ∧
     (y.start.bootHold = true ∨ y.start.noSlot = true ∨ dark y = true → exec .bootComplete s = .next s) ∧
     (∀ recs, y.dev.st = .discovery → y.start.fruRead = false → let parts := fruParts recs
       (fruFail s.fuse parts ≠ 0 → exec (.fruRead recs) s =
         .next (s.at (logW { y with start := { y.start with fruRead := true } } 0x0002 2 0xFFFF (fruFail s.fuse parts)))) ∧
       (fruFail s.fuse parts = 0 →
         let t := ownRoot { y with start := { y.start with fruRead := true, fru := some (fruJoin parts) } } .freeRun
         exec (.fruRead recs) s =
           .next (s.at (if lifecycle s.fuse t = .retired then t else gateCheck ((fruJoin parts).entries.foldl mapPort t))))) ∧
     (y.dev.st = .discovery → y.start.discEpoch + y.start.settle ≤ epoch y →
       exec .timeGateSettleExpiry s = .next (s.at { y with start := { y.start with gateOpen := true } }))) ∧
  (∀ s : State, let y := s.sys
     (∀ r, y.start.fru = some r → y.dev.st = .discovery → r.tabsrc = false → y.start.derived = false → y.start.gateOpen = true →
       y.time.sync = .track → y.start.lastUp + 128 ≤ frame y →
       let root := (nbrOxroot y).getD y.time.rootAddr
       let lost := (List.range r.g).filter fun g => g != r.group && oxGroup y r root g == 0
       exec .tableDerive s = .next (s.at (proposeSwitch (lost.foldl (fun s g => logW s 0x0007 1 0xFFFF g)
         { y with rt := { y.rt with sh := deriveBank y r root }, start := { y.start with derived := true, oxroot := some root } })))) ∧
     (y.start.derived = true → exec .tableDerive s = .next s) ∧
     (y.start.frozen = false → y.start.switched = false → y.start.swEpoch ≠ 0 → y.start.swEpoch ≤ epoch y + 16 →
       exec .switchEpochFreeze s = .next (s.at { y with start := { y.start with frozen := true } })) ∧
     (y.start.derived = true → y.start.switched = false → y.dev.st = .discovery →
       (∃ e, y.start.lateAt = some e ∧ e ≤ epoch y) ∨ (y.start.lateAt = none ∧ y.start.swEpoch ≠ 0 ∧ y.start.swEpoch ≤ epoch y) →
       let t := switchBanks { y with start := { y.start with switched := true } }
       exec .tableModeSwitch s = .next (s.at (startTransfer (if t.rt.freeze.isSome = true then t else copyBanks t) false))) ∧
     (y.start.switched = true → exec .tableModeSwitch s = .next s))

/-- The frame tick. How time passes within a frame is log entry 11's, counters that count cycles log entry 50's, what goes on in the dark log entry
    51's, and that a temperature comes with the row log entry 7's. -/
def Obligations.FrameTickAdvancesTime : Prop :=
  ∀ (s : State) (cages : List CageIn) (temps : List Int), let y := s.sys
    let n := cyclesLeft y.time
    (-65536 < y.time.rate → y.time.frac < 65536 →
      (∀ k, k < n → ftAfter y.time k / 65536 / 1024 = frame y) ∧ frame y < ftAfter y.time n / 65536 / 1024) ∧
    let t := senseTemps (runToTick y) temps
    let u := timeTick t
    u.time.ft = ftAfter y.time n / 65536 % 2 ^ 64 ∧ u.time.frac = ftAfter y.time n % 65536 ∧
      u.time.epochDue = (y.time.epochDue || decide (ftAfter y.time n / 65536 / 2097152 ≠ y.time.ft / 2097152)) ∧
      u.time.ovrFrame = y.time.ovrNow ∧ u.time.ovrNow = 0 ∧ (temps = [] → u = { y with time := u.time }) ∧
      (temps ≠ [] → early y = true → u = { y with time := u.time, pwr := { y.pwr with temps := temps, sampleFt := t.time.ft } }) ∧
    (dark u = true → exec (.frameTick cages temps) s = .next (s.at (sampleTime (aliveTick u)))) ∧
    (dark u = false → exec (.frameTick cages temps) s = .next (s.at (sampleTime (aliveTick (readyTick s.fuse (traceFlush (tarnTick
      (headTick (portsTick s.fuse (shaperTick (policeTick (peTick (routeTick (countersTick u))))))) cages)))))))

/-- The epoch tick, overruns and the batches of a frame. A row whose condition does not hold changes nothing (log entry 9); epochs in the dark are
    log entries 51 and 159's, measurements that come with the tick log entry 81's, progress events log entry 52's, overruns on several ports log
    entry 121's, an overrun beside a failed snapshot log entry 133's, that EPOCH_TASK_OVERRUN comes before the work of the next tick log entry
    142's, and when a batch samples its inputs log entry 77's. -/
def Obligations.EpochWorkRuns : Prop :=
  ∀ s : State, let y := s.sys
    (∀ m : EpochIn, y.time.epochDue = true → let t := epochOpen y
      (dark y = false → early y = false → exec (.epochTick m) s =
        .next (s.at (aliveEpoch (progressTick (m.fec.foldl fecTick (cageEpoch (powerEpoch (frameCfgTick (dumpSnap t)) m))))))) ∧
      (dark y = true → early y = false → exec (.epochTick m) s = .next (s.at (darkEpoch t m))) ∧
      (early y = true → exec (.epochTick m) s = .next (s.at t))) ∧
    (∀ m : EpochIn, let t := darkEpoch y m
      t.pwr.temps = m.temps ∧ t.pwr.volts = m.volts ∧ t.pwr.sampleFt = y.time.ft ∧ t.pwr.limPend = none) ∧
    (∀ m : EpochIn, y.time.epochDue = false → exec (.epochTick m) s = .next s) ∧
    (∀ task port, task < 8 → dark y = false → ¬ (task = 6 ∧ y.upd.act.isSome = true) → taskDone y task port = false →
      (y.time.ovrNow.testBit task = false → exec (.taskOverrun task port) s = .next (s.at (ovrEffect (ovrRecord y task) task port))) ∧
      (y.time.ovrNow.testBit task = true → task = 0 ∨ task = 4 →
        exec (.taskOverrun task port) s = .next (s.at (ovrEffect y task port))) ∧
      (y.time.ovrNow.testBit task = true → task ≠ 0 → task ≠ 4 → exec (.taskOverrun task port) s = .next s)) ∧
    (∀ task port, taskDone y task port = true → exec (.taskOverrun task port) s = .next s) ∧
    (∀ task, 8 ≤ task → task < 11 → dark y = false → y.time.epNow.testBit task = false → let t := ovrRecord y task
      exec (.epochTaskOverrun task) s = .next (s.at (if task = 8 then dumpsMissed t else if task = 9 then thermalOvr t else t))) ∧
    (let t := routeTick y;
      t.rt.weights = y.rt.wShadow.getD y.rt.weights ∧ t.rt.wShadow = none ∧
      t.rt.wPlan = ((y.rt.act.grp.flatMap fun e =>
        ((List.range 8).filter fun k => slotWorks y e.1 k && !slotOwn y e.1 k).map fun k =>
          (e.1 * 8 + k, 256 * nbrLevel y (slotFirst y e.1 k) (((slotOf y.rt.act e.1 k).map (·.2)).getD 0))).filter fun e => e.2 ≠ 0)) ∧
    (y.time.ovrNow.testBit 1 = false →
      exec .routeWeightRecompute s = .next (s.at { y with rt := { y.rt with wShadow := some y.rt.wPlan } })) ∧
    (y.time.ovrNow.testBit 1 = true → exec .routeWeightRecompute s = .next s) ∧
    (let t := planTick y;
      let z := (batchSets y).foldl (fun s e => modSet s e.1 fun p => { p with queued := some (p.queued.getD (frame s)) }) y;
      t.pe.plan.sets = ((batchSets y).take 256).foldl (fun u e => (getSet z e.1).elim u fun p => tset u e.1 (rescore z p)) [] ∧
      t.pe.plan.cands = (batchGroups y).foldl (fun t d => tset t d (candDecide z d)) [] ∧ t.pe.plan.trees = batchTrees z ∧
      t.pe.sets = z.pe.sets) ∧
    (y.time.ovrNow.testBit 2 = false →
      exec .placementBatch s = .next (s.at { y with pe := { y.pe with batchDone := true } })) ∧
    (y.time.ovrNow.testBit 2 = true → exec .placementBatch s = .next s)

/-- The CC's restart and return, and the periodic reports. A row whose condition does not hold changes nothing (log entry 9); what a restart does to
    accepted commands is log entry 56's, that it counts as a health failure log entries 103 and 116's, which copy of the settings it loads log entry
    145's, and DSEQ log entry 101's. -/
def Obligations.ControlComplexComesAndGoes : Prop :=
  ∀ s : State, let y := s.sys
    (256 ≤ ovrRunOf y 6 → y.svc.ccUp = true → y.upd.act = none → dark y = false → exec .ccWatchdogRestart s =
      .next (s.at (ccLost (healthFail (fault { y with time := { y.time with ovrRun := y.time.ovrRun.set 6 0 } } 112 1 2 0 11 0) 4) false))) ∧
    (∀ hitless p, outlives hitless p = true ↔ (∃ q, p.wait = .svnFuse q) ∨ p.wait = .activate ∨ (p.wait = .attest ∧ hitless = true)) ∧
    (∀ hitless, let gone := fun p : Pend => p.res.isNone && !outlives hitless p
      (∀ p, p ∈ y.svc.pend → gone p = false) → ccLost y hitless = releaseReset { y with svc := { y.svc with ccUp := false } }) ∧
    (ovrRunOf y 6 < 256 → exec .ccWatchdogRestart s = .next s) ∧
    (y.svc.ccUp = false → y.upd.act = none → dark y = false → early y = false →
      exec .ccReturn s = .next (s.at (ccBack s.fuse (loadSettings s.fuse y y.upd.run)))) ∧
    (∀ hp fn, let d := (getFn y hp fn).dump
      let t := modFn y hp fn fun g => { g with dump := { g.dump with snap := none } }
      (∀ rs, d.snap = some rs → d.en = true →
        (rs.length + 1 ≤ ringFree d.size d.head d.tail → exec (.counterDump hp fn) s =
          .next (s.at (modFn ((recD0 t rs.length d.dseq d.missed :: rs).foldl (dumpWrite hp fn) t) hp fn fun g =>
            { g with dump := { g.dump with dseq := (d.dseq + 1) % 2 ^ 32, missed := 0 } }))) ∧
        (ringFree d.size d.head d.tail < rs.length + 1 → exec (.counterDump hp fn) s =
          .next (s.at (modFn t hp fn fun g => { g with dump := { g.dump with missed := d.missed + 1 } })))) ∧
      (d.snap = none ∨ d.en = false → exec (.counterDump hp fn) s = .next (s.at t))) ∧
    (∀ k g, tget y.fns k = some g → ∃ g', tget (dumpSnap y).fns k = some g' ∧
      (g.dump.en = true → epoch y % max 1 g.dump.period = 0 → g'.dump.snap = some (dumpRecs y (k / 64) (k % 64))) ∧
      (g.dump.en = false ∨ epoch y % max 1 g.dump.period ≠ 0 → g'.dump.snap = none) ∧
      g' = { g with dump := { g.dump with snap := g'.dump.snap, missed := g.dump.missed + if g.dump.snap.isSome = true then 1 else 0 } }) ∧
    (∀ port, frame y % y.cnt.bwFrames = 0 → (getBlk y port).winFt ≠ frame y * 1024 → exec (.bandwidthWindowEnd port) s =
      .next (s.at (modBlk y port fun k => { k with txWin := k.txRun, rxWin := k.rxRun, txRun := 0, rxRun := 0, winFt := frame y * 1024 }))) ∧
    (∀ port, frame y % y.cnt.bwFrames ≠ 0 → exec (.bandwidthWindowEnd port) s = .next s)

/-- Idle sessions, challenges and reports: each row answers a next state in every state, and one that comes before its time changes nothing
    (log entry 9). How the epochs of a challenge are counted is log entry 123's, which requests keep a session alive log entry 55's. -/
def Obligations.WhatIsIdleExpires : Prop :=
  ∀ s : State, let y := s.sys
    (∀ token, y.time.epNow.testBit 10 = false → exec (.sessionIdleExpiry token) s =
      .next (s.at (endSessions y (fun x => x.token == token && decide (x.lastEpoch + 1 + y.upd.idle ≤ epoch y)) 2 fun _ => false))) ∧
    (∀ token, (∀ x ∈ y.sec.sessions, x.token = token → epoch y < x.lastEpoch + 1 + y.upd.idle) ∨ y.time.epNow.testBit 10 = true →
      exec (.sessionIdleExpiry token) s = .next s) ∧
    (∀ (which : Session → Bool) (reason : Nat) (quiet : Requester → Bool), let t := endSessions y which reason quiet
      t.sec.sessions = y.sec.sessions.filter (fun x => !which x) ∧
      (∀ l who tok, y.upd.lock = some l → l.holder = .req who tok → (∃ x ∈ y.sec.sessions, which x = true ∧ x.who = who ∧ x.token = tok) →
        ((getSlot y l.slot).st = .staging ∨ (getSlot y l.slot).st = .staged) → t.upd.lock = none) ∧
      ((∀ l, y.upd.lock = some l → ∃ p, l.holder = .port p) → t.upd = y.upd)) ∧
    (∀ who, exec (.challengeExpiry who) s = .next (s.at { y with sec := { y.sec with
      chals := y.sec.chals.filter fun c => !(c.who == who && decide (c.epoch + 1024 ≤ epoch y)) } })) ∧
    (∀ who, exec (.attestReportExpiry who) s = .next (s.at { y with sec := { y.sec with
      reports := y.sec.reports.filter fun r => !(r.who == who && decide (r.lastEpoch + 1024 ≤ epoch y)) } })) ∧
    (∀ who, (∀ c ∈ y.sec.chals, c.who = who → epoch y < c.epoch + 1024) → exec (.challengeExpiry who) s = .next s) ∧
    (∀ who, (∀ r ∈ y.sec.reports, r.who = who → epoch y < r.lastEpoch + 1024) → exec (.attestReportExpiry who) s = .next s)

/-- Time messages and the pulse per second. A row that comes before its time changes nothing (log entry 9). What the one set of Fabric Time passes
    over is log entry 11's, the rounding of the offset log entry 16's, when a device leaves HOLDOVER log entry 17's, how many messages may wait log
    entry 18's, which second a PPS edge means log entry 40's and what the first one counts for log entry 119's, the time of a block at the pins log
    entry 132's, and the asymmetry log entry 144's. -/
def Obligations.TimeIsExchanged : Prop :=
  ∀ s : State, let y := s.sys
    (∀ port, (getNp y port).st = .up → early y = false → let n := getNp y port
      (n.tm.sentAt = none ∨ (∃ f, n.tm.sentAt = some f ∧ f + 8 ≤ frame y) → exec (.timeSend port) s =
        .next (s.at (modNp y port fun k => { k with tm := { k.tm with sentAt := some (frame y) }, lcq := k.lcq ++ [.time
          { sync := y.time.sync.code, ev := n.tm.echoV, prio := y.time.rootPrio, hops := y.time.dist, rootAddr := y.time.rootAddr,
            tx := 0, echoTx := n.tm.echoTx, echoRx := n.tm.echoRx }] }))) ∧
      (∀ f, n.tm.sentAt = some f → frame y < f + 8 → exec (.timeSend port) s = .next s)) ∧
    (∀ port, (getNp y port).st ≠ .up ∨ early y = true → exec (.timeSend port) s = .next s) ∧
    (∀ port h m cycle block, let rx := pinStamp y (getNp y port).rxLanes cycle block
      let fin := fun t : Sys => if frame t = frame y then t else tickWork s.fuse t []
      ((ctlIn y port h (.time m)).2 = true →
        let t := (ctlIn y port h (.time m)).1
        let asym := (getNp t port).tm.asym
        let t := elect (modNp t port fun n =>
          { n with tm := { n.tm with
              echoTx := m.tx, echoRx := rx, echoV := true, offer := some (m.prio, m.rootAddr, m.hops, m.sync),
              rtt := if m.ev = true then some (rttOf m.echoTx m.echoRx m.tx rx) else n.tm.rtt } })
        (m.ev = true → t.time.upPort = some port → exec (.timeReceive port h m cycle block) s =
          .next (s.at (fin (exchange t (offsetOf m.echoTx m.echoRx m.tx rx asym) (gateAdmits t m))))) ∧
        (m.ev = false ∨ t.time.upPort ≠ some port → exec (.timeReceive port h m cycle block) s = .next (s.at (fin t)))) ∧
      ((ctlIn y port h (.time m)).2 = false → exec (.timeReceive port h m cycle block) s = .next (s.at (fin (ctlIn y port h (.time m)).1)))) ∧
    (∀ stamp, y.time.ppsEn = true → y.time.upPort = none → y.time.sync ≠ .holdover →
      (y.time.ppsOrigin = none → exec (.ppsEdge stamp) s =
        .next (s.at { y with time := { y.time with ppsOrigin := some (stamp / 16), ppsEdge := 0 } })) ∧
      (∀ o, y.time.ppsOrigin = some o →
        let k := max 1 ((stamp / 16 + ppsCycles / 2 - o) / ppsCycles)
        let err : Int := sdiff ((o + k * ppsCycles) * 16) stamp
        (-256000 ≤ err → err ≤ 256000 → exec (.ppsEdge stamp) s = .next (s.at { y with time :=
          { y.time with ppsEdge := k, ppsLock := true, rate := rateNext y.time.rate err } })) ∧
        (err < -256000 ∨ 256000 < err → exec (.ppsEdge stamp) s = .next (s.at (fault { y with time :=
          { y.time with ppsLock := false, ppsFaults := y.time.ppsFaults + 1 } } 114 2 1 (err / 16 % 2 ^ 64).toNat 0 0))))) ∧
    (∀ stamp, y.time.ppsEn = false ∨ y.time.upPort ≠ none ∨ y.time.sync = .holdover → exec (.ppsEdge stamp) s = .next s)

/-- Training, INIT, and going down. A row that comes before its time, or in another state, changes nothing (log entry 9); how a lane that was
    dropped trains alone is log entry 81's, and that training comes as rows with their results log entry 114's. -/
def Obligations.LinksTrainAndGoDown : Prop :=
  ∀ (s : State) (p : Nat), let y := s.sys
    let n := getNp y p
    (n.st = .down → n.holdFrom + 16 ≤ frame y → n.attempts < 8 → cageHolds y p = false → quadLocked y (p / 2) = true → y.pwr.tripped = false →
      exec (.linkHoldoffExpiry p) s = .next (s.at (enterTraining y p))) ∧
    (n.st ≠ .down ∨ 8 ≤ n.attempts → exec (.linkHoldoffExpiry p) s = .next s) ∧
    (n.st = .training → quadLocked y (p / 2) = true → ∀ fec skew,
      (n.phase = 1 → exec (.trainingPhaseDone p fec skew) s = .next (s.at (modNp y p fun n =>
        { onLanes n n.sl.train (fun l => { l with sd := true, lock := true, trained := decide (n.sl.chan = 2) }) with
          phase := if n.sl.chan = 2 then 3 else 2, initAt := frame y }))) ∧
      (n.phase = 2 → exec (.trainingPhaseDone p fec skew) s = .next (s.at (modNp y p fun n =>
        { onLanes n n.sl.train (fun l => { l with trained := true }) with phase := 3, initAt := frame y }))) ∧
      (n.phase = 3 → fec = 1 ∨ fec = 2 →
        (skewOk n n.sl.train skew = true → exec (.trainingPhaseDone p fec skew) s =
          .next (s.at (modNp (enterInit y p) p fun n => { n with rxFec := fec, serFec := fec }))) ∧
        (skewOk n n.sl.train skew = false → exec (.trainingPhaseDone p fec skew) s = .next s))) ∧
    (n.st = .up → quadLocked y (p / 2) = true → ∀ fec skew, let m := 3 - n.rxLanes
      (n.addPhase = 1 → exec (.trainingPhaseDone p fec skew) s = .next (s.at (modNp y p fun n =>
        { onLanes n m (fun l => { l with sd := true, lock := true }) with addPhase := if n.sl.chan = 2 then 3 else 2 }))) ∧
      (n.addPhase = 2 → exec (.trainingPhaseDone p fec skew) s = .next (s.at (modNp y p fun n => { n with addPhase := 3 }))) ∧
      (n.addPhase = 3 → exec (.trainingPhaseDone p fec skew) s = .next (s.at (modNp y p fun n =>
        { onLanes n m (laneTrained y) with addPhase := 0 })))) ∧
    (∀ signal, n.st = .training → n.initAt + phaseBound n.phase ≤ frame y → exec (.trainingPhaseTimeout p signal) s =
      .next (s.at (modNp y p fun n =>
        { n.idle with st := .down, holdFrom := frame y, attempts := n.attempts + 1,
                      trainResult := if n.phase = 1 then (if signal then 3 else 2) else n.phase + 2 }))) ∧
    (∀ h m, (ctlIn y p h (.init m)).2 = true → let t := (ctlIn y p h (.init m)).1
      (initBad m = true → exec (.initReceive p h m) s = .next (s.at (count t p 0x08 1))) ∧
      (initBad m = false → (getNp t p).st = .init →
        let u := modNp t p fun n => { n with ll := { n.ll with peer := m, gotInit := true } }
        exec (.initReceive p h m) s = .next (s.at (if m.got = true then enterUp s.fuse u p else u))) ∧
      (initBad m = false → (getNp t p).st ≠ .init →
        exec (.initReceive p h m) s = .next (s.at (if m.got = true then t else portDown t p 0x0B)))) ∧
    (n.st = .init → n.initAt + 16 ≤ frame y → exec (.initTimeout p) s = .next (s.at (portDown y p 9))) ∧
    (n.st = .up → n.ctlAt + 4 ≤ frame y → exec (.silentTimeout p) s = .next (s.at (portDown y p 3))) ∧
    (n.st = .up → frame y < n.ctlAt + 4 → exec (.silentTimeout p) s = .next s) ∧
    (n.st = .up → ∀ k, n.losAt = some k → k + 2 ≤ frame y → exec (.losDeclare p) s = .next (s.at (portDown y p 1))) ∧
    (n.st = .up → n.losAt = none → ∀ k, n.lockAt = some k → k + 2 ≤ frame y → exec (.losDeclare p) s = .next (s.at (portDown y p 2))) ∧
    (∀ h c, (ctlIn y p h (.linkDown c)).2 = true →
      exec (.linkDownReceive p h c) s = .next (s.at (portDown (ctlIn y p h (.linkDown c)).1 p 8)))

/-- What the link layer does with what arrives. The BASE of a NACK beyond its mask is log entry 19's, a return behind what has been applied log
    entry 20's, the sums of CRED_SYNC log entry 105's, the stomped copy log entry 143's, and trace records log entry 147's. -/
def Obligations.LinkLayerReceives : Prop :=
  ∀ (s : State) (p : Nat), let y := s.sys
    (∀ hcrc marks k cut, (getNp y p).st = .up →
      let t := flitsIn y p k.vc marks.length
      let u := trace t k 2 p 0
      let n := getNp y p
      let d := seqD k.lseq n.ll.nrx
      let head := marks.head? = some 1 ∧ hcrc = k.hcrc
      let good := head ∧ marksGood marks k.len = true ∧ (k.payOk = true ∨ k.stomped = true)
      let w := if k.stomped = true then stompCopy s.fuse u p k cut else u
      (¬ head → exec (.llPacketReceive p hcrc marks k cut) s = .next (s.at (count t p 0x01 1))) ∧
      (head → marksGood marks k.len = false ∨ (k.payOk = false ∧ k.stomped = false) →
        let v := stompCopy s.fuse (count u p 0x01 1) p k cut
        exec (.llPacketReceive p hcrc marks k cut) s = .next (s.at
          (if d < 4096 then nackMissing (seenTo v p ((k.lseq + 1) % 65536)) p else v))) ∧
      (good → d = 0 → seqD k.lseq (getNp w p).ll.nrx = 0 → exec (.llPacketReceive p hcrc marks k cut) s =
        .next (s.at (ackDue (releaseHeld (deliver w p k) p (getNp w p).ll.held.length) p))) ∧
      (k.stomped = false ∨ cut = none → w = u) ∧ (d ≠ 0 → stompCopy s.fuse u p k cut = u) ∧
      (good → 0 < d → d < 4096 → (∀ h ∈ n.ll.held, h.lseq ≠ k.lseq) → exec (.llPacketReceive p hcrc marks k cut) s =
        .next (s.at (nackMissing (seenTo (modNp u p fun n => { n with ll := { n.ll with held := n.ll.held ++ [k] } }) p
          ((k.lseq + 1) % 65536)) p))) ∧
      (good → 0 < d → d < 4096 → (∃ h ∈ n.ll.held, h.lseq = k.lseq) →
        exec (.llPacketReceive p hcrc marks k cut) s = .next (s.at (count u p 0x04 1))) ∧
      (good → 4096 ≤ d → d < 61440 → exec (.llPacketReceive p hcrc marks k cut) s = .next (s.at (portDown u p 5))) ∧
      (good → 61440 ≤ d → exec (.llPacketReceive p hcrc marks k cut) s = .next (s.at (ackDue (count u p 0x04 1) p)))) ∧
    (∀ h (m : AckMsg), let a := ctlIn y p h (.ack m)
      (a.2 = true → exec (.llAckReceive p h m) s =
        .next (s.at (m.recs.foldl (fun s r => applyRet s p r.1 r.2.1 r.2.2) (applyNext a.1 p m.next)))) ∧
      (a.2 = false → exec (.llAckReceive p h m) s = .next (s.at a.1))) ∧
    (∀ h (m : NackMsg), let a := ctlIn y p h (.nack m)
      (a.2 = true → exec (.llNackReceive p h m) s = .next (s.at (((List.range 256).filter fun i => m.mask.testBit i).foldl
        (fun s i => scheduleRetx s p ((m.base + i) % 65536)) (applyNext a.1 p m.next)))) ∧
      (a.2 = false → exec (.llNackReceive p h m) s = .next (s.at a.1))) ∧
    (∀ h (m : CredMsg), let a := ctlIn y p h (.credSync m)
      (a.2 = true →
        let u := (List.range 16).foldl (fun s v => applyRet s p v (m.ret.getD v (0, 0)).1 (m.ret.getD v (0, 0)).2)
          (applyNext a.1 p m.next)
        exec (.credSyncReceive p h m) s =
          .next (s.at (if (getNp u p).st = .up ∧ auditOk (getNp u p) m = false then portDown u p 6 else u))) ∧
      (a.2 = false → exec (.credSyncReceive p h m) s = .next (s.at a.1))) ∧
    (∀ h (m : Ripple), let a := ctlIn y p h (.ripple m)
      (a.2 = true →
        let u := modRp a.1 p fun r => { r with ripple := some m, ripFrame := frame a.1, ripNew := true }
        let put := fun (s : Sys) (g d0 : Nat) (lv : List Nat) =>
          let dig := ((List.range 16).filter fun j => decide (d0 + j < 925)).foldl
            (fun t j => tset t (g * 1024 + d0 + j) (lv.getD j 0, frame s)) s.rt.dig
          { s with rt := { s.rt with dig := dig } }
        exec (.rippleReceive p h m) s = .next (s.at (m.relay.foldl (fun s r => put s r.1 r.2.1 r.2.2)
          (match m.dstart, wireOf u p with | some d0, some e => put u e.farGroup d0 m.digest | _, _ => u)))) ∧
      (a.2 = false → exec (.rippleReceive p h m) s = .next (s.at a.1)))

/-- What the link layer sends. A row that comes before its time, or with nothing to send, changes nothing (log entry 9); how many link-control
    packets may wait is log entry 18's, the BASE of a NACK beyond its mask log entry 19's, and when a failed snapshot takes the port down log entry
    133's. -/
def Obligations.LinkLayerSends : Prop :=
  ∀ (s : State) (p : Nat), let y := s.sys
    let n := getNp y p
    (n.st = .up → n.ll.ackDue = true →
      (nameable n y.time.ft ≠ [] → exec (.llAckSend p) s = .next (s.at (nackMissing y p))) ∧
      (nameable n y.time.ft = [] →
        let now := (creditDue n).take 12
        exec (.llAckSend p) s = .next (s.at (ctlSend (modNp y p fun n =>
          { n with ll := { n.ll with rep := n.ll.rep.mapIdx fun v x => if now.contains v then n.ll.cum.getD v (0, 0) else x,
                                     rot := now.getLastD n.ll.rot, ackDue := decide (12 < (creditDue (getNp y p)).length) } })
          p (.ack { next := n.ll.nrx, recs := now.map fun v => (v, n.ll.cum.getD v (0, 0)) }))))) ∧
    (n.st = .up → replayDue y n = true → exec (.replayTimerExpiry p) s = .next (s.at (scheduleRetx y p (oldestSeq n)))) ∧
    (n.st ≠ .up ∨ replayDue y n = false → exec (.replayTimerExpiry p) s = .next s) ∧
    (∀ cycle block, n.st = .up ∨ n.st = .init → n.ll.auditBad = false → quadLocked y (p / 2) = true →
      (∀ tag mask, n.st = .up → n.lswitch = some (tag, mask) → exec (.packetTransmit p cycle block) s = .next (s.at (laneDone
        (modNp (sendOut y p (.lane { sub := 4, tag, mask, forced := false })) p fun n => { n with lswitch := none, txLanes := mask }) p))) ∧
      (∀ c rest, n.st = .init ∨ n.lswitch = none → nextCtl n.lcq = some (c, rest) →
        exec (.packetTransmit p cycle block) s = .next (s.at (sendCtl y p c rest cycle block))) ∧
      (n.st = .up → n.lswitch = none → nextCtl n.lcq = none → n.losAt = none → n.lockAt = none →
        (∀ q, pickRetx y p = some q → exec (.packetTransmit p cycle block) s = .next (s.at (sendRetx y p q (n.ll.retx.erase q) cycle))) ∧
        (∀ t d c, pickRetx y p = none → pickNew y p cycle = some (t, d, c) →
          exec (.packetTransmit p cycle block) s = .next (s.at (sendNew (modRp y p fun r => { r with drr := d, drrCls := c }) p t cycle)) ∧
          windowOk n t.pkt.len = true ∧ (t.vc = 15 ∨ routable y p = true)) ∧
        (pickRetx y p = none → pickNew y p cycle = none → exec (.packetTransmit p cycle block) s = .next s))) ∧
    (∀ cycle block, n.st = .up ∨ n.st = .init → n.ll.auditBad = true →
      exec (.packetTransmit p cycle block) s = .next (s.at (portDown y p 6))) ∧
    (∀ cycle block, n.ll.auditBad = false → quadLocked y (p / 2) = false → exec (.packetTransmit p cycle block) s = .next s)

/-- Lanes, quads and reference clocks. A forced drop beside an own request is log entry 36's, an unlock while a port trains log entry 37's, and a
    lane that trains in UP log entry 81's. -/
def Obligations.LaneDetectorsAct : Prop :=
  ∀ (s : State) (p k : Nat), let y := s.sys
    let n := getNp y p
    let l := laneOf n k
    let act := laneActive n k = true
    (exec (.losAssert p k) s = .next (s.at (reDetect
      (modLane (if act ∧ l.sd = true then count y p 0x25 1 else y) p k fun l => { l with sd := false }) p))) ∧
    (exec (.losClear p k) s = .next (s.at (reDetect (modLane y p k fun l => { l with sd := true }) p))) ∧
    (let t := reDetect (modLane (if act ∧ l.lock = true then count y p 0x26 1 else y) p k fun l => { l with lock := false, lockEpoch := none }) p
     let drop := act ∧ n.st = .up ∧ n.rxLanes = 3 ∧ (if 1 - k = 0 then n.lane0.lock else n.lane1.lock) = true ∧ (n.lreq.map (·.forced)).getD false = false
     (¬ drop → exec (.lockLoss p k) s = .next (s.at t)) ∧
     (drop → exec (.lockLoss p k) s = .next (s.at (laneRequest
        (if n.lreq.isSome = true then laneAbandon t p .stateConflict else t) p (2 ^ (1 - k)) true none)))) ∧
    (quadLocked y (p / 2) = true → exec (.lockRegain p k) s = .next (s.at (reDetect (modLane y p k fun l =>
      { l with lock := true, lockEpoch := if act then none else if l.trained then l.lockEpoch.or (some (epoch y)) else none }) p))) ∧
    (quadLocked y (p / 2) = false → exec (.lockRegain p k) s = .next s) ∧
    (n.st = .up → n.aligned = true → exec (.alignmentLoss p) s = .next (s.at (reDetect (modNp (count y p 0x27 1) p fun m =>
      { m with aligned := false, alignLost := allActive n fun l => l.lock }) p))) ∧
    (n.st ≠ .up ∨ n.aligned = false → exec (.alignmentLoss p) s = .next s) ∧
    (n.st = .up → let t := reDetect (modNp y p fun n => { n with aligned := true, alignLost := false }) p
      (∀ q, n.lreq = some q → q.forced = true → exec (.alignmentFound p) s = .next (s.at (laneDone (rxSwitch t p q.mask) p))) ∧
      (n.lreq = none ∨ (∃ q, n.lreq = some q ∧ q.forced = false) → exec (.alignmentFound p) s = .next (s.at t))) ∧
    (∀ q, exec (.quadPllUnlock q) s = .next (s.at (pllUnlock s.fuse y q))) ∧
    (∀ q, quadLocked y q = false ∨ portEnabled s.fuse (2 * q) = false → pllUnlock s.fuse y q = y) ∧
    (∀ q, quadLocked y q = false → portEnabled s.fuse (2 * q) = true → exec (.quadPllRelock q) s = .next (s.at ([2 * q, 2 * q + 1].foldl
      (fun s p => reDetect (modNp (patternOut s p (getNp s p).prbs.pattern) p fun n => onLanes n 3 fun l => { l with lock := l.sd }) p)
      { y with pwr := { y.pwr with quadLock := y.pwr.quadLock.set q true }, pins := { y.pins with refSl := y.pins.refSl.set (q / 8) true } }))) ∧
    (∀ r, r < 4 →
      let t : Sys := { y with pins := { y.pins with refSl := y.pins.refSl.set r false } }
      exec (.refclkLoss r) s = .next (s.at ((List.range 8).foldl (fun s' i => pllUnlock s.fuse s' (8 * r + i))
        (if r = 0 then fault t 114 4 3 0 0 0 else t)))) ∧
    (∀ q, quadLocked y q = true → portEnabled s.fuse (2 * q) = true →
      let t := [2 * q, 2 * q + 1].foldl (fun s p => let n := getNp s p
        let s := count s p 0x26 ((List.range 2).filter fun k => laneActive n k && (laneOf n k).lock).length
        let s := modNp s p fun n => onLanes n 3 fun l => { l with lock := false, lockEpoch := none }
        match n.st with
        | .training | .init => modNp s p fun n => { n.idle with st := .down, holdFrom := frame s }
        | _ => reDetect (patternOut s p 0) p) { y with pwr := { y.pwr with quadLock := y.pwr.quadLock.set q false } }
      pllUnlock s.fuse y q = if swdState t q = 2 then fault t 114 3 2 q 0 q else t) ∧
    (∀ r, 4 ≤ r →
      let t := runHostPortReset s.fuse { y with pins := { y.pins with refHp := y.pins.refHp.set (r - 4) false } } (r - 4) false 3
      exec (.refclkLoss r) s = .next (s.at (if (getHp t (r - 4)).bifd = true then runHostPortReset s.fuse t (r - 4) true 3 else t)))

/-- The switch. A row that comes before its time, or finds no packet, changes nothing (log entry 9); that engines which work at once are rows in
    turn is log entry 110's, and what a trace record shows of the queues log entry 147's. -/
def Obligations.SwitchMovesPackets : Prop :=
  ∀ (s : State) (cx vc : Nat), let y := s.sys
    (∀ q, headOf y cx vc = some q →
      (q.route = none → exec (.packetRoute cx vc) s = .next (s.at (applyRoute y q (routeOf y cx q.pkt)))) ∧
      (q.route ≠ none → exec (.packetRoute cx vc) s = .next s) ∧
      ((∀ p, q.route ≠ some (.escape p)) → (∀ ps c, q.route ≠ some (.copies ps c)) →
        exec (.routeRecompute cx vc) s = .next (s.at (applyRoute y q (routeOf y cx q.pkt)))) ∧
      (∀ p, q.route = some (.escape p) → exec (.routeRecompute cx vc) s =
        .next (s.at (applyRoute y q (if q.onEsc = true then routeOf y cx q.pkt else escapeRoute y false q.pkt)))) ∧
      (∀ ps c, q.route = some (.copies ps c) → exec (.routeRecompute cx vc) s = .next s) ∧
      (exec (.outputAllocate cx vc) s = .next (s.at (allocate y q))) ∧
      (tooOld y q.pkt = true → allocate y q = dropQ y q 0x10) ∧
      (tooOld y q.pkt = false →
        let wait := modQ y q.arr fun x => { x with route := none }
        (q.route = none → allocate y q = y) ∧
        (∀ p ig, q.route = some (.net p ig) → let vcs := (List.range 4).map fun i => firstVc q.pkt.cls + i
          (routable y p = false → allocate y q = wait) ∧
          (routable y p = true → pickVc y p q.pkt.len vcs = none → allocate y q = y) ∧
          (routable y p = true → ∀ v, pickVc y p q.pkt.len vcs = some v →
            let t := if ig ≠ q.pkt.igroup then count y 88 (if 64 ≤ q.cx then 0x02 else 0x03) 1 else y
            allocate y q = toTx (takeQ t q.arr) p v q { q.pkt with igroup := ig })) ∧
        (∀ p, q.route = some (.escape p) →
          (y.rt.freeze.isSome = true → q.onEsc = false → allocate y q = y) ∧
          (y.rt.freeze = none ∨ q.onEsc = true →
            (routable y p = false → allocate y q = if q.onEsc = true then dropQ y q 0x15 else wait) ∧
            (routable y p = true → let room := canSend (getNp y p) (getRp y p).txq (escapeVc q.pkt.cls) 1 q.pkt.len
              (room = false → allocate y q = y) ∧
              (room = true → allocate y q = toTx (takeQ (if q.onEsc = true then y else trace (count y 88 0x01 1) q.pkt 7 p 0) q.arr) p
                (escapeVc q.pkt.cls) q q.pkt)))) ∧
        (∀ p inb enters, q.route = some (.ring p inb enters) → let v := firstVc q.pkt.cls + b2n inb
          let room := canSend (getNp y p) (getRp y p).txq v 1 q.pkt.len = true ∧
            (enters = true → 132 ≤ freeFlits (getNp y p) (getRp y p).txq v)
          (routable y p = false → allocate y q = wait) ∧ (routable y p = true → ¬ room → allocate y q = y) ∧
          (routable y p = true → room → allocate y q = toTx (takeQ y q.arr) p v q { q.pkt with igroup :=
            (if isGlobal y p = true then ((wireOf y p).map (·.farDev)).getD 0 else if enters = true then myDev y else q.pkt.igroup) % 64 })) ∧
        (∀ h, q.route = some (.host h) → (ejRoom y h q.pkt.len = false → allocate y q = y) ∧
          (ejRoom y h q.pkt.len = true → allocate y q =
            freeBuf (takeQ (modHp y h fun x => { x with ej := x.ej ++ [(q.cx, q.pkt)] }) q.arr) q.cx q.pkt.vc q.pkt.len)) ∧
        (q.route = some .ce → allocate y q = freeBuf (takeQ { y with ce := { y.ce with
          colIn := y.ce.colIn ++ [(q.cx, q.pkt)] } } q.arr) q.cx q.pkt.vc q.pkt.len) ∧
        (q.route = some .cc → allocate y q = freeBuf (takeQ { y with rt := { y.rt with
          ccIn := y.rt.ccIn ++ [(q.cx, q.pkt)] } } q.arr) q.cx q.pkt.vc q.pkt.len) ∧
        (∀ ps ce, q.route = some (.copies ps ce) →
          let t : Sys := if ce = true then { y with ce := { y.ce with colIn := y.ce.colIn ++ [(q.cx, q.pkt)] } } else y
          let r := ps.foldl (fun a p => sendCopy a q p) (t, [])
          allocate y q = if r.2 = [] then freeCopy (takeQ r.1 q.arr) q.cx q.pkt.vc q.pkt.len q.arr
            else modQ r.1 q.arr fun x => { x with route := some (.copies r.2 false) })) ∧
      (y.rt.millpond = false → (∀ p, q.route ≠ some (.escape p)) → q.pkt.rmode = 0 → q.onEsc = false → isHere y q.pkt = false →
        exec (.escapeMove cx vc) s = .next (s.at (applyRoute y q (escapeRoute y false q.pkt)))) ∧
      (y.rt.millpond = true ∨ q.pkt.rmode ≠ 0 ∨ q.onEsc = true ∨ isHere y q.pkt = true → exec (.escapeMove cx vc) s = .next s)) ∧
    (headOf y cx vc = none → exec (.packetRoute cx vc) s = .next s ∧ exec (.routeRecompute cx vc) s = .next s ∧
      exec (.outputAllocate cx vc) s = .next s ∧ exec (.escapeMove cx vc) s = .next s) ∧
    (exec .ageSweep s =
      let t := (y.rt.vcq.filter fun q => tooOld y q.pkt).foldl (fun s q =>
        freeCopy (trace (count (takeQ s q.arr) q.cx 0x10 1) q.pkt 8 q.cx 0x10) q.cx q.pkt.vc q.pkt.len q.arr) (sweepWaiting y)
      .next (s.at ((List.range 64).foldl (fun s p => ((getRp s p).txq.filter fun t => tooOld s t.pkt).foldl (fun s t =>
        let u := trace (count (modRp s p fun r => { r with txq := r.txq.erase t }) (t.cx % 100) 0x10 1) t.pkt 8 (t.cx % 100) 0x10
        if 100 ≤ t.cx then freeCopy u (t.cx - 100) t.pkt.vc t.pkt.len t.arr else freeBuf u t.cx t.pkt.vc t.pkt.len) s) t))) ∧
    (∀ c, y.rt.commit = some c →
      (c.frame ≤ frame y → let t := switchBanks y
        exec .tableSwitch s = .next (s.at (if t.rt.freeze.isSome = true then t else copyBanks t))) ∧
      (frame y < c.frame → exec .tableSwitch s = .next s)) ∧
    (∀ f b, y.rt.freeze = some (f, b) →
      (f ≤ frame y → exec .escapeFreezeEnd s = .next (s.at (copyBanks (clearEsc { y with rt := { y.rt with freeze := none } } true)))) ∧
      (frame y < f → exec .escapeFreezeEnd s = .next s)) ∧
    (∀ f m, y.rt.modePend = some (f, m) →
      (f ≤ frame y → exec .modeChangeStart s = .next (s.at (startTransfer y m))) ∧
      (frame y < f → exec .modeChangeStart s = .next s)) ∧
    (∀ f m, y.rt.transfer = some (f, m) →
      (f ≤ frame y → exec .modeTransferEnd s = .next (s.at (y.rt.ceOut.foldl enterCx { y with rt := { y.rt with
        millpond := m, transfer := none, ceOut := [], vcq := y.rt.vcq.map fun q =>
          match q.route with | some (.copies _ _) => q | _ => { q with route := none } } }))) ∧
      (frame y < f → exec .modeTransferEnd s = .next s))

/-- Management packets and datagrams. A HELLO that is not due, and an expiry before its time, change nothing (log entry 9); which links a HELLO
    makes work is log entry 93's, and what a trace record shows of the queues log entry 147's. -/
def Obligations.HelloAndDatagramsArrive : Prop :=
  ∀ (s : State) (p : Nat), let y := s.sys
    let n := getNp y p
    (n.st = .up → early y = false → let h := if y.svc.ccUp = true then ownHello s.fuse y p else n.helloTx.getD (ownHello s.fuse y p)
      n.helloDue = true ∨ n.helloSent = none ∨ (∃ k, n.helloSent = some k ∧ k + 64 ≤ frame y) ∨
        (n.helloTx.map fun x => { x with swEpoch := 0 }) ≠ some { h with swEpoch := 0 } →
      exec (.helloSend p) s = .next (s.at (sendMgmt
        (modNp y p fun n => { n with helloSent := some (frame y), helloDue := false, helloTx := some h }) p 0x01 h.coord (helloBytes h)))) ∧
    (∀ q k t, takeMgmt y 0x01 0x0F = some (q, k, t) →
      (k.op = 0x01 → exec .helloReceive s = .next (s.at (takeHello s.fuse t q (helloParse k.payload)))) ∧
      (k.op ≠ 0x01 → exec .helloReceive s = .next (s.at (count t q 0x18 1)))) ∧
    (takeMgmt y 0x01 0x0F = none → exec .helloReceive s = .next s) ∧
    (n.helloAt + 256 < frame y → exec (.helloExpiry p) s = .next (s.at (modNp y p fun n => { n with helloOk := false }))) ∧
    (frame y ≤ n.helloAt + 256 → exec (.helloExpiry p) s = .next s) ∧
    (∀ cx k rest, y.rt.ccIn = (cx, k) :: rest →
      let t : Sys := { y with rt := { y.rt with ccIn := rest } }
      (tooOld t k = true → exec .datagramReceive s = .next (s.at (trace (count t cx 0x10 1) k 8 cx 0x10))) ∧
      (tooOld t k = false → 64 ≤ y.rt.dgq.length → exec .datagramReceive s = .next (s.at (trace (count t cx 0x19 1) k 8 cx 0x19))) ∧
      (tooOld t k = false → y.rt.dgq.length < 64 → let u := trace t k 5 cx 0
        exec .datagramReceive s = .next (s.at { u with rt := { u.rt with dgq := u.rt.dgq ++ [(k.sfeid % 2 ^ 18, k.payload)] } }))) ∧
    (y.rt.ccIn = [] → exec .datagramReceive s = .next s)

/-- Lane changes between two neighbours. A row that comes before its time changes nothing (log entry 9); how many answers may wait is log entry
    18's, a forced drop beside an own request log entry 36's, and a lane that trains in UP log entry 81's. -/
def Obligations.LaneChangesAreNegotiated : Prop :=
  ∀ (s : State) (p : Nat), let y := s.sys
    let n := getNp y p
    (∀ h (m : LaneMsg), (ctlIn y p h (.lane m)).2 = true → let t := (ctlIn y p h (.lane m)).1
      let n := getNp t p
      let sends := fun (u : Sys) (k : Nat) => ctlSend u p (.lane { sub := k, tag := m.tag, mask := m.mask, forced := m.forced })
      let u := if n.lreq.isSome = true then
          endWait (modNp t p fun n => { n with lreq := none }) (fun w => w == .lanes p) .stateConflict [] else t
      let bad := ∃ k, k < 2 ∧ m.mask.testBit k = true ∧ laneGood n k = false
      let some_ := ∃ k, k < 2 ∧ m.mask.testBit k = true ∧ canTx n k = true
      let no := m.mask = 0 ∨ (bad ∧ ¬ (m.forced = true ∧ some_))
      (m.sub = 1 → n.lsrv = some m.tag → exec (.laneReceive p h m) s = .next (s.at (sends t 2))) ∧
      (m.sub = 1 → n.lsrv ≠ some m.tag → reqWins s.fuse n m.forced = false → exec (.laneReceive p h m) s = .next (s.at t)) ∧
      (m.sub = 1 → n.lsrv ≠ some m.tag → reqWins s.fuse n m.forced = true → no →
        exec (.laneReceive p h m) s = .next (s.at (sends u 3))) ∧
      (m.sub = 1 → n.lsrv ≠ some m.tag → reqWins s.fuse n m.forced = true → ¬ no → exec (.laneReceive p h m) s =
        .next (s.at (sends (switchTx (modNp u p fun n => { n with lsrv := some m.tag }) p m.tag m.mask) 2))) ∧
      (m.sub = 2 → ∀ q, n.lreq = some q → q.tag = m.tag → q.acked = false → exec (.laneReceive p h m) s = .next (s.at
        (laneDone (switchTx (modNp t p fun n => { n with lreq := some { q with acked := true } }) p q.tag q.mask) p))) ∧
      (m.sub = 3 → ∀ q, n.lreq = some q → q.tag = m.tag → exec (.laneReceive p h m) s = .next (s.at (laneAbandon t p .stateConflict))) ∧
      (m.sub = 4 → n.lreq.isSome = true → exec (.laneReceive p h m) s = .next (s.at (laneDone (rxSwitch t p m.mask) p))) ∧
      (m.sub = 4 → n.lreq = none → let v := rxSwitch t p m.mask
        exec (.laneReceive p h m) s =
          .next (s.at (if n.lsrv = some m.tag ∧ (getNp v p).txLanes = m.mask then count v p 0x09 1 else v)))) ∧
    (∀ h m, (ctlIn y p h (.lane m)).2 = false → exec (.laneReceive p h m) s = .next (s.at (ctlIn y p h (.lane m)).1)) ∧
    (∀ q, n.lreq = some q → q.since + 16 ≤ frame y → q.forced = true → n.rxLanes ≠ q.mask →
      exec (.laneReqTimeout p) s = .next (s.at (laneAbandon y p .timeout))) ∧
    (∀ q, n.lreq = some q → frame y < q.since + 16 → exec (.laneReqTimeout p) s = .next s) ∧
    (∀ q, n.lreq = some q → q.acked = false → q.since + 16 ≤ frame y → q.forced = false ∨ n.rxLanes = q.mask →
      (q.tries < 3 → exec (.laneReqTimeout p) s = .next (s.at (ctlSend
        (modNp y p fun n => { n with lreq := some { q with tries := q.tries + 1, since := frame y } }) p
        (.lane { sub := 1, tag := q.tag, mask := q.mask, forced := q.forced })))) ∧
      (3 ≤ q.tries → exec (.laneReqTimeout p) s = .next (s.at (laneAbandon y p .timeout)))) ∧
    (∀ k e, k < 2 → n.rxLanes = 2 - k → laneGood n k = true → (if k = 0 then n.lane0 else n.lane1).lockEpoch = some e → e + 1 < epoch y →
      n.st = .up → n.lreq = none → exec (.laneAddRequest p) s = .next (s.at (laneRequest y p 3 false none)))

/-- What the host writes, and what a read answers (no row reads: log entry 108). A head that names no unread entry is log entry 12's, when an event
    ring is full log entry 23's, what an unwritten byte of a buffer reads as log entry 13's, other widths and places log entry 14's, small points of
    the registers log entry 15's; the fields of PCI Express configuration space are log entry 126's, the gate on a function's reads log entry 146's,
    a message while bus mastering is off log entry 148's, and that the doorbell serves its request at once log entry 10's. -/
def Obligations.HostWritesThroughTheDoor : Prop :=
  ∀ (s : State) (hp fn page : Nat), let y := s.sys
    (fnPresent y hp fn = true →
      (∀ c, pageCtx y hp fn page = some c →
        (∀ v, exec (.sqTailWrite hp fn page v) s = .next (s.at (modCtx y c fun x => { x with tail := v % 65536 % 2 ^ x.sqLog }))) ∧
        (∀ v, let t := modCtx y c fun x => { x with eqUsed := eqUsedAt x (v % 65536 % 2 ^ x.eqLog), eqHead := v % 65536 % 2 ^ x.eqLog,
                                                    armed := x.armed || v.testBit 31 }
          ∀ x, getCtx t c = some x → exec (.eqHeadWrite hp fn page v) s =
            .next (s.at (if (modByCount x || modByTime t x) = true then evInterrupt t c else t))) ∧
        (∀ d : Bytes, d.length = 64 → exec (.inlinePush hp fn page 0x800 d) s = .next (s.at (modCtx y c fun x =>
          let keep := x.st == .active && decide (x.inl.length < 16) && decide (inlUsed y hp < 256)
          { x with inl := if keep then (x.inl.filter fun e => e.1 != x.tail) ++ [(x.tail, d)] else x.inl, tail := nextSlot x x.tail }))) ∧
        (∀ (off : Nat) (d : Bytes), 0x800 ≤ off → off < 0x840 → off ≠ 0x800 ∨ d.length ≠ 64 →
          exec (.inlinePush hp fn page off d) s = .next (s.at (discard y hp fn 0x02))) ∧
        (∀ (off : Nat) (d : Bytes), off < 0x800 ∨ 0x840 ≤ off → exec (.inlinePush hp fn page off d) s = .next s) ∧
        (∀ x, getCtx y c = some x → bar0Open y hp fn = true →
          pageRead y hp fn page 0x080 = some (x.head % 2 ^ 16) ∧
          pageRead y hp fn page 0x0C0 = some (x.eqTail % 2 ^ 16 + 2 ^ 16 * b2n x.eqPhase + 2 ^ 17 * b2n x.armed) ∧
          ∀ off, off ≠ 0x080 → off ≠ 0x0C0 → pageRead y hp fn page off = some 0)) ∧
      (pageCtx y hp fn page = none → bar0Open y hp fn = true → ∀ off, pageRead y hp fn page off = some 0) ∧
      (pageCtx y hp fn page = none →
        (∀ v, exec (.sqTailWrite hp fn page v) s = .next (s.at (discard y hp fn 0x01)) ∧
          exec (.eqHeadWrite hp fn page v) s = .next (s.at (discard y hp fn 0x01))) ∧
        (∀ off d, exec (.inlinePush hp fn page off d) s = .next (s.at (discard y hp fn 0x01)))) ∧
      ((getFn y hp fn).flr = none → ∀ v,
        exec (.adminHeadWrite hp fn v) s = .next (s.at (modMbx y hp fn fun m =>
          { m with adminHead := v % 4096, admin := m.admin.map fun r => r.headTo (v % 4096) })) ∧
        exec (.xfaultHeadWrite hp fn v) s = .next (s.at (modMbx y hp fn fun m =>
          { m with xfHead := v % 4096, xfault := m.xfault.map fun r => r.headTo (v % 4096) })))) ∧
    (fnPresent y hp fn = false → ∀ v off d, exec (.sqTailWrite hp fn page v) s = .next s ∧ exec (.eqHeadWrite hp fn page v) s = .next s ∧
      exec (.inlinePush hp fn page off d) s = .next s) ∧
    (bar0Open y hp fn = true →
      (∀ off v, off % 4 = 0 → exec (.registerWrite hp fn (.bar0 off) 4 v) s = .next (s.at (regWrite32 s.fuse y hp fn off (v % 2 ^ 32))) ∧
        exec (.registerWrite hp fn (.bar0 off) 8 v) s = .next (s.at
          (regWrite32 s.fuse (regWrite32 s.fuse y hp fn off (v % 2 ^ 32)) hp fn (off + 4) (v / 2 ^ 32 % 2 ^ 32)))) ∧
      (∀ off w v, off % 4 ≠ 0 ∨ (w ≠ 4 ∧ w ≠ 8) → exec (.registerWrite hp fn (.bar0 off) w v) s = .next s)) ∧
    (bar0Open y hp fn = false → ∀ off w v, exec (.registerWrite hp fn (.bar0 off) w v) s = .next s ∧ barRead s.fuse y hp fn off w = none) ∧
    (bar0Open y hp fn = true → let m := (getFn y hp fn).mbx
      (∀ off w, off % 4 ≠ 0 ∨ (w ≠ 4 ∧ w ≠ 8) → barRead s.fuse y hp fn off w = some 0) ∧
      (∀ off, off % 4 = 0 → 0x8 < off → off < 0x100 → barRead s.fuse y hp fn off 4 = some 0) ∧
      barRead s.fuse y hp fn 0x8 4 = some (m.lastTag % 2 ^ 16 * 2 ^ 16 + y.dev.st.code % 2 ^ 8 * 2 ^ 8 + 4 * b2n m.accepted +
        2 * b2n m.rspReady + b2n (mbxBusy y hp fn)) ∧
      (∀ i, i % 4 = 0 → i < 0x1000 → barRead s.fuse y hp fn (0x2000 + i) 4 = some (num (Memory.readAll m.rspBuf i 4) 0 4)) ∧
      (∀ off, off % 4 = 0 → ∃ a b, barRead s.fuse y hp fn off 4 = some a ∧ barRead s.fuse y hp fn (off + 4) 4 = some b ∧
        barRead s.fuse y hp fn off 8 = some (a + 2 ^ 32 * b))) ∧
    (∀ r w v, exec (.registerWrite hp fn (.cfg r) w v) s = .next (s.at (cfgWrite y hp fn r v))) ∧
    ((linkOf y hp fn).up = true → (linkOf y hp fn).crs = false → fn < 64 → fnPresent y hp fn = true → (getFn y hp fn).flr = none →
      ∀ v, cfgWrite y hp fn .busMaster v = readNext (msixFlush (modFn y hp fn fun g => { g with bme := v.testBit 0 }) hp fn) hp) ∧
    (bar0Open y hp fn = true → ∀ off d, 0x1000 ≤ off → off < 0x2000 →
      (mbxClosed y hp fn = false → (getFn y hp fn).mbx.held = false →
        let m := Memory.writeAll (getFn y hp fn).mbx.reqBuf (off - 0x1000) (d.take (0x2000 - off))
        exec (.requestBufferWrite hp fn off d) s = .next (s.at (modMbx y hp fn fun g => { g with reqBuf := m })) ∧
        (∀ i, i < d.length → off + i < 0x2000 → Memory.read m (off - 0x1000 + i) = d.getD i 0) ∧
        (∀ a, a < off - 0x1000 ∨ off - 0x1000 + d.length ≤ a ∨ 0x1000 ≤ a →
          Memory.read m a = Memory.read (getFn y hp fn).mbx.reqBuf a)) ∧
      (mbxClosed y hp fn = true ∨ (getFn y hp fn).mbx.held = true →
        exec (.requestBufferWrite hp fn off d) s = .next (s.at (modMbx y hp fn fun g => { g with drop := true })))) ∧
    (bar0Open y hp fn = true → ∀ v mem,
      (v.testBit 0 = true → exec (.mbxDoorbell hp fn v mem) s =
        .next (s.at (serveOp s.fuse y (bufRequest y hp fn mem).1 (bufRequest y hp fn mem).2))) ∧
      (v.testBit 0 = false → exec (.mbxDoorbell hp fn v mem) s = .next s)) ∧
    (∀ i c q, mailbox i = some (c, q) → exec i s = .next (s.at (serveOp s.fuse y c.opcode q))) ∧
    (∀ op q, (∀ i c r, mailbox i = some (c, r) → c.opcode ≠ op) → serveOp s.fuse y op q =
      mbxGate y op q fun t => finishNow (touchSession t q.who q.token) q op .badOpcode none [] false)

/-- The descriptors of a ring. A row that is not the oldest descriptor's changes nothing (log entry 9), and the order in which descriptors start is
    log entry 58's; the member that the event of a SEND shows is log entry 24's, FENCE_NOP and the endpoint log entry 29's, reserved bits log entry
    59's, CSWAP's word and SEND to a set log entry 70's, quiescing log entry 79's, the checks of COL_START and its event log entries 142 and 151's,
    and what goes on at once (`settle`) log entry 110's. -/
def Obligations.DescriptorsAreCarriedOut : Prop :=
  ∀ (s : State) (c : Nat), let y := s.sys
    let start := fun (i : Instr) (opc : Nat) =>
      (∀ x p, canStart y c opc = some (x, p) → let t := popDesc y c
        (∀ f coord, (getHp t x.hp).ownFeid = some f → epCoord t.rt.act p.dfeid = some coord → hasRoute t x.hp p.dfeid coord = true →
          exec i s = .next (s.at (settle
            { t with te := { t.te with nextOp := t.te.nextOp + 1, ops := t.te.ops ++ [opOf t c x p coord] } }))) ∧
        ((getHp t x.hp).ownFeid = none ∨ epCoord t.rt.act p.dfeid = none ∨
            (∃ coord, epCoord t.rt.act p.dfeid = some coord ∧ hasRoute t x.hp p.dfeid coord = false) →
          exec i s = .next (s.at (settle (endDesc t c p.seq p.d.event
            { plainEvent c p.d 8 with w16 := if opc = 0x10 then (plainEvent c p.d 8).w16 else p.roff,
                                      w28 := evW28 false none (if opc = 0x10 then none else p.member.map (·.2)) }))))) ∧
      (canStart y c opc = none → exec i s = .next (s.at (settle y)))
    start (.put c) 1 ∧ start (.putImm c) 2 ∧ start (.get c) 3 ∧ start (.atomic c) 4 ∧ start (.fetchAtomic c) 5 ∧ start (.cswap c) 6 ∧
      start (.send c) 0x10 ∧
    (∀ x p, canStart y c 0x12 = some (x, p) → let t := popDesc y c
      (∀ u, post t c (recvOf p) = some u → exec (.recvPost c) s = .next (s.at (settle u))) ∧
      (post t c (recvOf p) = none → exec (.recvPost c) s = .next (s.at (settle
        (count (modCtx t c fun z => { z with deferred := z.deferred ++ [recvOf p] }) (68 + c % 16) 0x04 1))))) ∧
    (∀ x p, canStart y c 0x13 = some (x, p) → let t := popDesc y c
      let done := fun (u : Sys) (n : Nat) => endDesc u c p.seq p.d.event { Ev.zero c with type := 0x13, cookie := p.d.cookie, len := n }
      (∀ r, (x.posted.find? fun r => r.cookie == p.d.w16) = some r → exec (.recvCancel c) s = .next (s.at (settle (done
        (endDesc (unpost t c r) c r.seq r.event { Ev.zero c with type := 0x12, status := 9, cookie := r.cookie, w16 := r.mtch }) 1)))) ∧
      ((x.posted.find? fun r => r.cookie == p.d.w16) = none → exec (.recvCancel c) s = .next (s.at (settle (done t 0))))) ∧
    (∀ x p, canStart y c 0x20 = some (x, p) →
      exec (.colStart c) s = .next (s.at (settle ((colStart (popDesc y c) c p.seq p.d).getD y)))) ∧
    (∀ i opc, (i, opc) ∈ [(Instr.recvPost c, 0x12), (.recvCancel c, 0x13), (.colStart c, 0x20), (.fenceNop c, 0x3F), (.xlatInvalidateRing c, 0x40)] →
      canStart y c opc = none → exec i s = .next (s.at (settle y))) ∧
    (∀ (t : Sys) (seq : Nat) (d : Desc),
      let refuse := fun (st origin : Nat) => some (endDesc t c seq (d.flags.testBit 0)
        { Ev.zero c with type := 0x20, status := st, cookie := d.cookie, w16 := 2 ^ 32 * origin })
      (memberOf t d.dctx c = none → colStart t c seq d = refuse 4 0) ∧
      ∀ k m, memberOf t d.dctx c = some (k, m) →
        let o : ColOp :=
          { ctx := c, seq, event := d.flags.testBit 0, cookie := d.cookie, cseq := m.nextCseq, saddr := d.w16, raddr := d.w24, count := d.w36,
            cop := d.w40 % 8, rop := bits d.w40 8 4, etype := bits d.w40 12 4, mode := bits d.w40 16 2, root := bits d.w40 32 32,
            readX := 0, read := 0, empty := false, done := false, pend := 0, wrote := 0, want := 0, recs := [] }
        let o := { o with want := writeElems k o m.rank * elemSize o.etype }
        let bad := colCodesOk d = false ∨ k.st = .joining ∨ ((o.cop = 1 ∨ o.cop = 2) ∧ k.n ≤ o.root) ∨
          2 ^ 32 ≤ readElems k o m.rank * elemSize o.etype ∨ 2 ^ 32 ≤ o.want ∨ 2 ^ 32 ≤ upLen k o m.rank ∨
          2 ^ 32 ≤ expoLen k o m.rank ∨ 2 ^ 32 ≤ downElems k o.cop o.count * elemSize o.etype
        (bad → colStart t c seq d = refuse 4 0) ∧
        (¬ bad → k.st = .failed → colStart t c seq d = refuse 2 k.origin) ∧
        (¬ bad → k.st ≠ .failed → hasFeid t c = false → colStart t c seq d = refuse 8 0) ∧
        (¬ bad → k.st ≠ .failed → hasFeid t c = true → colFull k m = true → colStart t c seq d = none) ∧
        (¬ bad → k.st ≠ .failed → hasFeid t c = true → colFull k m = false → k.early = [] →
          colStart t c seq d = some (modComm (modColMember (modComm t d.dctx fun k => { k with ops := k.ops ++ [o] }) d.dctx c fun x =>
            { x with nextCseq := (x.nextCseq + 1) % 2 ^ 32 }) d.dctx fun k => { k with early := k.early.filter fun p => colLate k p }))) ∧
    (∀ x p, canStart y c 0x3F = some (x, p) → exec (.fenceNop c) s = .next (s.at (settle
      (endDesc (popDesc y c) c p.seq p.d.event { Ev.zero c with type := 0x3F, cookie := p.d.cookie })))) ∧
    (∀ x p, canStart y c 0x40 = some (x, p) → let t := popDesc y c
      let lo := if p.d.w24 = 0 then 0 else p.d.w16 / 4096 * 4096
      let hi := if p.d.w24 = 0 then 2 ^ 64 else lo + 4096 * p.d.w24
      let ids := invalWaits t fun a => usesRange t a x.pd lo hi
      exec (.xlatInvalidateRing c) s =
        .next (s.at (settle (modCtx (invalRange t x.pd lo hi) c fun z => { z with ringInval := some (p, ids) })))) ∧
    (∀ x, getCtx y c = some x → x.st = .active → fetching y = true → x.fetching = false → x.deferred = [] → colHeld y c x = false →
      x.head ≠ x.tail →
      (∀ e, (x.inl.find? fun e => e.1 == x.head) = some e → exec (.descriptorFetch c) s = .next (s.at (settle
        (takeDesc (passHead (modCtx y c fun z => { z with inl := z.inl.erase e }) c 1) c e.2)))) ∧
      ((x.inl.find? fun e => e.1 == x.head) = none → let n := fetchRun x 8 x.head
        exec (.descriptorFetch c) s = .next (s.at (settle (startAcc (modCtx y c fun z => { z with fetching := true }) c .fetch
          ((x.sqBase + 64 * x.head) % 2 ^ 64) (64 * n) [] 0 (.fetchDesc x.head n) none)))))

/-- Operations on their way. A row that comes before its time changes nothing (log entry 9). FAULT is log entry 60's, OSNs toward PEER_ISSUE log
    entry 66's, the device's own packets log entry 67's, operations to one device log entry 69's, the member that the event of a SEND shows log
    entry 24's, a message that waits for a member of a set log entry 155's, who pulls for a LOCAL set log entry 166's, and what goes on at once
    (`settle`) log entry 110's. -/
def Obligations.OperationsAreIssued : Prop :=
  ∀ (s : State) (k : Nat), let y := s.sys
    (y.dev.st ≠ .fault → ∀ o, getOp y k = some o → o.status = 0 → o.segNext < o.nseg → let dev := opDev o
      let p := getPeer y dev
      (p.valid = false → exec (.segmentIssue k) s = .next (s.at (settle (startSync y o.hp o.ctx o.dfeid o.dcoord o.dctx)))) ∧
      (p.valid = true → peerLoad y dev < y.te.peerIssue → heldBack y o = false → ∀ idx, freeEntry y = some idx →
        let first := o.segNext == 0 && usesOsn o.opc
        let base := if first then p.nextOsn else o.firstOsn
        let send := first && o.opc == 0x10
        let t := if first then modPeer y dev fun x =>
          { x with nextOsn := (x.nextOsn + o.nseg) % 2 ^ 32, lastSend := if send then base else x.lastSend } else y
        let off := 262144 * o.segNext
        let bytes := if isAtomicOp o.opc = true then wordSize o.w56 else if o.rts = true then o.len else min 262144 (o.len - off)
        let pk := if (isAtomicOp o.opc || o.rts) = true then 1 else max 1 ((bytes + 4095) / 4096)
        let t := modOp t k fun x => { x with firstOsn := base, segNext := x.segNext + 1, prev := if send then p.lastSend else x.prev }
        exec (.segmentIssue k) s = .next (s.at (settle (buildMore (takeEntry t idx
          { idx, gen := 0, kind := if o.opc = 3 then .get else .osn, op := k, no := o.segNext, dev, ctx := o.ctx, hp := o.hp,
            dfeid := o.dfeid, osn := (base + o.segNext) % 2 ^ 32, pcnt := pk - 1, off := if isAtomicOp o.opc = true then 0 else off, bytes,
            built := 0, sent := 0, mask := 0, timed := false, start := 0, retry := 0, nacks := [], writes := 0, sfeid := feidOf y o.hp,
            coord := o.dcoord }) idx))))) ∧
    (y.dev.st ≠ .fault → y.rt.transfer = none →
      (∀ e rest, (getHp y k).respQ = e :: rest →
        exec (.packetInject k) s = .next (s.at (settle (inject (modHp y k fun h => { h with respQ := rest }) k e)))) ∧
      (∀ e, (getHp y k).respQ = [] → bestHead (heads y (getHp y k).reqQ) = some e →
        let t := modHp y k fun h => { h with reqQ := h.reqQ.erase e, vtime := e.finish }
        (getCtx t e.ctx = none → exec (.packetInject k) s = .next (s.at (settle (inject t k e)))) ∧
        (∀ x, getCtx t e.ctx = some x → exec (.packetInject k) s = .next (s.at (settle (inject
          (modFn (modCtx t e.ctx fun z => { z with shaper := z.shaper.take (e.pkt.len * 64) }) x.hp x.fn fun g =>
            { g with shaper := g.shaper.take (e.pkt.len * 64) }) k e))))) ∧
      ((getHp y k).respQ = [] → bestHead (heads y (getHp y k).reqQ) = none → exec (.packetInject k) s = .next (s.at (settle y)))) ∧
    (y.dev.st ≠ .fault → ∀ m, getMsg y k = some m → m.st = .taken → m.rts = true → m.recv.isSome = true → m.wait = false →
      m.pullNext < pullCount m → (y.te.segs.filter fun g => g.kind == .pull k).length < 16 →
      let hp := ((getCtx y m.buf.1).map (·.hp)).getD 0
      let coord := (epCoord y.rt.act m.head.sfeid).getD (m.src * 4)
      ((getPeer y m.src).valid = false →
        exec (.rdvPullIssue k) s = .next (s.at (settle (startSync y hp m.buf.1 m.head.sfeid coord m.head.sctx)))) ∧
      ((getPeer y m.src).valid = true → peerLoad y m.src < y.te.peerIssue → ∀ idx, freeEntry y = some idx →
        let off := 262144 * m.pullNext
        let bytes := min 262144 (m.want - off)
        exec (.rdvPullIssue k) s = .next (s.at (settle (buildMore (takeEntry
          (modMsg y k fun m => { m with pullNext := m.pullNext + 1 }) idx
          { idx, gen := 0, kind := .pull k, op := 2 ^ 64, no := m.pullNext, dev := m.src, ctx := m.buf.1, hp, dfeid := m.head.sfeid,
            osn := m.osn, pcnt := max 1 ((bytes + 4095) / 4096) - 1, off, bytes, built := 0, sent := 0, mask := 0, timed := false,
            start := 0, retry := 0, nacks := [], writes := 0, sfeid := feidOf y hp, coord }) idx))))) ∧
    (y.dev.st = .fault → exec (.segmentIssue k) s = .next s ∧ exec (.packetInject k) s = .next s ∧ exec (.rdvPullIssue k) s = .next s) ∧
    (∀ m r, getMsg y k = some m → m.recv = some r → m.wait = true →
      exec (.deferredMemberChoice k) s = .next (s.at (settle (msgCheck (takeMsg y k r) k)))) ∧
    (∀ x r rest u, getCtx y k = some x → x.deferred = r :: rest →
      post (modCtx y k fun z => { z with deferred := rest }) k r = some u →
      exec (.deferredPostRelease k) s = .next (s.at (settle u))) ∧
    (∀ x, getCtx y k = some x → (modByTime y x = true → exec (.moderationTimerExpiry k) s = .next (s.at (evInterrupt y k))) ∧
      (modByTime y x = false → exec (.moderationTimerExpiry k) s = .next s))

/-- Host ports, functions and device reads. A row that comes before its time changes nothing (log entry 9). What a reset gives the configuration
    fields is log entry 6's, function-level reset and the reads it leaves as orphans log entry 62's, the end of its aborts log entry 61's, the
    reason of SESSION_END log entry 125's, region entries in flight log entry 129's, the gate on a function's reads log entry 146's, a message while
    bus mastering is off log entry 148's, and what goes on at once (`settle`) log entry 110's. -/
def Obligations.HostPortsComeAndGo : Prop :=
  ∀ (s : State) (hp fn : Nat), let y := s.sys
    (fnPresent y hp fn = true → exec (.functionLevelReset hp fn) s =
      .next (s.at (settle (if fn = 0 then vfClear (flrStart y hp 0) hp false else flrStart y hp fn)))) ∧
    (fnPresent y hp fn = false → exec (.functionLevelReset hp fn) s = .next s) ∧
    ((getFn y hp fn).flr.isSome = true → (∀ c ∈ ctxsOf y hp fn, ∀ x, getCtx y c = some x → x.st ≠ .aborting) →
      let t := endSessions y (fun x => x.who == .fn hp fn) 3 (fun w => w == .fn hp fn)
      let t := (ctxsOf t hp fn).foldl (fun s c => freeCtx (dropSets s c) c) t
      let t := modFn (dropPds t hp fn) hp fn Fn.afterFlr
      let b := onLinkB t hp fn
      let busy := (List.range 64).any fun k => onLinkB t hp k == b && (getFn t hp k).flr.isSome
      exec (.flrCleanup hp fn) s = .next (s.at (settle (if busy = true then t else
        modLink t hp b fun l => { l with crs := !l.up || !served t, inReset := !l.up })))) ∧
    ((getFn y hp fn).flr = none → exec (.flrCleanup hp fn) s = .next s) ∧
    (∀ b cause,
      let t := modHp y hp fun h => { h with
        rdWait := h.rdWait.filter fun r => r.link != b, reads := h.reads.filter fun r => r.link != b }
      let t := readNext (modLink t hp b fun l =>
        { HLink.reset with crs := true, vfEn := l.vfEn, perst := l.perst || cause == 1, inReset := true }) hp
      let t := ((fnsOfLink y hp b).filter (· == 0)).foldl (fun s fn => flrStart s hp fn) t
      exec (.hostPortReset hp b cause) s = .next (s.at (settle (raise (vfClear t hp b)
        { src := 64 + hp, cause, cls := 1, detail := 0, addr := 0, access := 0, master := 0, inst := hp })))) ∧
    (∀ b, exec (.perstDeassert hp b) s = .next (s.at (modLink y hp b fun l => { l with perst := false }))) ∧
    (∀ b rate width flit, y.dev.st ≠ .wiping → (getLink y hp b).perst = false → y.pwr.hpOff.contains hp = false →
      swdState y (96 + hp) = 2 → swdState y (100 + hp) = 2 →
      let t : Sys := { y with pins := { y.pins with refHp := y.pins.refHp.set hp true } }
      let busy := (List.range 64).any fun k => onLinkB t hp k == b && (getFn t hp k).flr.isSome
      exec (.hostLinkTrained hp b rate width flit) s = .next (s.at (modLink t hp b fun l =>
        { l with up := true, crs := busy || !served t, inReset := busy, rate, width := if (getHp t hp).bifd = true then min 8 width else width,
                 flit := flit || decide (64 ≤ rate) }))) ∧
    (∀ b rate width flit, y.dev.st = .wiping ∨ (getLink y hp b).perst = true ∨ y.pwr.hpOff.contains hp = true ∨
        swdState y (96 + hp) ≠ 2 ∨ swdState y (100 + hp) ≠ 2 → exec (.hostLinkTrained hp b rate width flit) s = .next s) ∧
    ((getFn y hp fn).flr.isSome = true → flrStart y hp fn = y) ∧
    ((getFn y hp fn).flr = none →
      let t := if fn = 0 then (y.xl.accs.filter fun a => readsRegion a && a.hp == hp).foldl (fun s a => endAcc s a .retry) y else y
      let t := modFn t hp fn fun g => { g with bme := false, flr := some { start := frame t, deadline := frame t + 400 }, fnAbort := true }
      let t := ((ctxsOf t hp fn).filter (abortable t)).foldl (fun s c => abortCtx s c false) t
      let t := forgetAccs t fun a => a.hp == hp && a.fn == fn && !readsRegion a && (ctxsOf t hp fn).contains a.ctx
      flrStart y hp fn = { t with hps := t.hps.modify hp fun h => { h with
        rdWait := h.rdWait.filter fun r => r.fn != fn,
        reads := h.reads.map fun r => if r.fn == fn then { r with orphan := true } else r } }) ∧
    (∀ b, exec (.vfEnableClear hp b) s = .next (s.at (settle (vfClear y hp b)))) ∧
    (∀ b, (getLink y hp b).vfEn = false → exec (.vfEnableSet hp b) s = .next (s.at (modLink ((vfsOfLink y hp b).foldl (fun s fn =>
      modFn s hp fn fun g =>
        { Fn.reset fn s.upd.vfDb s.upd.msixPf s.upd.msixVf with flr := g.flr, bme := g.bme, fnAbort := g.fnAbort }) y)
      hp b fun l => { l with vfEn := true }))) ∧
    (∀ b, (getLink y hp b).vfEn = true → exec (.vfEnableSet hp b) s = .next s) ∧
    (∀ tag r, readOf y hp tag = some r →
      (∀ d, exec (.hostReadCompletion hp tag true false d) s = .next (s.at (readOver (count y (64 + hp) 0x41 r.len) hp r (.inr d)))) ∧
      (∀ d, exec (.hostReadCompletion hp tag true true d) s = .next (s.at (readOver (readFault y hp r 5) hp r (.inl .hostBus)))) ∧
      (∀ po d, exec (.hostReadCompletion hp tag false po d) s = .next (s.at (readOver y hp r (.inl .hostBus)))) ∧
      (r.at_ + ctoFrames y hp r ≤ frame y →
        exec (.hostCompletionTimeout hp tag) s = .next (s.at (readOver (readFault y hp r 4) hp r (.inl .hostTimeout)))) ∧
      (frame y < r.at_ + ctoFrames y hp r → exec (.hostCompletionTimeout hp tag) s = .next s)) ∧
    (∀ tag, readOf y hp tag = none → (∀ ok po d, exec (.hostReadCompletion hp tag ok po d) s = .next s) ∧
      exec (.hostCompletionTimeout hp tag) s = .next s) ∧
    (∀ v, fnPresent y hp fn = true → v < (getFn y hp fn).msixSize → (getFn y hp fn).unmasked.contains v = false → (getFn y hp fn).flr = none →
      exec (.msixVectorUnmask hp fn v) s = .next (s.at (msixFlush
        (setFn y hp fn { getFn y hp fn with unmasked := (getFn y hp fn).unmasked ++ [v] }) hp fn))) ∧
    (let g := getFn y hp fn;
      (g.bme = false ∨ (linkOf y hp fn).up = false → msixFlush y hp fn = y) ∧
      (g.bme = true → (linkOf y hp fn).up = true → msixFlush y hp fn = (g.msixPend.filter g.unmasked.contains).foldl (fun s v => msix s hp fn v)
        (setFn y hp fn { g with msixPend := g.msixPend.filter fun v => !g.unmasked.contains v })) ∧
      ∀ v, (g.msixSize ≤ v → msix y hp fn v = y) ∧
        (v < g.msixSize → g.unmasked.contains v = true → g.bme = true → (linkOf y hp fn).up = true → msix y hp fn v = emit y (.msix hp fn v)) ∧
        (v < g.msixSize → ¬ (g.unmasked.contains v = true ∧ g.bme = true ∧ (linkOf y hp fn).up = true) →
          (g.msixPend.contains v = true → msix y hp fn v = y) ∧
          (g.msixPend.contains v = false → msix y hp fn v = setFn y hp fn { g with msixPend := g.msixPend ++ [v] }))) ∧
    (∀ v, fnPresent y hp fn = false ∨ (getFn y hp fn).msixSize ≤ v ∨ (getFn y hp fn).unmasked.contains v = true ∨ (getFn y hp fn).flr ≠ none →
      exec (.msixVectorUnmask hp fn v) s = .next s)

/-- Requests at the target. Which row does what is log entry 64's, atomics in the order they arrive log entry 68's and the class of their write half
    log entry 164's, region entries log entries 72 and 129's, OSNs beyond the window log entry 128's, a first packet that cannot complete log entry
    167's, a parked message that finds no room log entry 168's, the gate on reads log entry 146's, trace records log entry 147's, and what goes on
    at once (`settle`) log entry 110's. -/
def Obligations.RequestsAreReceived : Prop :=
  ∀ (s : State) (hp : Nat), let y := s.sys
    let row := fun (i : Instr) (fam : Nat → Bool) (dup ctx : Bool) (body : Sys → Nat → Packet → Sys) =>
      (takeEj y hp fam = none → exec i s = .next s) ∧ (∀ t, takeEj y hp fam = some (t, none) → exec i s = .next (s.at t)) ∧
      ∀ t p, takeEj y hp fam = some (t, some p) →
        let ends := fun (u : Sys) => exec i s = .next (s.at (settle u))
        (lenCheck p = false ∨ senderDev t p = none → ends (trace (count t 86 0x01 1) p 8 (ejCx y hp) 0x01)) ∧
        (∀ dev, lenCheck p = true → senderDev t p = some dev →
          let bad := opAssigned p.op = false ∨
            (isAtomicOp p.op = true ∧ atomicOk p.op (p.w56 % 16) (bits p.w56 4 4) p.offset = false)
          let u := if p.op = 0x0A then t else luoRelease t dev p.luo
          (bad → ends (fatal t p 4)) ∧
          (¬ bad → p.op ≠ 0x0A → p.tinc ≠ t.start.incarn ∨ getSrcDev t dev = none → ends (fatal t p 3)) ∧
          (¬ bad → p.op = 0x0A ∨ (p.tinc = t.start.incarn ∧ (getSrcDev t dev).isSome = true) →
            (dup = true → ∀ r, getSrcDev u dev = some r → osnDone r p.osn = true → let v := count u 86 0x02 1
              ((p.op = 5 ∨ p.op = 6) ∧ resultOf v dev p.osn = none → ends (fatal v p 6)) ∧
              (¬ ((p.op = 5 ∨ p.op = 6) ∧ resultOf v dev p.osn = none) → ends (ack v p ((resultOf v dev p.osn).getD 0)))) ∧
            (dup = true → ∀ r, getSrcDev u dev = some r → osnDone r p.osn = false → 1024 < osnDiff p.osn r.hc → ends (nack u p 1 0 8)) ∧
            ((dup = true → ∃ r, getSrcDev u dev = some r ∧ osnDone r p.osn = false ∧ ¬ 1024 < osnDiff p.osn r.hc) →
              (ctx = true → getCtx u p.dctx = none → ends (fatal u p 4)) ∧
              (ctx = true → ∀ x, getCtx u p.dctx = some x →
                (x.st = .created ∨ x.hp ≠ portOf p → ends (fatal u p 4)) ∧
                (¬ (x.st = .created ∨ x.hp ≠ portOf p) → x.st ≠ .active → x.st ≠ .stalled → ends (fatal u p 2)) ∧
                (x.hp = portOf p → x.st = .active ∨ x.st = .stalled → ends (body u dev p))) ∧
              (ctx = false → ends (body u dev p)))))
    row (.putReceive hp) famPut true true putIn ∧ row (.getReqReceive hp) (· == 3) false true (fun u _ p => getIn u p) ∧
    row (.atomicReceive hp) isAtomicOp true true atomicIn ∧ row (.sendPacketReceive hp) famSend true true sendIn ∧
    row (.rdvGetReceive hp) (· == 0x14) false true rdvIn ∧ row (.retireReceive hp) (· == 9) true false retireIn ∧
    row (.probeReceive hp) (· == 8) true false (fun u dev p => sack u p
      (((getAsm u dev p.osn).map (·.mask)).getD 0 + (if (∃ m, msgOf u dev p.osn = some m ∧
        (m.st = .parked ∨ m.st = .unexp ∨ m.recv.isSome = true ∨ (∃ a, getAsm u m.src m.osn = some a ∧ a.due = true))) then 2 ^ 63 else 0))) ∧
    (∀ f cx p rest, (getHp y hp).ej = (cx, p) :: rest → f p.op = true → let t := modHp y hp fun h => { h with ej := rest }
      (tooOld t p = true → takeEj y hp f = some (trace (count t cx 0x10 1) p 8 cx 0x10, none)) ∧
      (tooOld t p = false → takeEj y hp f = some (trace t p 5 cx 0, some p)) ∧ ejCx y hp = cx) ∧
    (∀ f, (∀ e, (getHp y hp).ej.head? = some e → f e.2.op = false) → takeEj y hp f = none) ∧
    (∀ (u : Sys) (p : Packet), (getFn u (portOf p) 0).bme = false ∨ (getHp u (portOf p)).a.up = false → readRegion u p = nack u p 2 0 64) ∧
    row (.syncReceive hp) (· == 0x0A) false false (fun u dev p =>
      let v := match getSrcDev u dev with
        | some r => if r.sinc = p.operand % 4096 then u else freshSrc u dev (p.operand % 4096) p.osn
        | none => freshSrc u dev (p.operand % 4096) p.osn
      ack v p ((((getSrcDev v dev).map (·.hc)).getD 0 + 1) % 2 ^ 32)) ∧
    (∀ (u : Sys) (dev : Nat) (p : Packet), p.op = 1 → let v := asmTouch u dev p
      (checkTid v p = true → regionMiss v p = true → putIn u dev p = readRegion v p) ∧
      (checkTid v p = false ∨ regionMiss v p = false →
        (checkKey v p 1 p.plen = none → putIn u dev p = fatal v p 4) ∧
        (∀ r, checkKey v p 1 p.plen = some r → putIn u dev p = startAcc v p.dctx .iwrite
          ((r.base + p.offset) % 2 ^ 64) p.payload.length p.payload p.sfeid (.checkIn p) none))) ∧
    (∀ (u : Sys) (dev : Nat) (p : Packet) (bus : List (Nat × Nat)),
      (asmHas u dev p = true → putAdmit u dev p bus = u) ∧
      (asmHas u dev p = false → asmFull u dev p.osn = true → putAdmit u dev p bus = retryLater u p 4) ∧
      (asmHas u dev p = false → asmFull u dev p.osn = false → p.payload = [] → putAdmit u dev p bus = asmMark (asmTake u dev p) dev p) ∧
      (asmHas u dev p = false → asmFull u dev p.osn = false → p.payload ≠ [] → ∃ (v : Sys) (a : Acc), putAdmit u dev p bus = perform v a ∧
        v.te = (asmTake u dev p).te ∧ a.bus = bus ∧ a.data = p.payload ∧ a.ctx = p.dctx ∧ a.cont = .place p))

/-- Completion, responses and timers. A row that comes before its time changes nothing (log entry 9). A pull refused for good is log entry 25's,
    which row completes what log entry 64's, what the timers' numbers name log entry 65's, the steering set log entry 70's, trace records log entry
    147's, and what goes on at once (`settle`) log entry 110's. -/
def Obligations.SegmentsCompleteAndAreRepeated : Prop :=
  ∀ (s : State) (hp : Nat), let y := s.sys
    let row := fun (i : Instr) (fam : Nat → Bool) (body : Sys → Nat → Packet → Sys) =>
      (takeEj y hp fam = none → exec i s = .next s) ∧ (∀ t, takeEj y hp fam = some (t, none) → exec i s = .next (s.at t)) ∧
      ∀ t p, takeEj y hp fam = some (t, some p) → let here := otherPort t hp p = false
        (∀ dev, lenCheck p = true → senderDev t p = some dev → 0x81 ≤ p.op → p.op ≤ 0x84 → here →
          exec i s = .next (s.at (settle (body t dev p)))) ∧
        (lenCheck p = false ∨ senderDev t p = none ∨ p.op < 0x81 ∨ 0x84 < p.op ∨ ¬ here → exec i s =
          .next (s.at (trace (count t 86 0x01 1) p 8 (ejCx y hp) 0x01)))
    row (.transportAckReceive hp) famAck ackIn ∧ row (.transportNackReceive hp) (· == 0x82) nackIn ∧
    row (.sackReceive hp) (· == 0x83) sackIn ∧ row (.getRespReceive hp) (· == 0x84) respIn ∧
    (∀ (t : Sys) (dev : Nat) (p : Packet),
      (∀ h q, (getPeer t dev).sync = some (h, q) → p.osn = q.osn → (getPeer t dev).valid = false → ackIn t dev p = modPeer t dev fun x =>
        { x with valid := true, tinc := p.tinc, nextOsn := p.operand % 2 ^ 32, lastSend := 0, sync := none, syncAt := none, syncRetry := 0 }) ∧
      ((getPeer t dev).sync = none → sameInc t dev p = true → ∀ g, osnSeg t dev p.osn = some g → p.tid = tidOf t g.ctx →
        ackIn t dev p = takeValue t g p.operand) ∧
      (sameInc t dev p = true → bits p.operand 48 8 ≠ 3 → bits p.operand 48 8 ≠ 0x14 → bits p.operand 48 8 ≠ 9 →
        ∀ g, osnSeg t dev p.osn = some g → p.tid = tidOf t g.ctx → let status := bits p.operand 8 8
        (p.operand % 256 = 1 ∨ p.operand % 256 = 2 → nackIn t dev p =
          let r := nackSeg t g p.pidx (bits p.operand 16 16)
          if r.2 = true then segFail r.1 g 10 else r.1) ∧
        (p.operand % 256 = 3 → status ≠ 3 → nackIn t dev p = segFail t g (if status = 0 ∨ 10 < status then 4 else status))) ∧
      (p.operand % 256 = 3 → bits p.operand 8 8 = 3 →
        ((getPeer t dev).valid = true → bits p.operand 32 12 = (getPeer t dev).tinc → nackIn t dev p = peerReset (pullsReset t dev) dev) ∧
        ((getPeer t dev).valid = false ∨ bits p.operand 32 12 ≠ (getPeer t dev).tinc → nackIn t dev p = t)) ∧
      ((getPeer t dev).sync = none → sameInc t dev p = true → ∀ g, osnSeg t dev p.osn = some g → p.tid ≠ tidOf t g.ctx →
        ackIn t dev p = segFail t g 4 ∧ sackIn t dev p = segFail t g 4 ∧
        (bits p.operand 48 8 ≠ 3 → bits p.operand 48 8 ≠ 0x14 → bits p.operand 48 8 ≠ 9 → ¬ (p.operand % 256 = 3 ∧ bits p.operand 8 8 = 3) →
          nackIn t dev p = segFail t g 4)) ∧
      (sameInc t dev p = true → ∀ g, tagSeg t dev p.osn = some g → p.tid ≠ tidOf t g.ctx → respIn t dev p = segFail t g 4) ∧
      (sameInc t dev p = false → sackIn t dev p = t ∧ respIn t dev p = t) ∧
      (sameInc t dev p = true → ∀ g, tagSeg t dev p.osn = some g → p.tid = tidOf t g.ctx → p.pidx ≤ g.pcnt → g.mask.testBit p.pidx = false →
        let u := refreshSeg (modSeg t g.idx fun x => { x with mask := x.mask ||| 2 ^ p.pidx }) g.idx
        let data := match g.kind with
          | .pull id => p.payload.take ((((getMsg u id).map fun m => m.buf.2.2).getD 0) - p.offset)
          | _ => p.payload
        (data = [] → respIn t dev p = landCheck u g.idx) ∧
        (data ≠ [] → ∀ c addr steer, landing u g p = some (c, addr, steer) → respIn t dev p =
          startAcc (modSeg u g.idx fun x => { x with writes := x.writes + 1 }) c .lwrite addr data.length data p.sfeid (.land p) steer))) ∧
    (∀ src osn a, getAsm y src osn = some a →
      (a.full = true → isFinalImm a.head = false → isSend a.head.op = false →
        exec (.segmentCompleteAck src osn) s = .next (s.at (settle (segDone
          (if a.head.op = 5 ∨ a.head.op = 6 then
            { y with te := { y.te with results := y.te.results ++ [{ src, osn, value := a.value, start := frame y }] } } else y) a a.value)))) ∧
      (a.full = true → isFinalImm a.head = true → a.due = false → earlierDone y a = true → steerSet y a.head.dctx = none →
        let n := max 1 ((a.head.msglen + 262143) / 262144)
        let seg0 := (a.head.offset + 2 ^ 64 - 4096 * a.head.pidx) % 2 ^ 64
        exec (.finalSegmentNotify src osn) s = .next (s.at (settle (eventDue (modAsm y src osn fun x => { x with due := true }) a.head.dctx
          { Ev.zero a.head.dctx with type := 0x81, len := a.head.msglen, w16 := (seg0 + 2 ^ 64 - 262144 * (n - 1)) % 2 ^ 64, imm := a.imm,
                                     w28 := evW28 true (some a.head.sfeid) none } (some (src, osn)))))) ∧
      (a.full = false → exec (.segmentCompleteAck src osn) s = .next (s.at (settle y)) ∧
        exec (.finalSegmentNotify src osn) s = .next (s.at (settle y))) ∧
      (a.due = false → (∃ j, j ≤ a.head.pcnt ∧ a.mask.testBit j = false ∧ a.placed.testBit j = false) → a.last + 200 ≤ frame y →
        exec (.assemblyTimeout src osn) s = .next (s.at (dropAsm y src osn))) ∧
      (a.due = true ∨ (∀ j, j ≤ a.head.pcnt → a.mask.testBit j = true ∨ a.placed.testBit j = true) ∨ frame y < a.last + 200 →
        exec (.assemblyTimeout src osn) s = .next s)) ∧
    (∀ src osn, exec (.resultEntryExpiry src osn) s = .next (s.at { y with te := { y.te with
      results := y.te.results.filter fun r => !(r.src == src && r.osn == osn && decide (r.start + 16384 ≤ frame y)) } })) ∧
    (∀ k g, k < 131072 → getSeg y k = some g →
      (g.timed = true → g.start + waitOf g.tv g.retry ≤ frame y →
        exec (.segmentTimeout k) s = .next (s.at (settle (if g.tv.2 ≤ g.retry then segFail y g 6 else retrySeg y g)))) ∧
      (g.timed = false ∨ frame y < g.start + waitOf g.tv g.retry → exec (.segmentTimeout k) s = .next (s.at (settle y))) ∧
      (∀ i n d, (i, n, some d) ∈ g.nacks → d ≤ frame y → g.kind = .osn → exec (.nackRetryWaitExpiry k i) s =
        .next (s.at (settle (buildMore (modSeg y k fun x =>
          { x with nacks := x.nacks.map fun e => if e.1 = i then (e.1, e.2.1, none) else e }) k)))))

/-- The creation of a communicator. A timer's row before its time changes nothing (log entry 9). Results that come down early are log entry 26's,
    TINC toward an unknown incarnation log entry 31's, who may send which packet log entry 32's, a communicator that fails while JOINING log entry
    135's, a local context that is no member of the tree log entry 149's, trace records log entry 147's, and what goes on at once (`settle`) log
    entry 110's. -/
def Obligations.CollectivesAreCreated : Prop :=
  ∀ s : State, let y := s.sys
    let drop := fun (u : Sys) (cx : Nat) (p : Packet) => trace (count u 84 0x01 1) p 8 cx 0x01
    let row := fun (i : Instr) (op : Nat) (body : Sys → Nat → Comm → Packet → Sys) =>
      (colTake y (· == op) = none → exec i s = .next (s.at (settle y))) ∧
      ∀ cx p t, colTake y (· == op) = some (cx, p, t) → let u := trace t p 5 cx 0
        (tooOld t p = true → exec i s = .next (s.at (settle (trace (count t cx 0x10 1) p 8 cx 0x10)))) ∧
        (tooOld t p = false → colAdmit u p = none → exec i s = .next (s.at (settle (drop u cx p)))) ∧
        (tooOld t p = false → ∀ c, colAdmit u p = some c → exec i s = .next (s.at (settle (body (colHeard u c p) cx c p))))
    row .colJoinReceive 8 (fun u cx c p =>
      let same := sub p.payload 0 8 == c.digest && num p.payload 8 4 == c.n && num p.payload 12 1 == c.slotLog && num p.payload 13 1 == c.depth
      let v := modComm u p.dctx fun c => { c with joins := (c.joins.filter fun j => j.1 != p.sfeid) ++ [(p.sfeid, bits p.operand 16 12)] }
      if c.leader = false ∨ p.payload.length ≠ 16 then drop u cx p
      else if c.st ≠ .joining then u
      else if same = false then failCreate v p.dctx 0x0103 true
      else if c.setupSent = true then u
      else treeWanted v p.dctx) ∧
    row .colSetupReceive 9 setupIn ∧
    row .colReadyReceive 10 (fun u cx c p =>
      if c.leader = false ∨ (c.joins.any fun j => j.1 == p.sfeid) = false then drop u cx p
      else readyAt u p.dctx p.sfeid (p.operand % 256 == 0)) ∧
    row .colGoReceive 11 (fun u _ _ p => goIn u p) ∧
    (∀ (u : Sys) (p : Packet) (c : Comm), getComm u p.dctx = some c →
      let t := goHere u p.dctx (p.rmode != 2)
      (c.st ≠ .joining ∨ c.setup = false → goIn u p = u) ∧
      (c.st = .joining → ∀ d, getComm t p.dctx = some d → d.st = .ready → goIn u p = c.early.foldl
        (fun s q => match getComm s q.dctx with | some e => downIn s 64 e q | none => s) (modComm t p.dctx fun e => { e with early := [] }))) ∧
    row .colFailReceive 12 (fun u _ c p =>
      if c.st = .joining ∧ bits p.operand 16 16 ≠ 0 then failCreate u p.dctx (bits p.operand 16 16) false
      else failComm u p.dctx (p.operand % 256) (bits p.operand 32 20) (some p.sfeid)) ∧
    (∀ (u : Sys) (cx : Nat) (c : Comm) (p : Packet), let b := p.payload
      (b.length ≠ 16 + 4 * num b 6 2 → setupIn u cx c p = drop u cx p) ∧
      (b.length = 16 + 4 * num b 6 2 → c.st ≠ .joining ∨ c.setup = true ∨ c.refused = true → setupIn u cx c p = u) ∧
      (b.length = 16 + 4 * num b 6 2 → c.st = .joining → c.setup = false → c.refused = false →
        (num b 0 4).testBit 31 = false → num b 0 4 % 2 ^ 20 = p.sfeid →
        setupIn u cx c p = setupHere (modComm u p.dctx fun c => { c with joins := [(p.sfeid, num b 8 2 % 4096)] }) p.dctx b)) ∧
    (∀ (u : Sys) (k : Nat) (b : Bytes) (c : Comm), getComm u k = some c → c.st = .joining → c.setup = false → c.refused = false →
      c.leader = false →
      let nin := c.nlocal + num b 6 2
      (65536 < colBlocks u + nin * c.depth * 2 ^ (c.slotLog - 8) ∨ 1024 < nin → setupHere u k b =
        (let t := modComm u k fun c => { c with refused := true }
         colSend t (colPkt t k c (c.list.headD 0) ((c.joins.head?.map (·.2)).getD 0) 0x0A 1 [])))) ∧
    (∀ k c, getComm y k = some c →
      (∀ a, c.joinAt = some a →
        (c.st = .joining → c.leader = false → c.setup = false → c.refused = false → a + 64 ≤ frame y →
          exec (.colJoinResend k) s = .next (s.at (sendJoin y k))) ∧
        (c.st ≠ .joining ∨ c.leader = true ∨ c.setup = true ∨ c.refused = true ∨ frame y < a + 64 → exec (.colJoinResend k) s = .next s)) ∧
      (c.st = .joining → c.started ≤ epoch y → exec (.joinTimerExpiry k) s = .next (s.at (settle (failCreate y k 0x0401 true)))) ∧
      (c.st ≠ .joining ∨ epoch y < c.started → exec (.joinTimerExpiry k) s = .next s)) ∧
    (∀ k, getComm y k = none → exec (.colJoinResend k) s = .next s ∧ exec (.joinTimerExpiry k) s = .next s)

/-- The data of a communicator. A row that comes before its time changes nothing (log entry 9). Results that come down early are log entry 26's, who
    may send which packet log entry 32's, COUNT 0 log entry 73's, where the result of a REDUCE goes log entry 74's, data for a communicator that is
    not READY log entry 76's, trace records log entry 147's, and what goes on at once (`settle`) log entry 110's. -/
def Obligations.CollectiveDataMoves : Prop :=
  ∀ s : State, let y := s.sys
    let drop := fun (u : Sys) (cx : Nat) (p : Packet) => trace (count u 84 0x01 1) p 8 cx 0x01
    let row := fun (i : Instr) (ok : Nat → Bool) (fin : Sys → Sys) (body : Sys → Nat → Comm → Packet → Sys) =>
      (colTake y ok = none → exec i s = .next (s.at (fin y))) ∧
      ∀ cx p t, colTake y ok = some (cx, p, t) → let u := trace t p 5 cx 0
        (tooOld t p = true → exec i s = .next (s.at (fin (trace (count t cx 0x10 1) p 8 cx 0x10)))) ∧
        (tooOld t p = false → colAdmit u p = none → exec i s = .next (s.at (fin (drop u cx p)))) ∧
        (tooOld t p = false → ∀ c, colAdmit u p = some c → exec i s = .next (s.at (fin (body (colHeard u c p) cx c p))))
    let down := fun (u : Sys) (_ : Nat) (c : Comm) (p : Packet) =>
      if c.st = .joining ∧ c.setup = true then modComm u p.dctx fun c => { c with early := c.early ++ [p] }
      else if c.st ≠ .ready then u
      else if (p.op == 2 && hdrCop (p.w56 / 65536) == 2 && !p.w56.testBit 29) = true then downHere u p.dctx p
      else downHere (sendDown u p.dctx p (p.rmode != 2)) p.dctx p
    row .colUpReceive (fun op => !([2, 3, 4, 5, 8, 9, 10, 11, 12].contains op)) id (fun u cx c p =>
      if p.op ≠ 1 then drop u cx p
      else if c.st ≠ .ready then u
      else putChunk u p.dctx (p.sctx % 1024)
        { cseq := p.w56 % 65536, expo := p.w56.testBit 29, off := p.offset, data := p.payload, hdr := bits p.w56 16 14,
          msglen := p.msglen % 2 ^ 32, root := bits p.operand 32 32, arr := 0 }) ∧
    row .colDownReceive (· == 2) settle down ∧ row .colDoneReceive (· == 3) settle down ∧
    row .colCredReceive (· == 4) id (fun u _ c p =>
      if c.parent.map (·.feid) = some p.sfeid then modComm u p.dctx fun c => { c with credits := c.credits + p.operand % 65536 } else u) ∧
    row .colBeatReceive (· == 5) settle (fun u _ c p =>
      match (neighbours c).find? fun q => q.feid == p.sfeid with
      | none => u
      | some q =>
        if c.st ≠ .ready then u
        else if q.recv ≠ q.prevSent ∧ (q.prevSent + 2 ^ 32 - q.recv) % 2 ^ 32 < 2 ^ 31 then failComm u p.dctx 6 q.feid none
        else modComm u p.dctx fun c => modPeerCol c q.feid fun x => { x with prevSent := p.operand % 2 ^ 32 }) ∧
    (∀ k c, exec (.contributionRead k c) s = .next (s.at (settle (contribute y k c)))) ∧
    (∀ k, (∃ i, i < 8 ∧ swdState y (137 + i) = 2) → exec (.chunkCombine k) s = .next (s.at (settle (combine y k)))) ∧
    (∀ k, (∀ i, i < 8 → swdState y (137 + i) ≠ 2) → exec (.chunkCombine k) s = .next s) ∧
    (∀ k f c m, getComm y k = some c → (c.members.find? fun m => m.ctx == f) = some m →
      let i := c.members.idxOf m
      (c.st ≠ .ready ∨ c.depth ≤ (c.inputs.getD i []).length + m.reading.length → contribute y k f = y) ∧
      (c.st = .ready → (c.inputs.getD i []).length + m.reading.length < c.depth →
        (nextOp c m = none → contribute y k f = y) ∧
        (∀ o expo off first n, nextOp c m = some (o, .read expo off first n) →
          let es := elemSize o.etype
          let t := modColOp y k f o.cseq fun o => if expo = true then { o with readX := o.readX + (n + 15) / 16 * 8 }
            else { o with read := o.read + n * wireUp o.cop o.etype (opGrid o) }
          contribute y k f = startAcc (modColMember t k f fun x =>
            { x with reading := x.reading ++ [{ cseq := o.cseq, expo, off, chunk := none }] })
            f .lread ((o.saddr + first * es) % 2 ^ 64) (n * es) [] 0 (.colRead k f o.cseq off expo) none))) ∧
    (∀ k c, getComm y k = some c → c.st = .ready →
      let have_ := (c.inputs.mapIdx fun i l => (i, l.head?)).filterMap fun e => e.2.map fun ch => (e.1, ch)
      let clash := ∃ a ∈ have_, (∃ b ∈ have_, disagree a.2 b.2 = true) ∨ ∃ b ∈ c.passed, disagree a.2 b = true
      let send := fun (t : Sys) (ch : Chunk) => match c.parent with
        | none => rootSend t k ch
        | some q => let t := modComm t k fun c => { c with credits := c.credits - 1 }
          toPeer t k q.feid { chunkPkt t k c q.feid q.inc 0x01 ch (ch.data.length + 2 ^ 32 * ch.root) with sctx := c.pinput }
      (clash → combine y k = failComm y k 4 (ownAnchor y c) none) ∧
      (¬ clash → c.parent.isSome = true → c.credits = 0 → combine y k = y) ∧
      (¬ clash → c.parent = none ∨ c.credits ≠ 0 →
        (∀ i ch, (have_.find? fun e => !chunkJoins e.2) = some (i, ch) →
          combine y k = send (modComm y k fun c => remember (freeSlot c i) ch) ch) ∧
        (∀ e rest, (∀ e ∈ have_, chunkJoins e.2 = true) → have_ = e :: rest →
          let whole := have_.length = c.inputs.length ∧ ∀ x ∈ have_, x.2.cseq = e.2.cseq ∧ x.2.expo = e.2.expo ∧ x.2.off = e.2.off
          (¬ whole → combine y k = y) ∧
          (whole → combine y k = send (have_.foldl (fun s x => modComm s k fun c => freeSlot c x.1) (count y 84 0x02 have_.length))
            { e.2 with data := foldChunks (have_.map (·.2)) })))) ∧
    (∀ (c : Comm) (i : Nat), (freeSlot c i).inputs = c.inputs.modify i (fun l => l.drop 1) ∧
      (i < c.nlocal → (freeSlot c i).children = c.children) ∧
      (c.nlocal ≤ i → (freeSlot c i).children = c.children.modify (i - c.nlocal) fun q => { q with owed := q.owed + 1 })) ∧
    (∀ k c, getComm y k = some c → c.st = .ready →
      exec (.colCredSend k) s = .next (s.at ((c.children.filter fun q => q.owed != 0).foldl (fun u q =>
        let v := modComm u k fun c => { c with children := c.children.map fun x => if x.feid == q.feid then { x with owed := 0 } else x }
        toPeer v k q.feid (colPkt v k c q.feid q.inc 0x04 (q.owed % 65536) [])) y)) ∧
      (c.beatAt ≤ frame y → exec (.colBeatSend k) s = .next (s.at ((neighbours c).foldl
        (fun u q => colSend u (colPkt u k c q.feid q.inc 0x05 q.sent []))
        (modComm y k fun c => { c with beatAt := frame y + y.ce.beatFrames })))) ∧
      (frame y < c.beatAt → exec (.colBeatSend k) s = .next s) ∧
      (∀ q, q ∈ neighbours c → q.last ≤ frame y → exec (.neighbourLost k q.feid) s = .next (s.at (settle (failComm y k 6 q.feid none))))) ∧
    (∀ k c, getComm y k = some c → c.st ≠ .ready → ∀ feid, exec (.colCredSend k) s = .next s ∧ exec (.colBeatSend k) s = .next s ∧
      exec (.neighbourLost k feid) s = .next s)

/-- Power and cages. A row whose condition does not hold changes nothing (log entry 9). A gate that goes off without a trip is log entry 39's, what
    a module answers log entry 82's, the trip and the dark log entries 51 and 86's, the unit of temperatures log entry 87's, SRC of a log record log
    entry 92's, small points of the cages log entry 140's, and how a cage takes its ports down log entry 162's. -/
def Obligations.PowerFollowsItsCommandsAndEvents : Prop :=
  ∀ (s : State) (k : Nat), let y := s.sys
    let g := getCage y k
    (g.gate = true → exec (.cageFastTrip k) s = .next (s.at (modCage y k fun g => { g with gate := false, fast := true })) ∧
      exec (.cageBackstop k) s = .next (s.at (modCage y k fun g => { g with gate := false, back := true }))) ∧
    (g.gate = false → exec (.cageFastTrip k) s = .next s ∧ exec (.cageBackstop k) s = .next s) ∧
    (∀ (pas : Bool) (w : Nat) (miss : List Nat) (len : Nat),
      (g.st = .powered → g.step = 1 → g.stepAt + 3125 ≤ frame y → y.start.fruRead = true →
        let t := modCage (moduleLogs y k miss len) k fun g => { g with resetN := true, mstate := 1, passive := pas }
        (g.cfg.inom * g.cfg.uv < w * 250000 → exec (.moduleBringup k pas w miss len) s = .next (s.at
          (logW (modCage t k fun g => { g with step := 3, lowPwr := true }) 0x0006 2 0xFFFF (k + 65536 * w)))) ∧
        (w * 250000 ≤ g.cfg.inom * g.cfg.uv → pas = true → exec (.moduleBringup k pas w miss len) s = .next (s.at
          (modCage t k fun g => { g with step := 0, ready := true, lowPwr := false }))) ∧
        (w * 250000 ≤ g.cfg.inom * g.cfg.uv → pas = false → exec (.moduleBringup k pas w miss len) s = .next (s.at
          (modCage t k fun g => { g with step := 5, stepAt := frame y, lpmode := false, lowPwr := false, mstate := 2 })))) ∧
      (g.st ≠ .powered ∨ g.step ≠ 1 ∨ frame y < g.stepAt + 3125 ∨ y.start.fruRead = false → exec (.moduleBringup k pas w miss len) s = .next s)) ∧
    (∀ tx, (g.st = .powered → g.step = 5 ∨ g.step = 6 → ∃ t, exec (.moduleReady k tx) s = .next (s.at t) ∧
        t.pwr = (modCage y k fun g => { g with step := 0, ready := true, mstate := 3 }).pwr ∧ t = { y with pwr := t.pwr, nps := t.nps } ∧
        ∀ p, p ∉ cagePorts y k → getNp t p = getNp y p) ∧
      (g.st ≠ .powered ∨ (g.step ≠ 5 ∧ g.step ≠ 6) → exec (.moduleReady k tx) s = .next s)) ∧
    (g.st = .powered → g.step = 1 → g.stepAt + 3128125 ≤ frame y →
      exec (.moduleTimeout k) s = .next (s.at (logW (modCage y k fun g => { g with step := 2, resetN := true }) 0x0005 2 0xFFFF (k + 512)))) ∧
    (g.st = .powered → g.step = 5 → g.stepAt + 15625000 ≤ frame y →
      exec (.moduleTimeout k) s = .next (s.at (logW (modCage y k fun g => { g with step := 6 }) 0x0005 2 0xFFFF (k + 1280)))) ∧
    (∀ dp, g.st = .powered →
      let t := holdPorts ((cagePorts y k).foldl (fun s p => modNp s p fun n => { n with modFault := dp.contains p }) y)
      exec (.moduleInterrupt k none dp) s = .next (s.at t) ∧
      ∀ a, exec (.moduleInterrupt k (some a) dp) s = .next (s.at (fault t (96 + k) 0x10 1 a 13 k))) ∧
    (∀ a dp, g.st ≠ .powered → exec (.moduleInterrupt k a dp) s = .next s) ∧
    (y.start.fru.isSome = true → holdPorts y = (List.range 64).foldl (fun t p => let n := getNp t p
      if n.st = .disabled ∨ n.st = .down ∨ cageHolds t p = false then t
      else if n.st = .up then portDown t p 1 else modNp t p fun n => { n.idle with st := .down, holdFrom := frame t }) y) ∧
    (cagePorts y k ≠ [] → cageIdle y k = true → 2 ≤ g.disEpochs → g.lowPwr = false → g.st = .powered →
      exec (.moduleLowPower k) s = .next (s.at (modCage y k fun g =>
        { g with lowPwr := true, lpmode := true, ready := false, mstate := if g.mstate = 255 then 255 else 1,
                 step := if g.step = 5 ∨ g.step = 6 then 0 else g.step }))) ∧
    (∀ rest, y.pwr.waitUp = k :: rest → y.pwr.started < 4 → dark y = false → exec (.domainPowerUp k) s =
      .next (s.at { y with pwr := { y.pwr with waitUp := rest, started := y.pwr.started + 1, swd := y.pwr.swd.set k 3 } })) ∧
    (4 ≤ y.pwr.started ∨ dark y = true ∨ y.pwr.waitUp.head? ≠ some k → exec (.domainPowerUp k) s = .next s) ∧
    (swdState y k = 3 → dark y = false → exec (.domainPowerComplete k) s = .next (s.at (domainsOver ((List.range 64).foldl
      (fun s p => if (getNp s p).waitPwr && portPowered s p then portToDown s p else s) (setSwd y k 2))))) ∧
    (swdState y k ≠ 3 ∨ dark y = true → exec (.domainPowerComplete k) s = .next s) ∧
    (k < 32 → swdLost y k = [2 * k, 2 * k + 1].foldl (fun s p => modNp s p fun n => onLanes n 3 fun l =>
      { l with sd := false, lock := false, snr := 0, eyeH := 0, eyeW := 0, freq := 0, trained := false, lockEpoch := none }) y) ∧
    (32 ≤ k → k < 96 → swdLost y k = modNp y (k - 32) fun n => { n.idle with corrUnits := 0, uncorrUnits := 0, corrSyms := 0 }) ∧
    (100 ≤ k → k < 104 → swdLost y k = modHp y (k - 100) fun h =>
      { h with ctlb := [], dtlb := [], rdy := [], reqQ := [], respQ := [], ej := [], respWait := [], reqWait := [] }) ∧
    (96 ≤ k → k < 100 ∨ 104 ≤ k → swdLost y k = y) ∧
    (swdState y k = 2 →
      (y.pwr.retain.contains k = true → exec (.domainPowerDownComplete k) s = .next (s.at (domainsOver (setSwd y k 1)))) ∧
      (y.pwr.retain.contains k = false → swdWant y k = false →
        exec (.domainPowerDownComplete k) s = .next (s.at (domainsOver (swdLost (setSwd y k 0) k)))) ∧
      (y.pwr.retain.contains k = false → swdWant y k = true → exec (.domainPowerDownComplete k) s = .next s)) ∧
    (swdState y k ≠ 2 → exec (.domainPowerDownComplete k) s = .next s) ∧
    (∀ v, (920 ≤ v → y.pwr.tripped = false → exec (.thermalTrip k v) s = .next (s.at
        (fault (logW (darken y) 0x0009 3 115 (k + 65536 * s16 v)) 115 3 3 k 11 k))) ∧
      (v < 920 ∨ y.pwr.tripped = true → exec (.thermalTrip k v) s = .next s)) ∧
    exec (.droopStretch k) s = .next (s.at (modReg y k fun x => { x with stretch := x.stretch + 1 }))

/-- Faults, the log and the side interfaces. The numbers of JTAG instructions are log entry 45's, the bytes of MCTP control responses log entry 46's
    (the version bytes are free values, log entry 3), the numbers of the buses and which endpoint is on which log entry 134's, what is driven goes
    to `out` (log entry 111). -/
def Obligations.FaultsLogAndPinsGoOn : Prop :=
  ∀ (s : State) (k : Nat), let y := s.sys
    exec (.faultHandlingEnd k) s = .next (s.at (modSrc y k fun x => { x with handling := x.handling && x.cls == 3 })) ∧
    exec (.faultFloorDecay k) s = .next (s.at (modSrc y k fun x =>
      if 1 < x.floor ∧ x.w ≤ epoch y - x.last then { x with floor := x.floor - 1, last := epoch y } else x)) ∧
    (early y = true → exec .logCommit s = .next s) ∧
    (early y = false → ∃ l, exec .logCommit s = .next (s.at { y with log := { y.log with recs := l } }) ∧
      (∀ r, r ∈ l → ∃ o, o ∈ y.log.recs ∧ r = { o with inFlash := r.inFlash }) ∧
      ((y.log.recs.filter fun r => r.inFlash || r.inRam).length ≤ 131072 →
        l = (y.log.recs.filter fun r => r.inFlash || r.inRam).map fun r => { r with inFlash := true })) ∧
    (∀ (bus src eid : Nat) (msg : Bytes),
      let pcie := y.svc.onPcie.filter fun e => e != src
      let i3c := y.svc.onI3c.filter fun e => e != src
      let t : Sys := { y with svc := { y.svc with
        onPcie := if bus = 2 then pcie ++ [src] else pcie, onI3c := if bus = 0 then i3c ++ [src] else i3c } }
      let replies := fun (u : Sys) (code : Nat) (data : Bytes) => exec (.mctpControlMessage bus src eid msg) s =
        .next (s.at (emit (if bus = 0 then emit u (.ibi src) else u) (.mctp src ([0x00] ++ le 1 (num msg 1 1 % 128) ++ le 1 (num msg 2 1) ++ le 1 code ++ data))))
      ((bus = 2 ∧ (getHp y 0).a.up = false) ∨ (eid ≠ 0 ∧ tget y.svc.eids bus ≠ some eid) ∨ (num msg 1 1).testBit 7 = false ∨
          msg.length < 3 ∨ num msg 0 1 = 0x7F → exec (.mctpControlMessage bus src eid msg) s = .next s) ∧
      (bus ≠ 2 ∨ (getHp y 0).a.up = true → eid = 0 ∨ tget y.svc.eids bus = some eid → (num msg 1 1).testBit 7 = true → 3 ≤ msg.length →
        (num msg 0 1 ≠ 0 → num msg 0 1 ≠ 0x7F → replies t 5 []) ∧
        (num msg 0 1 = 0 →
          let good := msg.length = 5 ∧ num msg 3 1 % 4 < 2 ∧ 8 ≤ num msg 4 1 ∧ num msg 4 1 < 255
          (num msg 2 1 = 1 → good → replies { t with svc := { t.svc with eids := tset t.svc.eids bus (num msg 4 1) } } 0
            [0x00, BitVec.ofNat 8 (num msg 4 1), 0x00]) ∧
          (num msg 2 1 = 1 → ¬ good → replies t 2 []) ∧
          (num msg 2 1 = 2 → replies t 0 (le 1 ((tget y.svc.eids bus).getD 0) ++ [0x00, 0x00])) ∧
          (num msg 2 1 = 4 → num msg 3 1 = 0xFF ∨ num msg 3 1 = 0 → ∃ v, replies (draw t) 0 ([0x01] ++ le 4 v)) ∧
          (num msg 2 1 = 5 → replies t 0 [0x01, 0x7F]) ∧
          (num msg 2 1 = 0 ∨ num msg 2 1 = 3 ∨ 6 < num msg 2 1 → replies t 5 [])))) ∧
    (jtagOk (lifecycle s.fuse y) k = true → exec (.jtagInstruction k) s = .next (s.at { y with sec := { y.sec with jtag := k } })) ∧
    (jtagOk (lifecycle s.fuse y) k = false → exec (.jtagInstruction k) s = .next (s.at { y with sec := { y.sec with jtag := 1 } }))

/-- How accepted commands end. A row whose condition does not hold changes nothing (log entry 9). A fuse read-back that fails is log entry 47's and
    a reset that meets an operation log entry 160's, the end of an abort log entry 61's, quiescing log entries 79 and 124's, attestation log entries
    100 and 157's, BIST log entry 102's, a TIMEOUT of UPDATE_ACTIVATE log entry 103's, the signature a free function (log entry 107), a settings
    copy whose write fails log entry 145's, and what goes on at once (`settle`) log entry 110's. -/
def Obligations.AcceptedCommandsEnd : Prop :=
  ∀ (s : State) (c : Nat), let y := s.sys
    (∀ x, getCtx y c = some x → x.st = .aborting →
      (x.waitEv = [] → ctxReads y c = 0 → y.xl.accs.any (fun a => a.ctx == c) = false →
        exec (.abortComplete c) s = .next (s.at (settle (abortEnd y c 0)))) ∧
      (x.waitEv ≠ [] ∨ ctxReads y c ≠ 0 ∨ y.xl.accs.any (fun a => a.ctx == c) = true → exec (.abortComplete c) s = .next (s.at (settle y))) ∧
      (∀ d, abortDeadline y c = some d → d ≤ frame y →
        let t := forgetAccs y fun a => a.ctx == c
        let t := { t with hps := t.hps.map fun h => { h with
          rdWait := h.rdWait.filter fun r => r.ctx != c,
          reads := h.reads.map fun r => if r.ctx == c then { r with orphan := true } else r } }
        let t := modCtx t c fun x => { x with abortDrop := x.abortDrop + x.waitEv.length, waitEv := [] }
        exec (.abortBoundReached c) s =
          .next (s.at (settle (abortEnd (refuseDue t fun a => a.due && a.head.dctx == c) c (ctxLive y c))))) ∧
      (∀ d, abortDeadline y c = some d → frame y < d → exec (.abortBoundReached c) s = .next (s.at (settle y)))) ∧
    (y.dev.quiescing = true → quiet y = true → let t : Sys := { y with dev := { y.dev with quiescing := false } }
      (y.dev.st = .ready ∨ y.dev.st = .degraded →
        exec .quiesceComplete s = .next (s.at (endWait (setDev t .quiesced) (fun w => w == .quiesce) .ok []))) ∧
      (y.dev.st ≠ .ready → y.dev.st ≠ .degraded →
        exec .quiesceComplete s = .next (s.at (endWait t (fun w => w == .quiesce) .ok [])))) ∧
    (y.dev.quiescing = false ∨ quiet y = false → exec .quiesceComplete s = .next s) ∧
    (∀ who tag p, (y.svc.pend.find? fun p => p.who == who && p.tag == tag && p.res.isNone) = some p →
      (∀ b, boundOf p.wait = some b →
        (p.ft / 1024 + b ≤ frame y → exec (.commandTimeout who tag) s = .next (s.at (settle (releaseReset (undo y p .timeout))))) ∧
        (frame y < p.ft / 1024 + b → exec (.commandTimeout who tag) s = .next s)) ∧
      (boundOf p.wait = none → exec (.commandTimeout who tag) s = .next s)) ∧
    (∀ p op, flashHead y = some (p, op) → exec (.flashOperationComplete true) s = .next (s.at (endPend (op.apply y) p .ok [])) ∧
      exec (.flashOperationComplete false) s = .next (s.at (endPend (fault (op.failLog y) 119 1 1 (op.place y) 11 0) p .internal []))) ∧
    (flashHead y = none → ∀ ok, exec (.flashOperationComplete ok) s = .next s) ∧
    (∀ w k m, y.sec.signing = some (w, k, m) → let r := m ++ fit 29792 (Config.slhSign (y.sec.ids.getD []) "JA64-ATTEST" m)
      exec .attestComplete s = .next (s.at (endWait { y with sec := { y.sec with
        signing := none, nextHandle := y.sec.nextHandle % 65535 + 1,
        reports := y.sec.reports ++ [{ who := w, handle := y.sec.nextHandle, data := r, lastEpoch := epoch y }] } }
        (fun w => w == .attest) .ok (le 4 r.length ++ le 2 y.sec.nextHandle)))) ∧
    (y.sec.signing = none → exec .attestComplete s = .next s) ∧
    (∀ p gs l m r, bistOf y = some (p, gs, l, m, r) → ∀ misr,
      (∀ g mem, bistNext gs l r ≠ some (g, mem) → exec (.bistTestComplete g mem misr) s = .next s) ∧
      (∀ g mem, bistNext gs l r = some (g, mem) →
        let wrong := ∃ e, bistExpect s.fuse y g = some e ∧ (if mem = true then e.2 else e.1) ≠ le 16 misr
        let r' := bistRecord (bistExpect s.fuse y g) l m r g mem (le 16 misr)
        ∀ u : Sys, (wrong → u = fault y 121 1 2 (g + (if mem = true then 512 else 256)) 14 0) → (¬ wrong → u = y) →
        let t : Sys := { u with svc := { u.svc with pend := u.svc.pend.map fun x => if x == p then { x with wait := .bist gs l m r' } else x } }
        let t := adminTo t p.who
          { AEv.of 0xE1 with tag := p.tag, opcode := p.opcode, progress := 1000 * bistDoneMs gs l m r' / max 1 (bistMs gs l m) }
        exec (.bistTestComplete g mem misr) s =
          .next (s.at (if gs.length * 40 ≤ r'.length then endPend (gs.foldl bistReset t) p .ok r' else t)))) ∧
    (y.svc.fuseOp = none → ∀ ok, exec (.fuseProgramComplete ok) s = .next s) ∧
    (∀ op, y.svc.fuseOp = some op →
      ∀ ok, let whole := ok = true ∧ y.pins.deferred = none
        let b := if whole then op.bits s.fuse else maskBits (op.bits s.fuse) (Config.word y.free)
        let u := if whole then y else draw y
        let v : Sys := { u with svc := { u.svc with fuseOp := none }, sec := { u.sec with
          lcNew := u.sec.lcNew ||| (b.1 &&& ~~~ s.fuse.lc), dbgNew := u.sec.dbgNew ||| (b.2.1 &&& ~~~ s.fuse.dbgCnt),
          udsNew := u.sec.udsNew ||| (b.2.2.2 &&& ~~~ s.fuse.udsLock) } }
        ∃ t, exec (.fuseProgramComplete ok) s = .next t ∧ t.fuse = s.fuse.blow b ∧ t.pending = s.pending ∧
          (y.pins.deferred.isSome = true → t.sys = releaseReset v) ∧
          (∀ k, op = .lc k → y.pins.deferred = none → t.sys = releaseReset (lcFuseEnd t.fuse v k ok)) ∧
          (∀ n, op = .svn n → y.pins.deferred = none →
            (ok = true → t.sys = releaseReset (svnFuseEnd (floorSlots t.fuse v) .ok)) ∧
            (ok = false → t.sys = releaseReset (fault (svnFuseEnd (floorSlots t.fuse v) .internal) 117 2 3 0 12 0))))

/-- Updates and Freshet. A row that comes before its time changes nothing (log entry 9). A dark device is log entry 51's, how a bundle came to its
    slot log entry 41's, an OFFER with a wrong length log entries 42 and 44's, a digest failure in step 3 or 4 log entry 57's, the settings that
    step 4 loads log entry 90's, the end of staging log entry 96's, DATA out of order log entry 97's, the signature's check a free function (log
    entry 107), health failures log entry 116's, and the copies of the boot control record log entry 145's. -/
def Obligations.BundlesSpreadAndTakeOver : Prop :=
  ∀ s : State, let y := s.sys
    (∀ l, y.upd.lock = some l → l.verifying = true → let m := stageSlot y l
      (m.data.length = m.blen → bundleFail s.fuse y l.slot false = 0 → exec .bundleVerifyComplete s = .next (s.at
        (endWait (modLock (bootWrite y (slotTo y l.slot .staged)) fun l => { l with verifying := false }) (fun w => w == .verify) .ok (zeros 4)))) ∧
      (∀ k, k = (if m.data.length ≠ m.blen then 1 else bundleFail s.fuse y l.slot false) → k ≠ 0 →
        exec .bundleVerifyComplete s = .next (s.at (endWait
          (abandon { y with upd := { y.upd with rejected := y.upd.rejected ++ [m.mdigest] } }) (fun w => w == .verify) .badParam
          (le 1 k ++ zeros 3))))) ∧
    (∀ ok, dark y = true ∨ y.upd.act = none → exec (.activationStep ok) s = .next s) ∧
    (∀ (ok : Bool) a, dark y = false → y.upd.act = some a →
      let goes := fun (t : Sys) => exec (.activationStep ok) s = .next (s.at t)
      (a.step = 1 → a.revert = true → goes (actTo (bootWrite y (slotTo (slotTo y a.slot .active) (1 - a.slot) .invalid)) { a with before := none } 2)) ∧
      (a.step = 1 → a.revert = false → goes (actTo (bootWrite y (slotTo (activateWrites y a.slot .trial a.trialEpochs) y.upd.run .backup))
        { a with before := some (getSlot y a.slot, y.upd.trialWin) } 2)) ∧
      (a.step = 2 → goes (actTo y { a with stopped := true } 3)) ∧
      (a.step = 3 → ok = true ∨ a.revert = true → goes (actTo (if y.svc.ccUp = true then ccLost y true else y) a 4)) ∧
      (a.step = 4 → ok = true ∨ a.revert = true → goes (actTo (loadSettings s.fuse { y with
        upd := { y.upd with run := a.slot, gen := y.upd.gen + 1 }, sec := { y.sec with meas := hitlessMeas y a.slot } } a.slot) a 5)) ∧
      (a.step = 3 ∨ a.step = 4 → ok = false → a.revert = false → goes (actFail y a)) ∧
      (a.step = 5 → goes (actStep5 s.fuse y a))) ∧
    (∀ why, ((∀ x ∈ y.upd.slots, x.st ≠ .trial) → healthFail y why = y) ∧
      ∀ k, (y.upd.slots.findIdx? fun x => x.st == .trial) = some k →
        let u : Upd := { y.upd with lastEnd := why, trialEnd := none, trialStart := none }
        (y.upd.act = none → healthFail y why = { y with upd := { u with
          act := some { slot := 1 - k, step := 1, revert := true, failed := false, owner := none, trialEpochs := 0 } } }) ∧
        (∀ a, y.upd.act = some a → a.revert = true → healthFail y why = y) ∧
        (∀ a, y.upd.act = some a → a.revert = false → healthFail y why =
          { y with upd := { u with act := some { a with slot := 1 - k, step := 1, revert := true, failed := true } } })) ∧
    (∀ e, y.upd.trialEnd = some e → (e ≤ epoch y → exec .trialWindowExpiry s = .next (s.at (healthFail y 3))) ∧
      (epoch y < e → exec .trialWindowExpiry s = .next s)) ∧
    (y.upd.trialEnd = none → exec .trialWindowExpiry s = .next s) ∧
    (∀ l, y.upd.lock = some l →
      ((stageSlot y l).st = .staging → l.lastEpoch + l.limit ≤ epoch y → exec .stagingLockIdle s = .next (s.at (abandon y))) ∧
      ((stageSlot y l).st ≠ .staging ∨ epoch y < l.lastEpoch + l.limit → exec .stagingLockIdle s = .next s)) ∧
    (let row := fun (i : Instr) (op : Nat) (body : Sys → Nat → Bytes → Sys) =>
      (takeMgmt y op op = none → exec i s = .next s) ∧
      (∀ p k t, takeMgmt y op op = some (p, k, t) → exec i s = .next (s.at (body
        (modLock t fun l => if l.holder = .port p then { l with lastEpoch := epoch t } else l) p k.payload)))
    row .freshetOfferReceive 0x10 (fun t p b =>
      if b.length ≠ 48 then t
      else
        let c := offerCode s.fuse t p (sub b 0 32) (num b 36 8)
        let c := if c = 0 ∧ t.upd.lock = none ∧ bundleLenOk (num b 32 4) = false then 5 else c
        let u := sendFreshet t p 0x11 (sub b 0 32 ++ le 1 c ++ zeros 3)
        if c = 0 then acceptOffer u p (sub b 0 32) (num b 32 4) (num b 44 1) else u) ∧
    row .freshetReplyReceive 0x11 (fun t p b =>
      if b.length = 36 ∧ (heldSlot t (sub b 0 32)).isSome = true ∧ num b 32 1 ≠ 2 ∧ t.upd.offerStop.contains (p, sub b 0 32) = false then
        { t with upd := { t.upd with offerStop := t.upd.offerStop ++ [(p, sub b 0 32)] } }
      else t) ∧
    row .freshetPullReceive 0x12 takePull ∧ row .freshetDataReceive 0x13 takeData) ∧
    (∀ (t : Sys) (p : Nat) (b : Bytes) (k : Nat), heldSlot t (sub b 0 32) = some k → let m := (getSlot t k).data
      let off := num b 32 4
      let n := num b 36 4
      (b.length = 40 → within 1 n 4032 = true → off + n ≤ m.length →
        takePull t p b = sendFreshet t p 0x13 (pullBytes (sub b 0 32) off n ++ sub m off n)) ∧
      (b.length ≠ 40 ∨ within 1 n 4032 = false ∨ m.length < off + n → takePull t p b = t)) ∧
    (∀ l p e, y.upd.lock = some l → l.holder = .port p → (y.upd.pulls.find? fun e => decide (e.2.2 + 64 ≤ frame y)) = some e →
      exec .freshetPullResend s = .next (s.at (sendFreshet
        { y with upd := { y.upd with pulls := y.upd.pulls.map fun x => if x == e then (e.1, e.2.1, frame y) else x } }
        p 0x12 (pullBytes (stageSlot y l).mdigest e.1 e.2.1)))) ∧
    ((y.upd.pulls.find? fun e => decide (e.2.2 + 64 ≤ frame y)) = none → exec .freshetPullResend s = .next s) ∧
    (∀ p, let due := ∀ t, tget y.upd.offerAt p = some t → t + 1024 ≤ frame y
      let ok := y.upd.frRelay = true ∧ (freshetMask y).testBit p = true ∧ routable y p = true
      (ok → due → exec (.freshetOfferSend p) s = .next (s.at (offerSlot (offerSlot
        { y with upd := { y.upd with offerAt := tset y.upd.offerAt p (frame y) } } p 0) p 1))) ∧
      (¬ (ok ∧ due) → exec (.freshetOfferSend p) s = .next s))

/-- R42 and R50. The refusals for which log entry 122 had to choose what byte 9 shows are left out by the last hypothesis of the second clause; which
    bus reaches an endpoint (log entry 134) stays `mctpUp`. -/
def Obligations.ResponsesCarryTheStates : Prop :=
  (∀ (y : Sys) (op tag : Nat) (st : Status) (d : Bytes), let b := fun n => (mkResp y op tag st n d).bytes
    (∀ n, num (b n) 8 1 = y.dev.st.code) ∧ num (b none) 9 1 = 0xFF ∧
    (∀ c x, c < 65536 → getCtx y c = some x → num (b (some c)) 9 1 = x.st.code) ∧
    (∀ hp fn, fn < 64 → (getFn y hp fn).fnAbort = true → num (b (some (namedFn hp fn))) 9 1 = 0xFE)) ∧
  (∀ (i : Instr) (c : Spec) (s : State) (q : MbxReq), mailbox i = some (c, q) → takes c.opcode s.sys q = true →
    let x := reached s.sys q
    preCheck c s.fuse x q = some .stateConflict → c.priv s.fuse x q = none ∨ (∀ y b, c.named y b = none) →
    exec i s = .next (s.at (follows i (refusedWith c q (used s q) .stateConflict)))) ∧
  (∀ (c : Spec) (q : MbxReq) (y : Sys), let b := (mkResp y c.opcode q.tag .stateConflict (c.named y q.payload) []).bytes
    b.length = 16 ∧ num b 6 2 = 0 ∧
    (∀ hp fn, q.who = .fn hp fn → fn < 64 → Memory.readAll (getFn (refusedWith c q y .stateConflict) hp fn).mbx.rspBuf 0 16 = b) ∧
    (∀ e, q.who = .mctp e → q.flags.testBit 0 = false →
      refusedWith c q y .stateConflict = if mctpUp y e = true then
        emit (if y.svc.onI3c.contains e then emit y (.ibi e) else y) (.mctp e (korfelMsg 2 b)) else y)) ∧
  (∀ (q : MbxReq) (y : Sys),
    (∀ i, i ∈ [Instr.ctxDestroy q, .ctxActivate q, .ctxQuery q, .ctxResume q, .ctxModerate q, .ctxSched q, .ctxAbort q, .commCreate q,
        .commDestroy q, .commQuery q, .meCtxConfig q, .meQuery q, .psetCreate q] →
      (mailbox i).map (fun e => e.1.named y q.payload) = some (some (num q.payload 0 2))) ∧
    (∀ i, i ∈ [Instr.fnShape q, .fnQuota q, .fnAbort q, .fnTenant q, .fnS2Set q, .cntGrant q] →
      (mailbox i).map (fun e => e.1.named y q.payload) = some (some (namedFn (num q.payload 1 1) (num q.payload 0 1)))) ∧
    (∀ p, getSet y (num q.payload 0 2) = some p →
      (mailbox (.psetAdd q)).map (fun e => e.1.named y q.payload) = some (if p.kind = 0 then none else some (num q.payload 8 2))))

/-- R285: acknowledgement at the link layer. Of the credit records that an ACK brings along nothing is said here but that they are applied. -/
def Obligations.AcknowledgementsMoveTheReplay : Prop :=
  ∀ (y : Sys) (p next : Nat), let n := getNp y p
    let adv := (next + 65536 - oldestSeq n % 65536) % 65536
    let t := applyNext y p next
    (adv = 0 ∨ (n.ll.replay.length < adv ∧ 32768 ≤ adv) → t = y) ∧
    (n.ll.replay.length < adv → adv < 32768 → t = portDown y p 5) ∧
    (adv ≤ n.ll.replay.length → t = { y with nps := t.nps } ∧ (∀ q, q ≠ p → getNp t q = getNp y q) ∧
      getNp t p = { n with ll := { n.ll with replay := (getNp t p).ll.replay, retx := (getNp t p).ll.retx } } ∧
      (p < y.nps.length → (getNp t p).ll.replay = n.ll.replay.drop adv ∧
        ∀ q, q ∈ (getNp t p).ll.retx ↔ q ∈ n.ll.retx ∧ ∀ r, r ∈ n.ll.replay.take adv → r.pkt.lseq ≠ q)) ∧
    (∀ (s : State) (h : CtlHdr) (m : AckMsg), s.sys = y → m.next = next → let r := ctlIn y p h (.ack m)
      (r.2 = true → exec (.llAckReceive p h m) s =
        .next (s.at (m.recs.foldl (fun s r => applyRet s p r.1 r.2.1 r.2.2) (applyNext r.1 p next)))) ∧
      (r.2 = false → exec (.llAckReceive p h m) s = .next (s.at r.1)))

/-- R225: the modes without scores. -/
def Obligations.FixedAndEqualSetsUseNoScores : Prop :=
  (∀ (y : Sys) (k : Nat) (p : Pset), getSet y k = some p → p.mode = 1 →
    (∀ m, tget p.members p.fixed = some m → memberNow y p p.fixed m = true → (choose y k).2 = some (p.fixed, m)) ∧
    ((∀ m, (p.fixed, m) ∈ p.members → memberNow y p p.fixed m = false) → (choose y k).2 = none)) ∧
  (∀ (p : Pset) (i : Nat) (m : PMember) (v : Nat),
    (p.mode = 2 → shareOf p i m = 1) ∧ (p.mode ≠ 0 → shareOf p i { m with share := v } = shareOf p i m)) ∧
  (∀ (y : Sys) (k : Nat) (p : Pset), getSet y k = some p → p.mode = 2 →
    ((∃ e, e ∈ p.members ∧ memberNow y p e.1 e.2 = true) ↔ (choose y k).2.isSome = true)) ∧
  (∀ (s : State) (k : Nat), (∀ p, (k, p) ∈ s.sys.pe.sets → p.mode = 1 ∨ p.mode = 2) →
    (∀ b, (k, b) ∉ batchSets s.sys) ∧ (∀ e, e ∈ (planTick s.sys).pe.plan.sets → e.1 ≠ k) ∧ getSet (planTick s.sys) k = getSet s.sys k ∧
    ∃ t, exec .placementBatch s = .next t ∧ getSet t.sys k = getSet s.sys k)

/-- An invariant of the rings, the mailbox buffers and the sessions; that it holds of the reset state is a clause of ResetStateStandsAtPowerOn. What
    an unlisted address of a buffer reads as is log entry 13's, a head that names no unread entry log entry 12's, and when an event ring is full log
    entry 23's. -/
def Obligations.IndicesBuffersAndSessionsStayInBounds : Prop :=
  (∀ (s t : State) (c : Instr) (rest : List Instr), s.pending = c :: rest → movesBounds c = true → step s = .next t →
    Fits s.sys → Fits t.sys) ∧
  (∀ y : Sys, Fits y →
    (∀ who lt r, Fits (respond y who lt r)) ∧ (∀ who e, Fits (adminTo y who e)) ∧ (∀ hp fn v, Fits (msix y hp fn v)) ∧
    (∀ c n, Fits (passHead y c n)) ∧ (∀ c, Fits (evWritten y c)) ∧ (∀ c, Fits (evInterrupt y c)) ∧
    (∀ who token, Fits (touchSession y who token)) ∧ (∀ which reason quiet, Fits (endSessions y which reason quiet)) ∧
    (∀ who c, (y.sec.sessions.filter fun x => sameLimit x.who who).length < 4 → Fits (openSession y who c).1)) ∧
  (∀ r : EvRing, r.Fits → r.push.2.2.2.Fits ∧ ∀ h, (r.headTo h).Fits)

/-- The arithmetic of collectives (R199 to R202). -/
def Obligations.CollectiveElementsAreCombined : Prop :=
  ((List.range 10).map elemSize = [4, 4, 8, 8, 8, 4, 2, 2, 1, 1] ∧
    (List.range 10).map (upSize · false) = [4, 4, 8, 8, 8, 4, 4, 4, 4, 4] ∧
    (List.range 10).map (upSize · true) = [4, 4, 8, 8, 16, 8, 8, 8, 8, 8]) ∧
  (∀ d : Desc, colCodesOk d = true → bits d.w40 12 4 ≤ 9 ∧ (d.w40 % 8 = 2 ∨ d.w40 % 8 = 3 ∨ d.w40 % 8 = 4 →
    bits d.w40 8 4 ≤ 5 ∧ (3 ≤ bits d.w40 8 4 → bits d.w40 12 4 ≤ 3))) ∧
  (∀ et a b c, et < 4 → let w := 8 * elemSize et
    combineUp et .add a b = (a + b) % 2 ^ w ∧
    (a < 2 ^ w → b < 2 ^ w → c < 2 ^ w → ∀ o : AOp, o ≠ .swap →
      combineUp et o a b = combineUp et o b a ∧ combineUp et o (combineUp et o a b) c = combineUp et o a (combineUp et o b c))) ∧
  (∀ et a b g, 4 ≤ et → et ≤ 9 → let f := upFmt et
    f.decode a = .nan g →
      combineUp et .add a b = f.qnan ∧ combineUp et .add b a = f.qnan ∧
      combineUp et .min a b = f.encode (f.decode b) ∧ combineUp et .max a b = f.encode (f.decode b) ∧
      ((∀ k, f.decode b ≠ .nan k) → combineUp et .min b a = f.encode (f.decode b) ∧ combineUp et .max b a = f.encode (f.decode b))) ∧
  (∀ v neg, let top := fun n : Nat => if neg = true then n else 0
    (Fmt.b32.decode v = .nan neg → fromUp 6 v = 0x7E00 ∧ fromUp 7 v = 0x7FC0 ∧ fromUp 8 v = 0x7F + top 0x80 ∧ fromUp 9 v = 0x7E) ∧
    (Fmt.b32.decode v = .inf neg → fromUp 6 v = 0x7C00 + top 0x8000 ∧ fromUp 7 v = 0x7F80 + top 0x8000 ∧ fromUp 8 v = 0x7E + top 0x80 ∧
      fromUp 9 v = 0x7C + top 0x80)) ∧
  (fromUp 8 0x43E80000 = 0x7E ∧ fromUp 8 0x47800000 = 0x7E ∧ fromUp 6 0x47800000 = 0x7C00 ∧ fromUp 9 0x47800000 = 0x7C ∧
    fromUp 6 0x33800000 = 1 ∧ fromUp 7 0x3F808000 = 0x3F80 ∧ fromUp 7 0x3F818000 = 0x3F82) ∧
  (∀ (a : Chunk) (t : List Chunk),
    (hdrMode a.hdr ≠ 0 → foldChunks (a :: t) = t.foldl (fun d x => fold2 a.hdr a.expo d x.data) a.data) ∧
    (hdrMode a.hdr = 0 → ∃ b u, (b :: u).Perm (a :: t) ∧ (b :: u).Pairwise (fun x z => x.arr ≤ z.arr) ∧
      foldChunks (a :: t) = u.foldl (fun d x => fold2 b.hdr b.expo d x.data) b.data)) ∧
  (∀ (h : Nat) (xs ys : List Nat), let w := upSize (hdrEtype h) (hdrGrid h)
    (∀ x ∈ xs ++ ys, x < 2 ^ (8 * w)) →
      (∀ o, ropOf (hdrRop h) = some o → hdrGrid h = false → fold2 h false (xs.flatMap (le w)) (ys.flatMap (le w)) =
        (xs.zip ys).flatMap fun e => le w (combineUp (hdrEtype h) o e.1 e.2)) ∧
      (hdrGrid h = true → fold2 h false (xs.flatMap (le w)) (ys.flatMap (le w)) =
        (xs.zip ys).flatMap fun e => le w ((e.1 + e.2) % 2 ^ (8 * w)))) ∧
  (∀ (f : Fmt) (xs : List Nat), let r := expRecord f xs
    (∀ j, (r.nan.testBit j = true ↔ ∃ v g, xs[j]? = some v ∧ f.decode v = .nan g) ∧
      (r.pinf.testBit j = true ↔ ∃ v, xs[j]? = some v ∧ f.decode v = .inf false) ∧
      (r.ninf.testBit j = true ↔ ∃ v, xs[j]? = some v ∧ f.decode v = .inf true)) ∧
    (∀ v g m e, v ∈ xs → f.decode v = .fin g m e → m ≠ 0 → (Nat.log2 m : Int) + e ≤ r.emax) ∧ -32768 ≤ r.emax ∧
    (r.emax = -32768 ∨ ∃ v g m e, v ∈ xs ∧ f.decode v = .fin g m e ∧ m ≠ 0 ∧ r.emax = (Nat.log2 m : Int) + e)) ∧
  (∀ a b : ExpRec, a.join b = { emax := max a.emax b.emax, nan := a.nan ||| b.nan, pinf := a.pinf ||| b.pinf, ninf := a.ninf ||| b.ninf }) ∧
  (∀ (h : Nat) (a b : Bytes), a.length = 8 → fold2 h true a b = ((ExpRec.parse (sub a 0 8)).join (ExpRec.parse (sub b 0 8))).bytes) ∧
  (∀ (et : Nat) (f : Fmt) (r : ExpRec) (v : Nat),
    ((∃ g, f.decode v = .nan g ∨ f.decode v = .inf g) ∨ (∃ g e, f.decode v = .fin g 0 e) ∨ r.emax = -32768 → toGrid et f r v = 0) ∧
    (∀ g m e, f.decode v = .fin g m e → m ≠ 0 → r.emax ≠ -32768 →
      toGrid et f r v = (if g = true then -1 else 1) * (roundInt m (e + (if et = 4 then 107 else 43) - r.emax) : Int))) ∧
  (∀ (et : Nat) (f : Fmt) (r : ExpRec) (j : Nat) (t : Int), let n := r.nan.testBit j
    let p := r.pinf.testBit j
    let q := r.ninf.testBit j
    (n = true ∨ (p = true ∧ q = true) → fromGrid et f r j t = f.qnan) ∧
    (n = false → p = true → q = false → fromGrid et f r j t = f.encode (.inf false)) ∧
    (n = false → p = false → q = true → fromGrid et f r j t = f.encode (.inf true)) ∧
    (n = false → p = false → q = false → (t = 0 → fromGrid et f r j t = 0) ∧
      (t ≠ 0 → fromGrid et f r j t = f.round (decide (t < 0)) t.natAbs (r.emax - (if et = 4 then 107 else 43)))))
end

