-- ==== Sys2Proof/Laws/Exec.lean ====
section
/-! SUPPORT. What a command can do to a state, said once: it answers a next state with the same queue, and none but FUSE_PROGRAM_COMPLETE
touches the fuse bank. -/
namespace Sys2Proof.Machine

set_option maxRecDepth 20000 in
/-- Every command answers a state that differs in fuses and device alone. -/
theorem exec_next (c : Instr) (s : State) : ∃ f y, exec c s = .next { s with fuse := f, sys := y } := by
  cases c
  all_goals exact ⟨_, _, rfl⟩

set_option maxRecDepth 20000 in
/-- A command that programs no fuses answers a state that differs in the device alone. -/
theorem exec_device (c : Instr) (s : State) : programsFuses c = false → ∃ y, exec c s = .next (s.at y) := by
  cases c
  case fuseProgramComplete => exact fun h => nomatch h
  all_goals exact fun _ => ⟨_, rfl⟩

/-- The step on an empty queue. -/
theorem step_nil (s : State) (h : s.pending = []) : step s = .next s := by
  unfold step
  rw [h]

/-- The step on a queue that holds a command. -/
theorem step_cons (s : State) (c : Instr) (rest : List Instr) (h : s.pending = c :: rest) : step s = exec c { s with pending := rest } := by
  unfold step
  rw [h]

end Sys2Proof.Machine
end

