-- ==== Sys2Proof/Laws/Memory.lean ====
section
/-! SUPPORT. Laws of the tables, the byte strings and the addressed buffers: read after write, and that every buffer operation keeps the
canonical form. -/
namespace Sys2Proof.Machine

/-! ### Tables -/

@[simp] theorem tget_tset_same {α : Type} (t : Table α) (k : Nat) (v : α) : tget (tset t k v) k = some v := by
  induction t with
  | nil => simp [tset, tget]
  | cons e t ih =>
    obtain ⟨i, a⟩ := e
    unfold tset
    split
    · simp [tget]
    · split
      · simp [tget]
      · rename_i h
        simp [tget, Ne.symm h, ih]

theorem tget_tset_other {α : Type} (t : Table α) (k k' : Nat) (v : α) (h : k' ≠ k) : tget (tset t k v) k' = tget t k' := by
  induction t with
  | nil => simp [tset, tget, Ne.symm h]
  | cons e t ih =>
    obtain ⟨i, a⟩ := e
    unfold tset
    split
    · simp [tget, Ne.symm h]
    · split
      · rename_i h'
        subst h'
        simp [tget, Ne.symm h]
      · simp only [tget, ih]

theorem tget_tdel_same {α : Type} (t : Table α) (k : Nat) : tget (tdel t k) k = none := by
  induction t with
  | nil => rfl
  | cons e t ih =>
    obtain ⟨i, a⟩ := e
    by_cases h : i = k
    · subst h
      simpa [tdel, List.filter_cons] using ih
    · simp only [tdel, List.filter_cons, ne_eq, h, not_false_eq_true, decide_true, if_true, tget, if_false]
      exact ih

/-! ### Numbers as bytes -/

@[simp] theorem le_length (n v : Nat) : (le n v).length = n := by
  induction n generalizing v with
  | zero => rfl
  | succ n ih => simp [le, ih]

@[simp] theorem nat_le (n v : Nat) : nat (le n v) = v % 256 ^ n := by
  induction n generalizing v with
  | zero => simp [le, nat, Nat.mod_one]
  | succ n ih =>
    simp only [le, nat, ih, BitVec.toNat_ofNat]
    have h : (256 : Nat) ^ (n + 1) = 256 * 256 ^ n := by rw [Nat.pow_succ, Nat.mul_comm]
    rw [h, Nat.mod_mul]

@[simp] theorem zeros_length (n : Nat) : (zeros n).length = n := by simp [zeros]

/-- Bytes beyond the first part of a string. -/
theorem sub_skip (a b : Bytes) (off n : Nat) (h : a.length ≤ off) : sub (a ++ b) off n = sub b (off - a.length) n := by
  simp [sub, List.drop_append, List.drop_eq_nil_of_le h]

/-- The first part of a string. -/
theorem sub_here (a b : Bytes) (n : Nat) (h : a.length = n) : sub (a ++ b) 0 n = a := by
  simp [sub, ← h]

/-- The whole of a string. -/
theorem sub_all (a : Bytes) (n : Nat) (h : a.length = n) : sub a 0 n = a := by
  simp [sub, ← h]

/-! ### Buffers -/

theorem Memory.read_putCell_same (m : Memory) (a : Nat) (b : Byte) (h : ∀ c ∈ m, c.1 ≠ a) : (Memory.putCell m a b).read a = b := by
  induction m with
  | nil => simp [Memory.putCell, Memory.read]
  | cons c m ih =>
    have hc := h c (by simp)
    unfold Memory.putCell
    split
    · simp [Memory.read]
    · simp only [Memory.read, hc, if_false]
      exact ih fun d hd => h d (by simp [hd])

theorem Memory.read_putCell_other (m : Memory) (a a' : Nat) (b : Byte) (h : a' ≠ a) : (Memory.putCell m a b).read a' = m.read a' := by
  induction m with
  | nil => simp [Memory.putCell, Memory.read, Ne.symm h]
  | cons c m ih =>
    unfold Memory.putCell
    split
    · simp [Memory.read, Ne.symm h]
    · simp [Memory.read, ih]

theorem Memory.read_filter_same (m : Memory) (a : Nat) : Memory.read (m.filter fun c => c.1 ≠ a) a = 0 := by
  induction m with
  | nil => rfl
  | cons c m ih =>
    by_cases h : c.1 = a
    · simpa [List.filter_cons, h] using ih
    · simp only [List.filter_cons, ne_eq, h, not_false_eq_true, decide_true, if_true, Memory.read, if_false]
      exact ih

theorem Memory.read_filter_other (m : Memory) (a a' : Nat) (h : a' ≠ a) : Memory.read (m.filter fun c => c.1 ≠ a) a' = m.read a' := by
  induction m with
  | nil => rfl
  | cons c m ih =>
    by_cases hc : c.1 = a
    · simp only [List.filter_cons, ne_eq, hc, not_true_eq_false, decide_false, Bool.false_eq_true, if_false, Memory.read, Ne.symm h]
      exact ih
    · simp only [List.filter_cons, ne_eq, hc, not_false_eq_true, decide_true, if_true, Memory.read]
      split
      · rfl
      · exact ih

/-- Reading what was written. -/
@[simp] theorem Memory.read_write_same (m : Memory) (a : Nat) (b : Byte) : (m.write a b).read a = b := by
  unfold Memory.write
  by_cases h : b = 0
  · subst h
    simpa using Memory.read_filter_same m a
  · simp only [h, if_false]
    refine Memory.read_putCell_same _ a b fun c hc => ?_
    simpa using (List.mem_filter.1 hc).2

/-- A write leaves every other address alone. -/
theorem Memory.read_write_other (m : Memory) (a a' : Nat) (b : Byte) (h : a' ≠ a) : (m.write a b).read a' = m.read a' := by
  unfold Memory.write
  by_cases hb : b = 0
  · subst hb
    simpa using Memory.read_filter_other m a a' h
  · simp only [hb, if_false]
    rw [Memory.read_putCell_other _ _ _ _ h]
    exact Memory.read_filter_other m a a' h

/-- A string written leaves the addresses before it alone. -/
theorem Memory.read_writeAll_before (d : Bytes) (m : Memory) (a a' : Nat) (h : a' < a) : (m.writeAll a d).read a' = m.read a' := by
  induction d generalizing m a with
  | nil => rfl
  | cons b d ih =>
    rw [Memory.writeAll, ih _ _ (by omega), Memory.read_write_other _ _ _ _ (by omega)]

/-- A string written leaves the addresses after it alone. -/
theorem Memory.read_writeAll_after (d : Bytes) (m : Memory) (a a' : Nat) (h : a + d.length ≤ a') : (m.writeAll a d).read a' = m.read a' := by
  induction d generalizing m a with
  | nil => rfl
  | cons b d ih =>
    simp only [List.length_cons] at h
    rw [Memory.writeAll, ih _ _ (by omega), Memory.read_write_other _ _ _ _ (by omega)]

/-- Reading back a string that was written. -/
theorem Memory.readAll_writeAll (d : Bytes) (m : Memory) (a : Nat) : (m.writeAll a d).readAll a d.length = d := by
  induction d generalizing m a with
  | nil => rfl
  | cons b d ih =>
    simp only [Memory.writeAll, List.length_cons, Memory.readAll]
    rw [Memory.read_writeAll_before _ _ _ _ (by omega), Memory.read_write_same, ih]

/-! ### The canonical form -/

/-- The canonical form as a pairwise order and a value at each cell. -/
theorem Memory.wf_iff (m : Memory) : m.wf = true ↔ (m.Pairwise fun c d => c.1 < d.1) ∧ ∀ c ∈ m, c.2 ≠ 0 := by
  induction m with
  | nil => simp [Memory.wf]
  | cons c m ih =>
    cases m with
    | nil => simp [Memory.wf]
    | cons d m =>
      simp only [Memory.wf, Bool.and_eq_true, decide_eq_true_eq, ih, List.pairwise_cons, List.mem_cons, forall_eq_or_imp]
      constructor
      · rintro ⟨⟨h1, h2⟩, ⟨h3, h4⟩, h5, h6⟩
        exact ⟨⟨⟨h2, fun e he => lt_trans h2 (h3 e he)⟩, h3, h4⟩, h1, h5, h6⟩
      · rintro ⟨⟨⟨h1, _⟩, h3, h4⟩, h5, h6, h7⟩
        exact ⟨⟨h5, h1⟩, ⟨h3, h4⟩, h6, h7⟩

theorem Memory.putCell_pairwise (m : Memory) (a : Nat) (b : Byte) (h : m.Pairwise fun c d => c.1 < d.1) (hn : ∀ c ∈ m, c.1 ≠ a) :
    (Memory.putCell m a b).Pairwise fun c d => c.1 < d.1 := by
  induction m with
  | nil => simp [Memory.putCell]
  | cons c m ih =>
    obtain ⟨h1, h2⟩ := List.pairwise_cons.1 h
    unfold Memory.putCell
    split
    · rename_i hlt
      refine List.pairwise_cons.2 ⟨fun d hd => ?_, h⟩
      rcases List.mem_cons.1 hd with rfl | hd
      · exact hlt
      · exact lt_trans hlt (h1 d hd)
    · rename_i hge
      refine List.pairwise_cons.2 ⟨fun d hd => ?_, ih h2 fun d hd => hn d (by simp [hd])⟩
      have mem : ∀ (l : Memory), d ∈ Memory.putCell l a b → d = (a, b) ∨ d ∈ l := by
        intro l
        induction l with
        | nil => simp [Memory.putCell]
        | cons e l il =>
          unfold Memory.putCell
          split
          · simp
          · intro hm
            rcases List.mem_cons.1 hm with rfl | hm
            · simp
            · rcases il hm with h | h
              · exact Or.inl h
              · exact Or.inr (by simp [h])
      rcases mem m hd with rfl | hd
      · have := hn c (by simp)
        show c.1 < a
        omega
      · exact h1 d hd

theorem Memory.mem_putCell (m : Memory) (a : Nat) (b : Byte) (d : Host.Cell) (h : d ∈ Memory.putCell m a b) : d = (a, b) ∨ d ∈ m := by
  induction m with
  | nil => simpa [Memory.putCell] using h
  | cons e l il =>
    unfold Memory.putCell at h
    split at h
    · simpa using h
    · rcases List.mem_cons.1 h with rfl | h
      · simp
      · rcases il h with h | h
        · exact Or.inl h
        · exact Or.inr (by simp [h])

/-- One byte written keeps the canonical form. -/
theorem Memory.write_wf (m : Memory) (a : Nat) (b : Byte) (h : m.wf = true) : (m.write a b).wf = true := by
  rw [Memory.wf_iff] at h ⊢
  have hp : (m.filter fun c => c.1 ≠ a).Pairwise fun c d => c.1 < d.1 := h.1.filter _
  have hz : ∀ c ∈ m.filter (fun c => c.1 ≠ a), c.2 ≠ 0 := fun c hc => h.2 c (List.mem_filter.1 hc).1
  unfold Memory.write
  by_cases hb : b = 0
  · subst hb
    simpa using And.intro hp hz
  · simp only [hb, if_false]
    refine ⟨Memory.putCell_pairwise _ a b hp fun c hc => by simpa using (List.mem_filter.1 hc).2, fun c hc => ?_⟩
    rcases Memory.mem_putCell _ _ _ _ hc with rfl | hc
    · exact hb
    · exact hz c hc

/-- A string written keeps the canonical form. -/
theorem Memory.writeAll_wf (d : Bytes) (m : Memory) (a : Nat) (h : m.wf = true) : (m.writeAll a d).wf = true := by
  induction d generalizing m a with
  | nil => exact h
  | cons b d ih => exact ih _ _ (Memory.write_wf m a b h)

end Sys2Proof.Machine
end

