-- ==== Sys2Proof/Laws/Flash.lean ====
section
/-! SUPPORT. Laws of what stands in flash in two copies: a write that fails leaves in force what was, one that ends is read back, a copy of the boot
control record has a correct CRC, and a stored key comes back. -/
namespace Sys2Proof.Machine

/-! ### Settings copies (R404, R405) -/

/-- After a write that has failed, the copy in force is the one that was. -/
@[simp] theorem Slot.newer_spoil (x : Slot) : x.spoil.newer = x.newer := by
  obtain ⟨st, md, bl, d, h, a, b⟩ := x
  cases a <;> cases b <;> simp [Slot.spoil, Slot.newA, Slot.newer]
  rename_i a b
  by_cases h : b.gen ≤ a.gen
  · simp [h, Nat.not_lt.mpr h]
  · simp [h, Nat.not_le.mp h]

/-- A copy that has been written is the one in force, as long as its generation does not wrap. -/
theorem Slot.newer_save (x : Slot) (fmt : Nat) (recs : List SetRec) (h : (x.newer.map (·.gen)).getD 0 + 1 < 2 ^ 32) :
    (x.save fmt recs).newer = some { fmt, gen := (x.newer.map (·.gen)).getD 0 + 1, recs } := by
  obtain ⟨st, md, bl, d, hp, a, b⟩ := x
  cases a <;> cases b <;> simp [Slot.save, Slot.newA, Slot.newer] at h ⊢
  · rw [Nat.mod_eq_of_lt h]; simp
  · rw [Nat.mod_eq_of_lt h]; simp
  · rename_i a b
    by_cases c : b.gen ≤ a.gen
    · simp [c, Nat.not_lt.mpr c] at h ⊢; rw [Nat.mod_eq_of_lt h]; simp
    · simp [c, Nat.not_le.mp c] at h ⊢; rw [Nat.mod_eq_of_lt h]; simp

/-! ### The boot control record (R388) -/

@[simp] theorem fit_length (n : Nat) (b : Bytes) : (fit n b).length = n := by
  simp [fit]; omega

theorem bootHead_length (u : Upd) : (bootHead u).length = 88 := by simp [bootHead]

theorem crcBit_lt (c : Nat) (h : c < 2 ^ 32) : crcBit c < 2 ^ 32 := by
  unfold crcBit
  split
  · exact Nat.xor_lt_two_pow (by omega) (by decide)
  · omega

/-- A CRC-32 has 32 bits (R129). -/
theorem crc32_lt (b : Bytes) : crc32 b < 2 ^ 32 := by
  have h (c : Nat) (x : Byte) (h : c < 2 ^ 32) : crcByte c x < 2 ^ 32 := by
    unfold crcByte
    iterate 8 apply crcBit_lt
    exact Nat.xor_lt_two_pow h (by have := x.isLt; omega)
  have g : ∀ (b : Bytes) (c : Nat), c < 2 ^ 32 → b.foldl crcByte c < 2 ^ 32 := by
    intro b
    induction b with
    | nil => exact fun _ h => h
    | cons x b ih => exact fun c hc => ih _ (h c x hc)
  exact Nat.xor_lt_two_pow (g b _ (by decide)) (by decide)

/-- A record that has been written is read as one with a correct CRC. -/
theorem bootCopyOk_record (u : Upd) : bootCopyOk (bootRecord u) = true := by
  have h : (bootHead u).length = 88 := bootHead_length u
  simpa [bootCopyOk, bootRecord, h, num, sub_skip, sub_all] using crc32_lt (bootHead u)

/-! ### Stored keys (R375) -/

/-- What has been encrypted with a pad comes back with it. -/
theorem xorBytes_twice (k p : Bytes) (h : k.length = p.length) : xorBytes (xorBytes k p) p = k := by
  induction k generalizing p with
  | nil => simp [xorBytes]
  | cons x k ih =>
    cases p with
    | nil => simp at h
    | cons y p =>
      have := ih p (by simpa using h)
      simpa [xorBytes, BitVec.xor_assoc] using this

end Sys2Proof.Machine
end

