-- ==== Sys2Proof/Laws/State.lean ====
section
/-! SUPPORT. One lemma for each part of the state and each of the shared updates: what an update of a function, a port, a context or a
counter leaves as it was, and what reading back the updated thing gives. -/
namespace Sys2Proof.Machine

theorem fnKey_inj {hp fn hp' fn' : Nat} (h : fn < 64) (h' : fn' < 64) (e : fnKey hp fn = fnKey hp' fn') : hp = hp' ∧ fn = fn' := by
  unfold fnKey at e
  omega

/-! ### Functions -/

@[simp] theorem getFn_setFn (s : Sys) (hp fn : Nat) (g : Fn) : getFn (setFn s hp fn g) hp fn = g := by simp [getFn, setFn]

theorem getFn_setFn_other (s : Sys) (hp fn hp' fn' : Nat) (g : Fn) (h : fnKey hp' fn' ≠ fnKey hp fn) :
    getFn (setFn s hp fn g) hp' fn' = getFn s hp' fn' := by
  simp [getFn, setFn, tget_tset_other _ _ _ _ h]

@[simp] theorem getFn_modFn (s : Sys) (hp fn : Nat) (g : Fn → Fn) : getFn (modFn s hp fn g) hp fn = g (getFn s hp fn) := by simp [modFn]

@[simp] theorem getFn_modMbx (s : Sys) (hp fn : Nat) (g : Mbx → Mbx) :
    getFn (modMbx s hp fn g) hp fn = { getFn s hp fn with mbx := g (getFn s hp fn).mbx } := by simp [modMbx]

/-- A changed function leaves everything but the table of functions. -/
theorem modFn_eq (s : Sys) (hp fn : Nat) (g : Fn → Fn) : modFn s hp fn g = { s with fns := (modFn s hp fn g).fns } := rfl

/-- A changed mailbox leaves everything but the table of functions. -/
theorem modMbx_eq (s : Sys) (hp fn : Nat) (g : Mbx → Mbx) : modMbx s hp fn g = { s with fns := (modMbx s hp fn g).fns } := rfl

@[simp] theorem modMbx_dev (s : Sys) (hp fn : Nat) (g : Mbx → Mbx) : (modMbx s hp fn g).dev = s.dev := rfl
@[simp] theorem modMbx_time (s : Sys) (hp fn : Nat) (g : Mbx → Mbx) : (modMbx s hp fn g).time = s.time := rfl
@[simp] theorem modMbx_svc (s : Sys) (hp fn : Nat) (g : Mbx → Mbx) : (modMbx s hp fn g).svc = s.svc := rfl
@[simp] theorem modMbx_ctxs (s : Sys) (hp fn : Nat) (g : Mbx → Mbx) : (modMbx s hp fn g).ctxs = s.ctxs := rfl
@[simp] theorem modMbx_out (s : Sys) (hp fn : Nat) (g : Mbx → Mbx) : (modMbx s hp fn g).out = s.out := rfl
@[simp] theorem modMbx_sec (s : Sys) (hp fn : Nat) (g : Mbx → Mbx) : (modMbx s hp fn g).sec = s.sec := rfl
@[simp] theorem modFn_dev (s : Sys) (hp fn : Nat) (g : Fn → Fn) : (modFn s hp fn g).dev = s.dev := rfl
@[simp] theorem modFn_time (s : Sys) (hp fn : Nat) (g : Fn → Fn) : (modFn s hp fn g).time = s.time := rfl
@[simp] theorem modFn_svc (s : Sys) (hp fn : Nat) (g : Fn → Fn) : (modFn s hp fn g).svc = s.svc := rfl
@[simp] theorem modFn_ctxs (s : Sys) (hp fn : Nat) (g : Fn → Fn) : (modFn s hp fn g).ctxs = s.ctxs := rfl

/-! ### Ports, contexts, counters -/

theorem getNp_modNp (s : Sys) (p : Nat) (g : NPrt → NPrt) (h : p < s.nps.length) : getNp (modNp s p g) p = g (getNp s p) := by
  simp [getNp, modNp, List.getD_eq_getElem?_getD, List.getElem?_eq_getElem h]

theorem getNp_modNp_other (s : Sys) (p p' : Nat) (g : NPrt → NPrt) (h : p' ≠ p) : getNp (modNp s p g) p' = getNp s p' := by
  simp [getNp, modNp, List.getD_eq_getElem?_getD, Ne.symm h]

@[simp] theorem modNp_length (s : Sys) (p : Nat) (g : NPrt → NPrt) : (modNp s p g).nps.length = s.nps.length := by simp [modNp]
@[simp] theorem modNp_fns (s : Sys) (p : Nat) (g : NPrt → NPrt) : (modNp s p g).fns = s.fns := rfl
@[simp] theorem modNp_ctxs (s : Sys) (p : Nat) (g : NPrt → NPrt) : (modNp s p g).ctxs = s.ctxs := rfl
@[simp] theorem modNp_time (s : Sys) (p : Nat) (g : NPrt → NPrt) : (modNp s p g).time = s.time := rfl
@[simp] theorem modNp_dev (s : Sys) (p : Nat) (g : NPrt → NPrt) : (modNp s p g).dev = s.dev := rfl
@[simp] theorem modNp_rt (s : Sys) (p : Nat) (g : NPrt → NPrt) : (modNp s p g).rt = s.rt := rfl
@[simp] theorem modNp_pwr (s : Sys) (p : Nat) (g : NPrt → NPrt) : (modNp s p g).pwr = s.pwr := rfl
@[simp] theorem modNp_flt (s : Sys) (p : Nat) (g : NPrt → NPrt) : (modNp s p g).flt = s.flt := rfl
@[simp] theorem modNp_out (s : Sys) (p : Nat) (g : NPrt → NPrt) : (modNp s p g).out = s.out := rfl

theorem getHp_modHp (s : Sys) (p : Nat) (g : HPort → HPort) (h : p < s.hps.length) : getHp (modHp s p g) p = g (getHp s p) := by
  simp [getHp, modHp, List.getD_eq_getElem?_getD, List.getElem?_eq_getElem h]

theorem getHp_modHp_other (s : Sys) (p p' : Nat) (g : HPort → HPort) (h : p' ≠ p) : getHp (modHp s p g) p' = getHp s p' := by
  simp [getHp, modHp, List.getD_eq_getElem?_getD, Ne.symm h]

theorem getCtx_modCtx (s : Sys) (c : Nat) (g : Ctx → Ctx) (x : Ctx) (h : getCtx s c = some x) : getCtx (modCtx s c g) c = some (g x) := by
  unfold getCtx at *
  simp [modCtx, h]

theorem getCtx_modCtx_other (s : Sys) (c c' : Nat) (g : Ctx → Ctx) (h : c' ≠ c) : getCtx (modCtx s c g) c' = getCtx s c' := by
  unfold getCtx modCtx
  split
  · rfl
  · simp [tget_tset_other _ _ _ _ h]

@[simp] theorem modCtx_fns (s : Sys) (c : Nat) (g : Ctx → Ctx) : (modCtx s c g).fns = s.fns := by unfold modCtx; split <;> rfl
@[simp] theorem modCtx_svc (s : Sys) (c : Nat) (g : Ctx → Ctx) : (modCtx s c g).svc = s.svc := by unfold modCtx; split <;> rfl
@[simp] theorem modCtx_te (s : Sys) (c : Nat) (g : Ctx → Ctx) : (modCtx s c g).te = s.te := by unfold modCtx; split <;> rfl

/-- Counting touches the counter blocks alone. -/
theorem count_eq (s : Sys) (b ev n : Nat) (a : Nat → Bool) : count s b ev n a = { s with cnt := (count s b ev n a).cnt } := rfl

@[simp] theorem emit_out (s : Sys) (o : Out) : (emit s o).out = s.out ++ [o] := rfl
@[simp] theorem emit_fns (s : Sys) (o : Out) : (emit s o).fns = s.fns := rfl
@[simp] theorem draw_free (s : Sys) : (draw s).free = s.free + 1 := rfl

/-! ### What reaches the host -/

/-- A memory write of a function drives at most a TLP and counts it. -/
theorem hostWrite_eq (s : Sys) (hp fn a : Nat) (d : Bytes) (ro : Bool) (st : Option Nat) :
    hostWrite s hp fn a d ro st = { s with out := (hostWrite s hp fn a d ro st).out, cnt := (hostWrite s hp fn a d ro st).cnt } := by
  unfold hostWrite
  simp only
  split <;> rfl

/-- An interrupt touches what is driven, and the pending bits of its function. -/
theorem msix_eq (s : Sys) (hp fn v : Nat) : msix s hp fn v = { s with fns := (msix s hp fn v).fns, out := (msix s hp fn v).out } := by
  unfold msix
  simp only
  split
  · rfl
  · split
    · rfl
    · split <;> rfl

/-- An interrupt leaves every register of its function but the pending bits. -/
theorem msix_fn (s : Sys) (hp fn v : Nat) : ∃ l, getFn (msix s hp fn v) hp fn = { getFn s hp fn with msixPend := l } := by
  have keep : getFn s hp fn = { getFn s hp fn with msixPend := (getFn s hp fn).msixPend } := rfl
  unfold msix
  simp only
  split
  · exact ⟨_, keep⟩
  · split
    · exact ⟨_, keep⟩
    · split
      · exact ⟨_, keep⟩
      · exact ⟨_, by rw [getFn_setFn]⟩

/-- An interrupt leaves every other function as it was. -/
theorem msix_other (s : Sys) (hp fn v hp' fn' : Nat) (h : fnKey hp' fn' ≠ fnKey hp fn) : getFn (msix s hp fn v) hp' fn' = getFn s hp' fn' := by
  unfold msix
  simp only
  split
  · rfl
  · split
    · rfl
    · split
      · rfl
      · exact getFn_setFn_other _ _ _ _ _ _ h

theorem getFn_eq_of_fns {s t : Sys} (h : t.fns = s.fns) (hu : t.upd = s.upd) (hp fn : Nat) : getFn t hp fn = getFn s hp fn := by
  simp [getFn, h, hu]

/-- A memory write leaves every function as it was. -/
@[simp] theorem getFn_hostWrite (s : Sys) (hp fn a : Nat) (d : Bytes) (ro : Bool) (st : Option Nat) (hp' fn' : Nat) :
    getFn (hostWrite s hp fn a d ro st) hp' fn' = getFn s hp' fn' := by
  rw [hostWrite_eq]
  exact getFn_eq_of_fns rfl rfl _ _

/-- An admin event reaches its function's ring and pending interrupts, the wires and the counters. -/
theorem adminFn_eq (s : Sys) (hp fn : Nat) (e : AEv) :
    adminFn s hp fn e = { s with fns := (adminFn s hp fn e).fns, out := (adminFn s hp fn e).out, cnt := (adminFn s hp fn e).cnt } := by
  unfold adminFn
  split
  · rfl
  · simp only
    split
    · rw [msix_eq, hostWrite_eq]; rfl
    · rw [hostWrite_eq]; rfl

/-- An admin event leaves every register of its function but the ring's place and the pending interrupts. -/
theorem adminFn_fn (s : Sys) (hp fn : Nat) (e : AEv) :
    ∃ a l, getFn (adminFn s hp fn e) hp fn = { getFn s hp fn with mbx := { (getFn s hp fn).mbx with admin := a }, msixPend := l } := by
  unfold adminFn
  split
  · exact ⟨_, _, rfl⟩
  · simp only
    split
    · obtain ⟨l, h⟩ := msix_fn (hostWrite (modMbx s hp fn _) hp fn _ _ false none) hp fn
        (getFn (hostWrite (modMbx s hp fn _) hp fn _ _ false none) hp fn).mbx.vector.toNat
      rw [h, getFn_hostWrite, getFn_modMbx]
      exact ⟨_, _, rfl⟩
    · rw [getFn_hostWrite, getFn_modMbx]
      exact ⟨_, _, rfl⟩

/-- An admin event of a function leaves the others as they were. -/
theorem adminFn_other (s : Sys) (hp fn : Nat) (e : AEv) (hp' fn' : Nat) (h : fnKey hp' fn' ≠ fnKey hp fn) :
    getFn (adminFn s hp fn e) hp' fn' = getFn s hp' fn' := by
  unfold adminFn
  split
  · rfl
  · simp only
    split
    · rw [msix_other _ _ _ _ _ _ h, getFn_hostWrite]
      exact getFn_setFn_other _ _ _ _ _ _ h
    · rw [getFn_hostWrite]
      exact getFn_setFn_other _ _ _ _ _ _ h

end Sys2Proof.Machine
end

