-- ==== Sys2Proof/Laws/Frame.lean ====
section
/-! SUPPORT. What each of the plain updates of one part of the device leaves as it was: every other part. -/
namespace Sys2Proof.Machine

/-! ### A host port changed -/

@[simp] theorem modHp_time (s : Sys) (hp : Nat) (g : HPort → HPort) : (modHp s hp g).time = s.time := rfl
@[simp] theorem modHp_dev (s : Sys) (hp : Nat) (g : HPort → HPort) : (modHp s hp g).dev = s.dev := rfl
@[simp] theorem modHp_svc (s : Sys) (hp : Nat) (g : HPort → HPort) : (modHp s hp g).svc = s.svc := rfl
@[simp] theorem modHp_fns (s : Sys) (hp : Nat) (g : HPort → HPort) : (modHp s hp g).fns = s.fns := rfl
@[simp] theorem modHp_ctxs (s : Sys) (hp : Nat) (g : HPort → HPort) : (modHp s hp g).ctxs = s.ctxs := rfl
@[simp] theorem modHp_xl (s : Sys) (hp : Nat) (g : HPort → HPort) : (modHp s hp g).xl = s.xl := rfl
@[simp] theorem modHp_te (s : Sys) (hp : Nat) (g : HPort → HPort) : (modHp s hp g).te = s.te := rfl
@[simp] theorem modHp_me (s : Sys) (hp : Nat) (g : HPort → HPort) : (modHp s hp g).me = s.me := rfl
@[simp] theorem modHp_ce (s : Sys) (hp : Nat) (g : HPort → HPort) : (modHp s hp g).ce = s.ce := rfl
@[simp] theorem modHp_pe (s : Sys) (hp : Nat) (g : HPort → HPort) : (modHp s hp g).pe = s.pe := rfl
@[simp] theorem modHp_rt (s : Sys) (hp : Nat) (g : HPort → HPort) : (modHp s hp g).rt = s.rt := rfl
@[simp] theorem modHp_nps (s : Sys) (hp : Nat) (g : HPort → HPort) : (modHp s hp g).nps = s.nps := rfl
@[simp] theorem modHp_start (s : Sys) (hp : Nat) (g : HPort → HPort) : (modHp s hp g).start = s.start := rfl
@[simp] theorem modHp_pwr (s : Sys) (hp : Nat) (g : HPort → HPort) : (modHp s hp g).pwr = s.pwr := rfl
@[simp] theorem modHp_flt (s : Sys) (hp : Nat) (g : HPort → HPort) : (modHp s hp g).flt = s.flt := rfl
@[simp] theorem modHp_cnt (s : Sys) (hp : Nat) (g : HPort → HPort) : (modHp s hp g).cnt = s.cnt := rfl
@[simp] theorem modHp_log (s : Sys) (hp : Nat) (g : HPort → HPort) : (modHp s hp g).log = s.log := rfl
@[simp] theorem modHp_upd (s : Sys) (hp : Nat) (g : HPort → HPort) : (modHp s hp g).upd = s.upd := rfl
@[simp] theorem modHp_sec (s : Sys) (hp : Nat) (g : HPort → HPort) : (modHp s hp g).sec = s.sec := rfl
@[simp] theorem modHp_pins (s : Sys) (hp : Nat) (g : HPort → HPort) : (modHp s hp g).pins = s.pins := rfl
@[simp] theorem modHp_out (s : Sys) (hp : Nat) (g : HPort → HPort) : (modHp s hp g).out = s.out := rfl
@[simp] theorem modHp_free (s : Sys) (hp : Nat) (g : HPort → HPort) : (modHp s hp g).free = s.free := rfl

/-! ### A network port changed -/

@[simp] theorem modNp_svc (s : Sys) (p : Nat) (g : NPrt → NPrt) : (modNp s p g).svc = s.svc := rfl
@[simp] theorem modNp_hps (s : Sys) (p : Nat) (g : NPrt → NPrt) : (modNp s p g).hps = s.hps := rfl
@[simp] theorem modNp_xl (s : Sys) (p : Nat) (g : NPrt → NPrt) : (modNp s p g).xl = s.xl := rfl
@[simp] theorem modNp_te (s : Sys) (p : Nat) (g : NPrt → NPrt) : (modNp s p g).te = s.te := rfl
@[simp] theorem modNp_me (s : Sys) (p : Nat) (g : NPrt → NPrt) : (modNp s p g).me = s.me := rfl
@[simp] theorem modNp_ce (s : Sys) (p : Nat) (g : NPrt → NPrt) : (modNp s p g).ce = s.ce := rfl
@[simp] theorem modNp_pe (s : Sys) (p : Nat) (g : NPrt → NPrt) : (modNp s p g).pe = s.pe := rfl
@[simp] theorem modNp_start (s : Sys) (p : Nat) (g : NPrt → NPrt) : (modNp s p g).start = s.start := rfl
@[simp] theorem modNp_cnt (s : Sys) (p : Nat) (g : NPrt → NPrt) : (modNp s p g).cnt = s.cnt := rfl
@[simp] theorem modNp_log (s : Sys) (p : Nat) (g : NPrt → NPrt) : (modNp s p g).log = s.log := rfl
@[simp] theorem modNp_upd (s : Sys) (p : Nat) (g : NPrt → NPrt) : (modNp s p g).upd = s.upd := rfl
@[simp] theorem modNp_sec (s : Sys) (p : Nat) (g : NPrt → NPrt) : (modNp s p g).sec = s.sec := rfl
@[simp] theorem modNp_pins (s : Sys) (p : Nat) (g : NPrt → NPrt) : (modNp s p g).pins = s.pins := rfl
@[simp] theorem modNp_free (s : Sys) (p : Nat) (g : NPrt → NPrt) : (modNp s p g).free = s.free := rfl

/-! ### A network port of the router changed -/

@[simp] theorem modRp_time (s : Sys) (p : Nat) (g : RPort → RPort) : (modRp s p g).time = s.time := rfl
@[simp] theorem modRp_dev (s : Sys) (p : Nat) (g : RPort → RPort) : (modRp s p g).dev = s.dev := rfl
@[simp] theorem modRp_svc (s : Sys) (p : Nat) (g : RPort → RPort) : (modRp s p g).svc = s.svc := rfl
@[simp] theorem modRp_fns (s : Sys) (p : Nat) (g : RPort → RPort) : (modRp s p g).fns = s.fns := rfl
@[simp] theorem modRp_hps (s : Sys) (p : Nat) (g : RPort → RPort) : (modRp s p g).hps = s.hps := rfl
@[simp] theorem modRp_ctxs (s : Sys) (p : Nat) (g : RPort → RPort) : (modRp s p g).ctxs = s.ctxs := rfl
@[simp] theorem modRp_xl (s : Sys) (p : Nat) (g : RPort → RPort) : (modRp s p g).xl = s.xl := rfl
@[simp] theorem modRp_te (s : Sys) (p : Nat) (g : RPort → RPort) : (modRp s p g).te = s.te := rfl
@[simp] theorem modRp_me (s : Sys) (p : Nat) (g : RPort → RPort) : (modRp s p g).me = s.me := rfl
@[simp] theorem modRp_ce (s : Sys) (p : Nat) (g : RPort → RPort) : (modRp s p g).ce = s.ce := rfl
@[simp] theorem modRp_pe (s : Sys) (p : Nat) (g : RPort → RPort) : (modRp s p g).pe = s.pe := rfl
@[simp] theorem modRp_nps (s : Sys) (p : Nat) (g : RPort → RPort) : (modRp s p g).nps = s.nps := rfl
@[simp] theorem modRp_start (s : Sys) (p : Nat) (g : RPort → RPort) : (modRp s p g).start = s.start := rfl
@[simp] theorem modRp_pwr (s : Sys) (p : Nat) (g : RPort → RPort) : (modRp s p g).pwr = s.pwr := rfl
@[simp] theorem modRp_flt (s : Sys) (p : Nat) (g : RPort → RPort) : (modRp s p g).flt = s.flt := rfl
@[simp] theorem modRp_cnt (s : Sys) (p : Nat) (g : RPort → RPort) : (modRp s p g).cnt = s.cnt := rfl
@[simp] theorem modRp_log (s : Sys) (p : Nat) (g : RPort → RPort) : (modRp s p g).log = s.log := rfl
@[simp] theorem modRp_upd (s : Sys) (p : Nat) (g : RPort → RPort) : (modRp s p g).upd = s.upd := rfl
@[simp] theorem modRp_sec (s : Sys) (p : Nat) (g : RPort → RPort) : (modRp s p g).sec = s.sec := rfl
@[simp] theorem modRp_pins (s : Sys) (p : Nat) (g : RPort → RPort) : (modRp s p g).pins = s.pins := rfl
@[simp] theorem modRp_out (s : Sys) (p : Nat) (g : RPort → RPort) : (modRp s p g).out = s.out := rfl
@[simp] theorem modRp_free (s : Sys) (p : Nat) (g : RPort → RPort) : (modRp s p g).free = s.free := rfl

/-! ### A counter block changed -/

@[simp] theorem modBlk_time (s : Sys) (b : Nat) (g : Blk → Blk) : (modBlk s b g).time = s.time := rfl
@[simp] theorem modBlk_dev (s : Sys) (b : Nat) (g : Blk → Blk) : (modBlk s b g).dev = s.dev := rfl
@[simp] theorem modBlk_svc (s : Sys) (b : Nat) (g : Blk → Blk) : (modBlk s b g).svc = s.svc := rfl
@[simp] theorem modBlk_fns (s : Sys) (b : Nat) (g : Blk → Blk) : (modBlk s b g).fns = s.fns := rfl
@[simp] theorem modBlk_hps (s : Sys) (b : Nat) (g : Blk → Blk) : (modBlk s b g).hps = s.hps := rfl
@[simp] theorem modBlk_ctxs (s : Sys) (b : Nat) (g : Blk → Blk) : (modBlk s b g).ctxs = s.ctxs := rfl
@[simp] theorem modBlk_xl (s : Sys) (b : Nat) (g : Blk → Blk) : (modBlk s b g).xl = s.xl := rfl
@[simp] theorem modBlk_te (s : Sys) (b : Nat) (g : Blk → Blk) : (modBlk s b g).te = s.te := rfl
@[simp] theorem modBlk_me (s : Sys) (b : Nat) (g : Blk → Blk) : (modBlk s b g).me = s.me := rfl
@[simp] theorem modBlk_ce (s : Sys) (b : Nat) (g : Blk → Blk) : (modBlk s b g).ce = s.ce := rfl
@[simp] theorem modBlk_pe (s : Sys) (b : Nat) (g : Blk → Blk) : (modBlk s b g).pe = s.pe := rfl
@[simp] theorem modBlk_rt (s : Sys) (b : Nat) (g : Blk → Blk) : (modBlk s b g).rt = s.rt := rfl
@[simp] theorem modBlk_nps (s : Sys) (b : Nat) (g : Blk → Blk) : (modBlk s b g).nps = s.nps := rfl
@[simp] theorem modBlk_start (s : Sys) (b : Nat) (g : Blk → Blk) : (modBlk s b g).start = s.start := rfl
@[simp] theorem modBlk_pwr (s : Sys) (b : Nat) (g : Blk → Blk) : (modBlk s b g).pwr = s.pwr := rfl
@[simp] theorem modBlk_flt (s : Sys) (b : Nat) (g : Blk → Blk) : (modBlk s b g).flt = s.flt := rfl
@[simp] theorem modBlk_log (s : Sys) (b : Nat) (g : Blk → Blk) : (modBlk s b g).log = s.log := rfl
@[simp] theorem modBlk_upd (s : Sys) (b : Nat) (g : Blk → Blk) : (modBlk s b g).upd = s.upd := rfl
@[simp] theorem modBlk_sec (s : Sys) (b : Nat) (g : Blk → Blk) : (modBlk s b g).sec = s.sec := rfl
@[simp] theorem modBlk_pins (s : Sys) (b : Nat) (g : Blk → Blk) : (modBlk s b g).pins = s.pins := rfl
@[simp] theorem modBlk_out (s : Sys) (b : Nat) (g : Blk → Blk) : (modBlk s b g).out = s.out := rfl
@[simp] theorem modBlk_free (s : Sys) (b : Nat) (g : Blk → Blk) : (modBlk s b g).free = s.free := rfl

/-! ### A fault source changed -/

@[simp] theorem modSrc_time (s : Sys) (k : Nat) (g : FSrc → FSrc) : (modSrc s k g).time = s.time := rfl
@[simp] theorem modSrc_dev (s : Sys) (k : Nat) (g : FSrc → FSrc) : (modSrc s k g).dev = s.dev := rfl
@[simp] theorem modSrc_svc (s : Sys) (k : Nat) (g : FSrc → FSrc) : (modSrc s k g).svc = s.svc := rfl
@[simp] theorem modSrc_fns (s : Sys) (k : Nat) (g : FSrc → FSrc) : (modSrc s k g).fns = s.fns := rfl
@[simp] theorem modSrc_hps (s : Sys) (k : Nat) (g : FSrc → FSrc) : (modSrc s k g).hps = s.hps := rfl
@[simp] theorem modSrc_ctxs (s : Sys) (k : Nat) (g : FSrc → FSrc) : (modSrc s k g).ctxs = s.ctxs := rfl
@[simp] theorem modSrc_xl (s : Sys) (k : Nat) (g : FSrc → FSrc) : (modSrc s k g).xl = s.xl := rfl
@[simp] theorem modSrc_te (s : Sys) (k : Nat) (g : FSrc → FSrc) : (modSrc s k g).te = s.te := rfl
@[simp] theorem modSrc_me (s : Sys) (k : Nat) (g : FSrc → FSrc) : (modSrc s k g).me = s.me := rfl
@[simp] theorem modSrc_ce (s : Sys) (k : Nat) (g : FSrc → FSrc) : (modSrc s k g).ce = s.ce := rfl
@[simp] theorem modSrc_pe (s : Sys) (k : Nat) (g : FSrc → FSrc) : (modSrc s k g).pe = s.pe := rfl
@[simp] theorem modSrc_rt (s : Sys) (k : Nat) (g : FSrc → FSrc) : (modSrc s k g).rt = s.rt := rfl
@[simp] theorem modSrc_nps (s : Sys) (k : Nat) (g : FSrc → FSrc) : (modSrc s k g).nps = s.nps := rfl
@[simp] theorem modSrc_start (s : Sys) (k : Nat) (g : FSrc → FSrc) : (modSrc s k g).start = s.start := rfl
@[simp] theorem modSrc_pwr (s : Sys) (k : Nat) (g : FSrc → FSrc) : (modSrc s k g).pwr = s.pwr := rfl
@[simp] theorem modSrc_cnt (s : Sys) (k : Nat) (g : FSrc → FSrc) : (modSrc s k g).cnt = s.cnt := rfl
@[simp] theorem modSrc_log (s : Sys) (k : Nat) (g : FSrc → FSrc) : (modSrc s k g).log = s.log := rfl
@[simp] theorem modSrc_upd (s : Sys) (k : Nat) (g : FSrc → FSrc) : (modSrc s k g).upd = s.upd := rfl
@[simp] theorem modSrc_sec (s : Sys) (k : Nat) (g : FSrc → FSrc) : (modSrc s k g).sec = s.sec := rfl
@[simp] theorem modSrc_pins (s : Sys) (k : Nat) (g : FSrc → FSrc) : (modSrc s k g).pins = s.pins := rfl
@[simp] theorem modSrc_out (s : Sys) (k : Nat) (g : FSrc → FSrc) : (modSrc s k g).out = s.out := rfl
@[simp] theorem modSrc_free (s : Sys) (k : Nat) (g : FSrc → FSrc) : (modSrc s k g).free = s.free := rfl

/-! ### A cage changed -/

@[simp] theorem modCage_time (s : Sys) (c : Nat) (g : Cage → Cage) : (modCage s c g).time = s.time := rfl
@[simp] theorem modCage_dev (s : Sys) (c : Nat) (g : Cage → Cage) : (modCage s c g).dev = s.dev := rfl
@[simp] theorem modCage_svc (s : Sys) (c : Nat) (g : Cage → Cage) : (modCage s c g).svc = s.svc := rfl
@[simp] theorem modCage_fns (s : Sys) (c : Nat) (g : Cage → Cage) : (modCage s c g).fns = s.fns := rfl
@[simp] theorem modCage_hps (s : Sys) (c : Nat) (g : Cage → Cage) : (modCage s c g).hps = s.hps := rfl
@[simp] theorem modCage_ctxs (s : Sys) (c : Nat) (g : Cage → Cage) : (modCage s c g).ctxs = s.ctxs := rfl
@[simp] theorem modCage_xl (s : Sys) (c : Nat) (g : Cage → Cage) : (modCage s c g).xl = s.xl := rfl
@[simp] theorem modCage_te (s : Sys) (c : Nat) (g : Cage → Cage) : (modCage s c g).te = s.te := rfl
@[simp] theorem modCage_me (s : Sys) (c : Nat) (g : Cage → Cage) : (modCage s c g).me = s.me := rfl
@[simp] theorem modCage_ce (s : Sys) (c : Nat) (g : Cage → Cage) : (modCage s c g).ce = s.ce := rfl
@[simp] theorem modCage_pe (s : Sys) (c : Nat) (g : Cage → Cage) : (modCage s c g).pe = s.pe := rfl
@[simp] theorem modCage_rt (s : Sys) (c : Nat) (g : Cage → Cage) : (modCage s c g).rt = s.rt := rfl
@[simp] theorem modCage_nps (s : Sys) (c : Nat) (g : Cage → Cage) : (modCage s c g).nps = s.nps := rfl
@[simp] theorem modCage_start (s : Sys) (c : Nat) (g : Cage → Cage) : (modCage s c g).start = s.start := rfl
@[simp] theorem modCage_flt (s : Sys) (c : Nat) (g : Cage → Cage) : (modCage s c g).flt = s.flt := rfl
@[simp] theorem modCage_cnt (s : Sys) (c : Nat) (g : Cage → Cage) : (modCage s c g).cnt = s.cnt := rfl
@[simp] theorem modCage_log (s : Sys) (c : Nat) (g : Cage → Cage) : (modCage s c g).log = s.log := rfl
@[simp] theorem modCage_upd (s : Sys) (c : Nat) (g : Cage → Cage) : (modCage s c g).upd = s.upd := rfl
@[simp] theorem modCage_sec (s : Sys) (c : Nat) (g : Cage → Cage) : (modCage s c g).sec = s.sec := rfl
@[simp] theorem modCage_pins (s : Sys) (c : Nat) (g : Cage → Cage) : (modCage s c g).pins = s.pins := rfl
@[simp] theorem modCage_out (s : Sys) (c : Nat) (g : Cage → Cage) : (modCage s c g).out = s.out := rfl
@[simp] theorem modCage_free (s : Sys) (c : Nat) (g : Cage → Cage) : (modCage s c g).free = s.free := rfl

/-! ### A image slot changed -/

@[simp] theorem modSlot_time (s : Sys) (k : Nat) (g : Slot → Slot) : (modSlot s k g).time = s.time := rfl
@[simp] theorem modSlot_dev (s : Sys) (k : Nat) (g : Slot → Slot) : (modSlot s k g).dev = s.dev := rfl
@[simp] theorem modSlot_svc (s : Sys) (k : Nat) (g : Slot → Slot) : (modSlot s k g).svc = s.svc := rfl
@[simp] theorem modSlot_fns (s : Sys) (k : Nat) (g : Slot → Slot) : (modSlot s k g).fns = s.fns := rfl
@[simp] theorem modSlot_hps (s : Sys) (k : Nat) (g : Slot → Slot) : (modSlot s k g).hps = s.hps := rfl
@[simp] theorem modSlot_ctxs (s : Sys) (k : Nat) (g : Slot → Slot) : (modSlot s k g).ctxs = s.ctxs := rfl
@[simp] theorem modSlot_xl (s : Sys) (k : Nat) (g : Slot → Slot) : (modSlot s k g).xl = s.xl := rfl
@[simp] theorem modSlot_te (s : Sys) (k : Nat) (g : Slot → Slot) : (modSlot s k g).te = s.te := rfl
@[simp] theorem modSlot_me (s : Sys) (k : Nat) (g : Slot → Slot) : (modSlot s k g).me = s.me := rfl
@[simp] theorem modSlot_ce (s : Sys) (k : Nat) (g : Slot → Slot) : (modSlot s k g).ce = s.ce := rfl
@[simp] theorem modSlot_pe (s : Sys) (k : Nat) (g : Slot → Slot) : (modSlot s k g).pe = s.pe := rfl
@[simp] theorem modSlot_rt (s : Sys) (k : Nat) (g : Slot → Slot) : (modSlot s k g).rt = s.rt := rfl
@[simp] theorem modSlot_nps (s : Sys) (k : Nat) (g : Slot → Slot) : (modSlot s k g).nps = s.nps := rfl
@[simp] theorem modSlot_start (s : Sys) (k : Nat) (g : Slot → Slot) : (modSlot s k g).start = s.start := rfl
@[simp] theorem modSlot_pwr (s : Sys) (k : Nat) (g : Slot → Slot) : (modSlot s k g).pwr = s.pwr := rfl
@[simp] theorem modSlot_flt (s : Sys) (k : Nat) (g : Slot → Slot) : (modSlot s k g).flt = s.flt := rfl
@[simp] theorem modSlot_cnt (s : Sys) (k : Nat) (g : Slot → Slot) : (modSlot s k g).cnt = s.cnt := rfl
@[simp] theorem modSlot_log (s : Sys) (k : Nat) (g : Slot → Slot) : (modSlot s k g).log = s.log := rfl
@[simp] theorem modSlot_sec (s : Sys) (k : Nat) (g : Slot → Slot) : (modSlot s k g).sec = s.sec := rfl
@[simp] theorem modSlot_pins (s : Sys) (k : Nat) (g : Slot → Slot) : (modSlot s k g).pins = s.pins := rfl
@[simp] theorem modSlot_out (s : Sys) (k : Nat) (g : Slot → Slot) : (modSlot s k g).out = s.out := rfl
@[simp] theorem modSlot_free (s : Sys) (k : Nat) (g : Slot → Slot) : (modSlot s k g).free = s.free := rfl

/-! ### A peer changed -/

@[simp] theorem modPeer_time (s : Sys) (dev : Nat) (g : Peer → Peer) : (modPeer s dev g).time = s.time := rfl
@[simp] theorem modPeer_dev (s : Sys) (dev : Nat) (g : Peer → Peer) : (modPeer s dev g).dev = s.dev := rfl
@[simp] theorem modPeer_svc (s : Sys) (dev : Nat) (g : Peer → Peer) : (modPeer s dev g).svc = s.svc := rfl
@[simp] theorem modPeer_fns (s : Sys) (dev : Nat) (g : Peer → Peer) : (modPeer s dev g).fns = s.fns := rfl
@[simp] theorem modPeer_hps (s : Sys) (dev : Nat) (g : Peer → Peer) : (modPeer s dev g).hps = s.hps := rfl
@[simp] theorem modPeer_ctxs (s : Sys) (dev : Nat) (g : Peer → Peer) : (modPeer s dev g).ctxs = s.ctxs := rfl
@[simp] theorem modPeer_xl (s : Sys) (dev : Nat) (g : Peer → Peer) : (modPeer s dev g).xl = s.xl := rfl
@[simp] theorem modPeer_me (s : Sys) (dev : Nat) (g : Peer → Peer) : (modPeer s dev g).me = s.me := rfl
@[simp] theorem modPeer_ce (s : Sys) (dev : Nat) (g : Peer → Peer) : (modPeer s dev g).ce = s.ce := rfl
@[simp] theorem modPeer_pe (s : Sys) (dev : Nat) (g : Peer → Peer) : (modPeer s dev g).pe = s.pe := rfl
@[simp] theorem modPeer_rt (s : Sys) (dev : Nat) (g : Peer → Peer) : (modPeer s dev g).rt = s.rt := rfl
@[simp] theorem modPeer_nps (s : Sys) (dev : Nat) (g : Peer → Peer) : (modPeer s dev g).nps = s.nps := rfl
@[simp] theorem modPeer_start (s : Sys) (dev : Nat) (g : Peer → Peer) : (modPeer s dev g).start = s.start := rfl
@[simp] theorem modPeer_pwr (s : Sys) (dev : Nat) (g : Peer → Peer) : (modPeer s dev g).pwr = s.pwr := rfl
@[simp] theorem modPeer_flt (s : Sys) (dev : Nat) (g : Peer → Peer) : (modPeer s dev g).flt = s.flt := rfl
@[simp] theorem modPeer_cnt (s : Sys) (dev : Nat) (g : Peer → Peer) : (modPeer s dev g).cnt = s.cnt := rfl
@[simp] theorem modPeer_log (s : Sys) (dev : Nat) (g : Peer → Peer) : (modPeer s dev g).log = s.log := rfl
@[simp] theorem modPeer_upd (s : Sys) (dev : Nat) (g : Peer → Peer) : (modPeer s dev g).upd = s.upd := rfl
@[simp] theorem modPeer_sec (s : Sys) (dev : Nat) (g : Peer → Peer) : (modPeer s dev g).sec = s.sec := rfl
@[simp] theorem modPeer_pins (s : Sys) (dev : Nat) (g : Peer → Peer) : (modPeer s dev g).pins = s.pins := rfl
@[simp] theorem modPeer_out (s : Sys) (dev : Nat) (g : Peer → Peer) : (modPeer s dev g).out = s.out := rfl
@[simp] theorem modPeer_free (s : Sys) (dev : Nat) (g : Peer → Peer) : (modPeer s dev g).free = s.free := rfl

/-! ### A operation changed -/

@[simp] theorem modOp_time (s : Sys) (id : Nat) (g : Op → Op) : (modOp s id g).time = s.time := rfl
@[simp] theorem modOp_dev (s : Sys) (id : Nat) (g : Op → Op) : (modOp s id g).dev = s.dev := rfl
@[simp] theorem modOp_svc (s : Sys) (id : Nat) (g : Op → Op) : (modOp s id g).svc = s.svc := rfl
@[simp] theorem modOp_fns (s : Sys) (id : Nat) (g : Op → Op) : (modOp s id g).fns = s.fns := rfl
@[simp] theorem modOp_hps (s : Sys) (id : Nat) (g : Op → Op) : (modOp s id g).hps = s.hps := rfl
@[simp] theorem modOp_ctxs (s : Sys) (id : Nat) (g : Op → Op) : (modOp s id g).ctxs = s.ctxs := rfl
@[simp] theorem modOp_xl (s : Sys) (id : Nat) (g : Op → Op) : (modOp s id g).xl = s.xl := rfl
@[simp] theorem modOp_me (s : Sys) (id : Nat) (g : Op → Op) : (modOp s id g).me = s.me := rfl
@[simp] theorem modOp_ce (s : Sys) (id : Nat) (g : Op → Op) : (modOp s id g).ce = s.ce := rfl
@[simp] theorem modOp_pe (s : Sys) (id : Nat) (g : Op → Op) : (modOp s id g).pe = s.pe := rfl
@[simp] theorem modOp_rt (s : Sys) (id : Nat) (g : Op → Op) : (modOp s id g).rt = s.rt := rfl
@[simp] theorem modOp_nps (s : Sys) (id : Nat) (g : Op → Op) : (modOp s id g).nps = s.nps := rfl
@[simp] theorem modOp_start (s : Sys) (id : Nat) (g : Op → Op) : (modOp s id g).start = s.start := rfl
@[simp] theorem modOp_pwr (s : Sys) (id : Nat) (g : Op → Op) : (modOp s id g).pwr = s.pwr := rfl
@[simp] theorem modOp_flt (s : Sys) (id : Nat) (g : Op → Op) : (modOp s id g).flt = s.flt := rfl
@[simp] theorem modOp_cnt (s : Sys) (id : Nat) (g : Op → Op) : (modOp s id g).cnt = s.cnt := rfl
@[simp] theorem modOp_log (s : Sys) (id : Nat) (g : Op → Op) : (modOp s id g).log = s.log := rfl
@[simp] theorem modOp_upd (s : Sys) (id : Nat) (g : Op → Op) : (modOp s id g).upd = s.upd := rfl
@[simp] theorem modOp_sec (s : Sys) (id : Nat) (g : Op → Op) : (modOp s id g).sec = s.sec := rfl
@[simp] theorem modOp_pins (s : Sys) (id : Nat) (g : Op → Op) : (modOp s id g).pins = s.pins := rfl
@[simp] theorem modOp_out (s : Sys) (id : Nat) (g : Op → Op) : (modOp s id g).out = s.out := rfl
@[simp] theorem modOp_free (s : Sys) (id : Nat) (g : Op → Op) : (modOp s id g).free = s.free := rfl

/-! ### A tracked segment changed -/

@[simp] theorem modSeg_time (s : Sys) (idx : Nat) (f : Seg → Seg) : (modSeg s idx f).time = s.time := rfl
@[simp] theorem modSeg_dev (s : Sys) (idx : Nat) (f : Seg → Seg) : (modSeg s idx f).dev = s.dev := rfl
@[simp] theorem modSeg_svc (s : Sys) (idx : Nat) (f : Seg → Seg) : (modSeg s idx f).svc = s.svc := rfl
@[simp] theorem modSeg_fns (s : Sys) (idx : Nat) (f : Seg → Seg) : (modSeg s idx f).fns = s.fns := rfl
@[simp] theorem modSeg_hps (s : Sys) (idx : Nat) (f : Seg → Seg) : (modSeg s idx f).hps = s.hps := rfl
@[simp] theorem modSeg_ctxs (s : Sys) (idx : Nat) (f : Seg → Seg) : (modSeg s idx f).ctxs = s.ctxs := rfl
@[simp] theorem modSeg_xl (s : Sys) (idx : Nat) (f : Seg → Seg) : (modSeg s idx f).xl = s.xl := rfl
@[simp] theorem modSeg_me (s : Sys) (idx : Nat) (f : Seg → Seg) : (modSeg s idx f).me = s.me := rfl
@[simp] theorem modSeg_ce (s : Sys) (idx : Nat) (f : Seg → Seg) : (modSeg s idx f).ce = s.ce := rfl
@[simp] theorem modSeg_pe (s : Sys) (idx : Nat) (f : Seg → Seg) : (modSeg s idx f).pe = s.pe := rfl
@[simp] theorem modSeg_rt (s : Sys) (idx : Nat) (f : Seg → Seg) : (modSeg s idx f).rt = s.rt := rfl
@[simp] theorem modSeg_nps (s : Sys) (idx : Nat) (f : Seg → Seg) : (modSeg s idx f).nps = s.nps := rfl
@[simp] theorem modSeg_start (s : Sys) (idx : Nat) (f : Seg → Seg) : (modSeg s idx f).start = s.start := rfl
@[simp] theorem modSeg_pwr (s : Sys) (idx : Nat) (f : Seg → Seg) : (modSeg s idx f).pwr = s.pwr := rfl
@[simp] theorem modSeg_flt (s : Sys) (idx : Nat) (f : Seg → Seg) : (modSeg s idx f).flt = s.flt := rfl
@[simp] theorem modSeg_cnt (s : Sys) (idx : Nat) (f : Seg → Seg) : (modSeg s idx f).cnt = s.cnt := rfl
@[simp] theorem modSeg_log (s : Sys) (idx : Nat) (f : Seg → Seg) : (modSeg s idx f).log = s.log := rfl
@[simp] theorem modSeg_upd (s : Sys) (idx : Nat) (f : Seg → Seg) : (modSeg s idx f).upd = s.upd := rfl
@[simp] theorem modSeg_sec (s : Sys) (idx : Nat) (f : Seg → Seg) : (modSeg s idx f).sec = s.sec := rfl
@[simp] theorem modSeg_pins (s : Sys) (idx : Nat) (f : Seg → Seg) : (modSeg s idx f).pins = s.pins := rfl
@[simp] theorem modSeg_out (s : Sys) (idx : Nat) (f : Seg → Seg) : (modSeg s idx f).out = s.out := rfl
@[simp] theorem modSeg_free (s : Sys) (idx : Nat) (f : Seg → Seg) : (modSeg s idx f).free = s.free := rfl

/-! ### A message changed -/

@[simp] theorem modMsg_time (s : Sys) (id : Nat) (g : Msg → Msg) : (modMsg s id g).time = s.time := rfl
@[simp] theorem modMsg_dev (s : Sys) (id : Nat) (g : Msg → Msg) : (modMsg s id g).dev = s.dev := rfl
@[simp] theorem modMsg_svc (s : Sys) (id : Nat) (g : Msg → Msg) : (modMsg s id g).svc = s.svc := rfl
@[simp] theorem modMsg_fns (s : Sys) (id : Nat) (g : Msg → Msg) : (modMsg s id g).fns = s.fns := rfl
@[simp] theorem modMsg_hps (s : Sys) (id : Nat) (g : Msg → Msg) : (modMsg s id g).hps = s.hps := rfl
@[simp] theorem modMsg_ctxs (s : Sys) (id : Nat) (g : Msg → Msg) : (modMsg s id g).ctxs = s.ctxs := rfl
@[simp] theorem modMsg_xl (s : Sys) (id : Nat) (g : Msg → Msg) : (modMsg s id g).xl = s.xl := rfl
@[simp] theorem modMsg_te (s : Sys) (id : Nat) (g : Msg → Msg) : (modMsg s id g).te = s.te := rfl
@[simp] theorem modMsg_ce (s : Sys) (id : Nat) (g : Msg → Msg) : (modMsg s id g).ce = s.ce := rfl
@[simp] theorem modMsg_pe (s : Sys) (id : Nat) (g : Msg → Msg) : (modMsg s id g).pe = s.pe := rfl
@[simp] theorem modMsg_rt (s : Sys) (id : Nat) (g : Msg → Msg) : (modMsg s id g).rt = s.rt := rfl
@[simp] theorem modMsg_nps (s : Sys) (id : Nat) (g : Msg → Msg) : (modMsg s id g).nps = s.nps := rfl
@[simp] theorem modMsg_start (s : Sys) (id : Nat) (g : Msg → Msg) : (modMsg s id g).start = s.start := rfl
@[simp] theorem modMsg_pwr (s : Sys) (id : Nat) (g : Msg → Msg) : (modMsg s id g).pwr = s.pwr := rfl
@[simp] theorem modMsg_flt (s : Sys) (id : Nat) (g : Msg → Msg) : (modMsg s id g).flt = s.flt := rfl
@[simp] theorem modMsg_cnt (s : Sys) (id : Nat) (g : Msg → Msg) : (modMsg s id g).cnt = s.cnt := rfl
@[simp] theorem modMsg_log (s : Sys) (id : Nat) (g : Msg → Msg) : (modMsg s id g).log = s.log := rfl
@[simp] theorem modMsg_upd (s : Sys) (id : Nat) (g : Msg → Msg) : (modMsg s id g).upd = s.upd := rfl
@[simp] theorem modMsg_sec (s : Sys) (id : Nat) (g : Msg → Msg) : (modMsg s id g).sec = s.sec := rfl
@[simp] theorem modMsg_pins (s : Sys) (id : Nat) (g : Msg → Msg) : (modMsg s id g).pins = s.pins := rfl
@[simp] theorem modMsg_out (s : Sys) (id : Nat) (g : Msg → Msg) : (modMsg s id g).out = s.out := rfl
@[simp] theorem modMsg_free (s : Sys) (id : Nat) (g : Msg → Msg) : (modMsg s id g).free = s.free := rfl

/-! ### A assembly entry changed -/

@[simp] theorem modAsm_time (s : Sys) (dev osn : Nat) (g : Asm → Asm) : (modAsm s dev osn g).time = s.time := rfl
@[simp] theorem modAsm_dev (s : Sys) (dev osn : Nat) (g : Asm → Asm) : (modAsm s dev osn g).dev = s.dev := rfl
@[simp] theorem modAsm_svc (s : Sys) (dev osn : Nat) (g : Asm → Asm) : (modAsm s dev osn g).svc = s.svc := rfl
@[simp] theorem modAsm_fns (s : Sys) (dev osn : Nat) (g : Asm → Asm) : (modAsm s dev osn g).fns = s.fns := rfl
@[simp] theorem modAsm_hps (s : Sys) (dev osn : Nat) (g : Asm → Asm) : (modAsm s dev osn g).hps = s.hps := rfl
@[simp] theorem modAsm_ctxs (s : Sys) (dev osn : Nat) (g : Asm → Asm) : (modAsm s dev osn g).ctxs = s.ctxs := rfl
@[simp] theorem modAsm_xl (s : Sys) (dev osn : Nat) (g : Asm → Asm) : (modAsm s dev osn g).xl = s.xl := rfl
@[simp] theorem modAsm_me (s : Sys) (dev osn : Nat) (g : Asm → Asm) : (modAsm s dev osn g).me = s.me := rfl
@[simp] theorem modAsm_ce (s : Sys) (dev osn : Nat) (g : Asm → Asm) : (modAsm s dev osn g).ce = s.ce := rfl
@[simp] theorem modAsm_pe (s : Sys) (dev osn : Nat) (g : Asm → Asm) : (modAsm s dev osn g).pe = s.pe := rfl
@[simp] theorem modAsm_rt (s : Sys) (dev osn : Nat) (g : Asm → Asm) : (modAsm s dev osn g).rt = s.rt := rfl
@[simp] theorem modAsm_nps (s : Sys) (dev osn : Nat) (g : Asm → Asm) : (modAsm s dev osn g).nps = s.nps := rfl
@[simp] theorem modAsm_start (s : Sys) (dev osn : Nat) (g : Asm → Asm) : (modAsm s dev osn g).start = s.start := rfl
@[simp] theorem modAsm_pwr (s : Sys) (dev osn : Nat) (g : Asm → Asm) : (modAsm s dev osn g).pwr = s.pwr := rfl
@[simp] theorem modAsm_flt (s : Sys) (dev osn : Nat) (g : Asm → Asm) : (modAsm s dev osn g).flt = s.flt := rfl
@[simp] theorem modAsm_cnt (s : Sys) (dev osn : Nat) (g : Asm → Asm) : (modAsm s dev osn g).cnt = s.cnt := rfl
@[simp] theorem modAsm_log (s : Sys) (dev osn : Nat) (g : Asm → Asm) : (modAsm s dev osn g).log = s.log := rfl
@[simp] theorem modAsm_upd (s : Sys) (dev osn : Nat) (g : Asm → Asm) : (modAsm s dev osn g).upd = s.upd := rfl
@[simp] theorem modAsm_sec (s : Sys) (dev osn : Nat) (g : Asm → Asm) : (modAsm s dev osn g).sec = s.sec := rfl
@[simp] theorem modAsm_pins (s : Sys) (dev osn : Nat) (g : Asm → Asm) : (modAsm s dev osn g).pins = s.pins := rfl
@[simp] theorem modAsm_out (s : Sys) (dev osn : Nat) (g : Asm → Asm) : (modAsm s dev osn g).out = s.out := rfl
@[simp] theorem modAsm_free (s : Sys) (dev osn : Nat) (g : Asm → Asm) : (modAsm s dev osn g).free = s.free := rfl

/-! ### A wire changed -/

@[simp] theorem emit_time (s : Sys) (o : Out) : (emit s o).time = s.time := rfl
@[simp] theorem emit_dev (s : Sys) (o : Out) : (emit s o).dev = s.dev := rfl
@[simp] theorem emit_svc (s : Sys) (o : Out) : (emit s o).svc = s.svc := rfl
@[simp] theorem emit_hps (s : Sys) (o : Out) : (emit s o).hps = s.hps := rfl
@[simp] theorem emit_ctxs (s : Sys) (o : Out) : (emit s o).ctxs = s.ctxs := rfl
@[simp] theorem emit_xl (s : Sys) (o : Out) : (emit s o).xl = s.xl := rfl
@[simp] theorem emit_te (s : Sys) (o : Out) : (emit s o).te = s.te := rfl
@[simp] theorem emit_me (s : Sys) (o : Out) : (emit s o).me = s.me := rfl
@[simp] theorem emit_ce (s : Sys) (o : Out) : (emit s o).ce = s.ce := rfl
@[simp] theorem emit_pe (s : Sys) (o : Out) : (emit s o).pe = s.pe := rfl
@[simp] theorem emit_rt (s : Sys) (o : Out) : (emit s o).rt = s.rt := rfl
@[simp] theorem emit_nps (s : Sys) (o : Out) : (emit s o).nps = s.nps := rfl
@[simp] theorem emit_start (s : Sys) (o : Out) : (emit s o).start = s.start := rfl
@[simp] theorem emit_pwr (s : Sys) (o : Out) : (emit s o).pwr = s.pwr := rfl
@[simp] theorem emit_flt (s : Sys) (o : Out) : (emit s o).flt = s.flt := rfl
@[simp] theorem emit_cnt (s : Sys) (o : Out) : (emit s o).cnt = s.cnt := rfl
@[simp] theorem emit_log (s : Sys) (o : Out) : (emit s o).log = s.log := rfl
@[simp] theorem emit_upd (s : Sys) (o : Out) : (emit s o).upd = s.upd := rfl
@[simp] theorem emit_sec (s : Sys) (o : Out) : (emit s o).sec = s.sec := rfl
@[simp] theorem emit_pins (s : Sys) (o : Out) : (emit s o).pins = s.pins := rfl
@[simp] theorem emit_free (s : Sys) (o : Out) : (emit s o).free = s.free := rfl

/-! ### A free value changed -/

@[simp] theorem draw_time (s : Sys) : (draw s).time = s.time := rfl
@[simp] theorem draw_dev (s : Sys) : (draw s).dev = s.dev := rfl
@[simp] theorem draw_svc (s : Sys) : (draw s).svc = s.svc := rfl
@[simp] theorem draw_fns (s : Sys) : (draw s).fns = s.fns := rfl
@[simp] theorem draw_hps (s : Sys) : (draw s).hps = s.hps := rfl
@[simp] theorem draw_ctxs (s : Sys) : (draw s).ctxs = s.ctxs := rfl
@[simp] theorem draw_xl (s : Sys) : (draw s).xl = s.xl := rfl
@[simp] theorem draw_te (s : Sys) : (draw s).te = s.te := rfl
@[simp] theorem draw_me (s : Sys) : (draw s).me = s.me := rfl
@[simp] theorem draw_ce (s : Sys) : (draw s).ce = s.ce := rfl
@[simp] theorem draw_pe (s : Sys) : (draw s).pe = s.pe := rfl
@[simp] theorem draw_rt (s : Sys) : (draw s).rt = s.rt := rfl
@[simp] theorem draw_nps (s : Sys) : (draw s).nps = s.nps := rfl
@[simp] theorem draw_start (s : Sys) : (draw s).start = s.start := rfl
@[simp] theorem draw_pwr (s : Sys) : (draw s).pwr = s.pwr := rfl
@[simp] theorem draw_flt (s : Sys) : (draw s).flt = s.flt := rfl
@[simp] theorem draw_cnt (s : Sys) : (draw s).cnt = s.cnt := rfl
@[simp] theorem draw_log (s : Sys) : (draw s).log = s.log := rfl
@[simp] theorem draw_upd (s : Sys) : (draw s).upd = s.upd := rfl
@[simp] theorem draw_sec (s : Sys) : (draw s).sec = s.sec := rfl
@[simp] theorem draw_pins (s : Sys) : (draw s).pins = s.pins := rfl
@[simp] theorem draw_out (s : Sys) : (draw s).out = s.out := rfl

end Sys2Proof.Machine
end

