-- ==== Sys2Proof/Laws/Mailbox.lean ====
section
/-! SUPPORT. What the mailbox service does, said once: a request that is taken, refused, ended at once or kept waiting; and the fields that its
shared operations leave alone. -/
namespace Sys2Proof.Machine

theorem passes_iff {c : Spec} {s : State} {q : MbxReq} :
    passes c s q = true ↔
      (takes c.opcode s.sys q = true ∧ preCheck c s.fuse (reached s.sys q) q = none) ∧ lcBusy c s.sys = false := by simp [passes]

/-- A message that is heard changes the buses noted and nothing else. -/
theorem reached_eq (s : Sys) (q : MbxReq) :
    reached s q = { s with svc := { s.svc with onPcie := (reached s q).svc.onPcie, onI3c := (reached s q).svc.onI3c } } := by
  unfold reached
  split <;> rfl

@[simp] theorem reached_time (s : Sys) (q : MbxReq) : (reached s q).time = s.time := by rw [reached_eq]
@[simp] theorem reached_dev (s : Sys) (q : MbxReq) : (reached s q).dev = s.dev := by rw [reached_eq]
@[simp] theorem reached_fns (s : Sys) (q : MbxReq) : (reached s q).fns = s.fns := by rw [reached_eq]
@[simp] theorem reached_hps (s : Sys) (q : MbxReq) : (reached s q).hps = s.hps := by rw [reached_eq]
@[simp] theorem reached_ctxs (s : Sys) (q : MbxReq) : (reached s q).ctxs = s.ctxs := by rw [reached_eq]
@[simp] theorem reached_xl (s : Sys) (q : MbxReq) : (reached s q).xl = s.xl := by rw [reached_eq]
@[simp] theorem reached_te (s : Sys) (q : MbxReq) : (reached s q).te = s.te := by rw [reached_eq]
@[simp] theorem reached_me (s : Sys) (q : MbxReq) : (reached s q).me = s.me := by rw [reached_eq]
@[simp] theorem reached_ce (s : Sys) (q : MbxReq) : (reached s q).ce = s.ce := by rw [reached_eq]
@[simp] theorem reached_pe (s : Sys) (q : MbxReq) : (reached s q).pe = s.pe := by rw [reached_eq]
@[simp] theorem reached_rt (s : Sys) (q : MbxReq) : (reached s q).rt = s.rt := by rw [reached_eq]
@[simp] theorem reached_nps (s : Sys) (q : MbxReq) : (reached s q).nps = s.nps := by rw [reached_eq]
@[simp] theorem reached_start (s : Sys) (q : MbxReq) : (reached s q).start = s.start := by rw [reached_eq]
@[simp] theorem reached_pwr (s : Sys) (q : MbxReq) : (reached s q).pwr = s.pwr := by rw [reached_eq]
@[simp] theorem reached_flt (s : Sys) (q : MbxReq) : (reached s q).flt = s.flt := by rw [reached_eq]
@[simp] theorem reached_cnt (s : Sys) (q : MbxReq) : (reached s q).cnt = s.cnt := by rw [reached_eq]
@[simp] theorem reached_log (s : Sys) (q : MbxReq) : (reached s q).log = s.log := by rw [reached_eq]
@[simp] theorem reached_upd (s : Sys) (q : MbxReq) : (reached s q).upd = s.upd := by rw [reached_eq]
@[simp] theorem reached_sec (s : Sys) (q : MbxReq) : (reached s q).sec = s.sec := by rw [reached_eq]
@[simp] theorem reached_pins (s : Sys) (q : MbxReq) : (reached s q).pins = s.pins := by rw [reached_eq]
@[simp] theorem reached_out (s : Sys) (q : MbxReq) : (reached s q).out = s.out := by rw [reached_eq]
@[simp] theorem reached_free (s : Sys) (q : MbxReq) : (reached s q).free = s.free := by rw [reached_eq]

/-- The use of a request's session changes the sessions, the staging lock and the buses noted, and nothing else. -/
theorem used_eq (s : State) (q : MbxReq) : used s q = { s.sys with
    svc := (used s q).svc, upd := { s.sys.upd with lock := (used s q).upd.lock },
    sec := { s.sys.sec with sessions := (used s q).sec.sessions } } := by
  unfold used touchSession
  rw [reached_eq]

/-- What MCTP noted leaves the CC's absence as it was. -/
@[simp] theorem reached_ccAway (s : Sys) (q : MbxReq) : ccAway (reached s q) = ccAway s := by rw [reached_eq]; rfl

@[simp] theorem reached_pend (s : Sys) (q : MbxReq) : (reached s q).svc.pend = s.svc.pend := by rw [reached_eq]
@[simp] theorem used_pend (s : State) (q : MbxReq) : (used s q).svc.pend = s.sys.svc.pend := reached_pend s.sys q

@[simp] theorem reached_lcBusy (c : Spec) (s : Sys) (q : MbxReq) : lcBusy c (reached s q) = lcBusy c s := by rw [reached_eq]; rfl

@[simp] theorem heardOver_early (s : Sys) (e b : Nat) : early (heardOver s e b) = early s := rfl
@[simp] theorem heardOver_ccAway (s : Sys) (e b : Nat) : ccAway (heardOver s e b) = ccAway s := rfl
@[simp] theorem heardOver_tarnTakes (s : Sys) (e b op : Nat) (q : MbxReq) : tarnTakes (heardOver s e b) op q = tarnTakes s op q := rfl

/-- A request that the device takes is served. -/
theorem mbxGate_takes (s : Sys) (op : Nat) (q : MbxReq) (serve : Sys → Sys) (h : takes op s q = true) :
    mbxGate s op q serve = serve (reached s q) := by
  unfold takes at h
  unfold mbxGate reached
  cases hw : q.who with
  | fn hp fn => simp_all
  | mctp e =>
    cases hv : q.via <;> cases hE : early s <;> cases hA : ccAway s <;> cases hT : tarnTakes s op q <;> simp_all

/-- A command that no lifecycle transition holds and that is fast or may wait is not BUSY. -/
theorem busyNow_false {c : Spec} {s : Sys} {q : MbxReq} (hl : lcBusy c s = false) (hc : c.cls = .fast ∨ pendCount s q.who < 16) :
    busyNow c s q = false := by
  unfold busyNow
  unfold lcBusy at hl
  rw [hl]
  rcases hc with h | h
  · simp [h]
  · simp; omega

/-- A request that passes the checks shows what it names, unless its own checks end with PRIVILEGE. -/
theorem shown_of_passed {c : Spec} {f : FuseBank} {s : Sys} {q : MbxReq} (e : Status) (hp : preCheck c f s q = none) :
    shown c f s q e = if e = .privilege then none else c.named (touchSession s q.who q.token) q.payload := by
  have h : c.lenOk q.payload.length = true ∧ c.priv f s q = none := by
    unfold preCheck at hp
    split at hp
    · exact nomatch hp
    · next h1 =>
      split at hp
      · exact nomatch hp
      · split at hp
        · exact nomatch hp
        · split at hp
          · exact nomatch hp
          · split at hp
            · exact nomatch hp
            · next h2 => exact ⟨by simpa using fun h => h1 (.inr h), h2⟩
  unfold shown
  by_cases he : e = .privilege <;> simp [h.1, h.2, he]

/-- A request that passes and whose body ends a fast command. -/
theorem mbxServe_done {c : Spec} {body : FuseBank → Sys → MbxReq → Ans} {f : FuseBank} {s y : Sys} {q : MbxReq} {d : Bytes}
    (hp : preCheck c f s q = none) (hl : lcBusy c s = false) (hc : c.cls = .fast)
    (hb : body f (touchSession s q.who q.token) q = .done y d) : mbxServe c body f s q = okay c q y d := by
  simp [mbxServe, hp, hc, hb, okay, busyNow_false hl (.inl hc)]

/-- A request that fails a check. -/
theorem mbxServe_refused {c : Spec} {body : FuseBank → Sys → MbxReq → Ans} {f : FuseBank} {s : Sys} {q : MbxReq} {e : Status}
    (hp : preCheck c f s q = some e) : mbxServe c body f s q = turnedAway c f q s e := by
  simp [mbxServe, hp, turnedAway]

@[simp] theorem touchSession_svc (s : Sys) (w : Requester) (t : Nat) : (touchSession s w t).svc = s.svc := rfl

theorem pendCount_touch (s : Sys) (w v : Requester) (t : Nat) : pendCount (touchSession s w t) v = pendCount s v := rfl

/-- A request that passes and whose body waits. -/
theorem mbxServe_wait {c : Spec} {body : FuseBank → Sys → MbxReq → Ans} {f : FuseBank} {s y : Sys} {q : MbxReq} {w : Wait}
    (hp : preCheck c f s q = none) (hl : lcBusy c s = false) (hn : pendCount s q.who < 16)
    (hb : body f (touchSession s q.who q.token) q = .wait y w) : mbxServe c body f s q = waits c q y w := by
  simp [mbxServe, hp, hb, waits, busyNow_false hl (.inr hn)]

/-- A request that passes and whose slow command is complete at once. -/
theorem mbxServe_slow {c : Spec} {body : FuseBank → Sys → MbxReq → Ans} {f : FuseBank} {s y : Sys} {q : MbxReq} {d : Bytes}
    (hp : preCheck c f s q = none) (hl : lcBusy c s = false) (hc : c.cls ≠ .fast) (hn : pendCount s q.who < 16)
    (hb : body f (touchSession s q.who q.token) q = .done y d) : mbxServe c body f s q = endsAtOnce c q (touchSession s q.who q.token) y d := by
  simp [mbxServe, hp, hb, hc, endsAtOnce, busyNow_false hl (.inr hn)]
  rfl

/-- The mailbox after a response. -/
def Mbx.answered (m : Mbx) (lt : Nat) (r : Resp) : Mbx :=
  { m with rspBuf := Memory.writeAll m.rspBuf 0 r.bytes, lastTag := lt, accepted := r.status == 1, rspReady := r.status != 1, held := false }

/-- A response as an update of the mailbox and an interrupt. -/
theorem respond_def (s : Sys) (hp fn lt : Nat) (r : Resp) :
    respond s (.fn hp fn) lt r =
      let t := modMbx s hp fn fun m => m.answered lt r
      if (getFn t hp fn).mbx.rspIe then msix t hp fn (getFn t hp fn).mbx.vector.toNat else t := rfl

/-- What a response does to its function. -/
theorem respond_fn (s : Sys) (hp fn lt : Nat) (r : Resp) :
    ∃ l, getFn (respond s (.fn hp fn) lt r) hp fn = { getFn s hp fn with mbx := (getFn s hp fn).mbx.answered lt r, msixPend := l } := by
  rw [respond_def]
  simp only
  split
  · obtain ⟨l, h⟩ := msix_fn (modMbx s hp fn fun m => m.answered lt r) hp fn
      (getFn (modMbx s hp fn fun m => m.answered lt r) hp fn).mbx.vector.toNat
    rw [h, getFn_modMbx]
    exact ⟨_, rfl⟩
  · rw [getFn_modMbx]
    exact ⟨_, rfl⟩

/-- What a response leaves as it was. -/
theorem respond_eq (s : Sys) (hp fn lt : Nat) (r : Resp) :
    respond s (.fn hp fn) lt r = { s with fns := (respond s (.fn hp fn) lt r).fns, out := (respond s (.fn hp fn) lt r).out } := by
  unfold respond
  simp only
  split
  · rw [msix_eq]
    rfl
  · rfl
/-- A response leaves the other functions as they were. -/
theorem respond_other (s : Sys) (hp fn lt : Nat) (r : Resp) (hp' fn' : Nat) (h : fnKey hp' fn' ≠ fnKey hp fn) :
    getFn (respond s (.fn hp fn) lt r) hp' fn' = getFn s hp' fn' := by
  unfold respond
  simp only
  split
  · rw [msix_other _ _ _ _ _ _ h]
    exact getFn_setFn_other _ _ _ _ _ _ h
  · exact getFn_setFn_other _ _ _ _ _ _ h
/-- The form of a mailbox command: it goes through the gate, and a failing check is answered before anything else. -/
def Gated (i : Instr) (c : Spec) (s : State) (q : MbxReq) : Prop :=
  ∃ g : Sys → Sys, exec i s = .next (s.at (mbxGate s.sys c.opcode q g)) ∧
    ∀ y e, preCheck c s.fuse y q = some e → g y = follows i (turnedAway c s.fuse q y e)

theorem gated_run {i : Instr} {c : Spec} {s : State} {q : MbxReq} {b : FuseBank → Sys → MbxReq → Ans}
    (h : exec i s = .next (s.at (mbxRun c b s.fuse s.sys q))) (hi : follows i = fun y => y) : Gated i c s q := by
  refine ⟨_, h, fun y e he => ?_⟩
  rw [hi]
  exact mbxServe_refused he

theorem gated_then {i : Instr} {c : Spec} {s : State} {q : MbxReq} {b : FuseBank → Sys → MbxReq → Ans}
    (h : exec i s = .next (s.at (mbxThen c b (follows i) s.fuse s.sys q))) : Gated i c s q := by
  refine ⟨_, h, fun y e he => ?_⟩
  exact congrArg (follows i) (mbxServe_refused he)

set_option maxRecDepth 20000 in
/-- Every mailbox command has that form. -/
theorem mailbox_gated (i : Instr) (c : Spec) (s : State) (q : MbxReq) (h : mailbox i = some (c, q)) : Gated i c s q := by
  unfold mailbox at h
  split at h
  case h_103 => exact nomatch h
  all_goals cases h
  case h_8 => exact gated_then rfl
  case h_12 => exact gated_then rfl
  case h_14 => exact gated_then rfl
  case h_19 => exact gated_then rfl
  case h_20 => exact gated_then rfl
  case h_24 => exact gated_then rfl
  case h_30 => exact gated_then rfl
  case h_31 => exact gated_then rfl
  case h_48 => exact gated_then rfl
  case h_49 => exact gated_then rfl
  case h_56 => exact gated_then rfl
  case h_58 => exact gated_then rfl
  case h_4 =>
    refine ⟨_, rfl, fun y e he => ?_⟩
    have hn : shown specMbxResult s.fuse y q e = none := by unfold shown; split <;> rfl
    simp only [he, turnedAway, hn]; rfl
  case h_76 =>
    refine ⟨_, rfl, fun y e he => ?_⟩
    simp only [he, reduceCtorEq, if_false]
    rw [mbxServe_refused he]; rfl
  case h_82 =>
    refine ⟨_, rfl, fun y e he => ?_⟩
    have : confirmRaise s.fuse y q = none := by simp [confirmRaise, he]
    simp only [this]
    rw [mbxServe_refused he]; rfl
  all_goals exact gated_run rfl rfl

/-! ### A command from the outside: what `exec` answers once the body's answer is known -/

theorem mbxServe_no {c : Spec} {body : FuseBank → Sys → MbxReq → Ans} {f : FuseBank} {s : Sys} {q : MbxReq} {e : Status}
    (hp : preCheck c f s q = none) (hl : lcBusy c s = false) (hc : c.cls = .fast ∨ pendCount s q.who < 16 ∨ (e ≠ .noResource ∧ e ≠ .updateBusy))
    (hb : body f (touchSession s q.who q.token) q = .no e) : mbxServe c body f s q = refusedWith c q (touchSession s q.who q.token) e := by
  have : refusal c s q e = e := by
    unfold refusal
    rcases hc with h | h | h
    · simp [busyNow_false hl (.inl h)]
    · simp [busyNow_false hl (.inr h)]
    · simp [h.1, h.2]
  simp [mbxServe, hp, hb, refusedWith, this, shown_of_passed e hp]

theorem mbxServe_doneAs {c : Spec} {body : FuseBank → Sys → MbxReq → Ans} {f : FuseBank} {s y : Sys} {q : MbxReq} {e : Status}
    (hp : preCheck c f s q = none) (hl : lcBusy c s = false) (hc : c.cls = .fast)
    (hb : body f (touchSession s q.who q.token) q = .doneAs y e []) : mbxServe c body f s q = refusedWith c q y e := by
  simp [mbxServe, hp, hb, hc, refusedWith, busyNow_false hl (.inl hc)]

/-- A request that passes reaches `g` through the gate. -/
theorem gate_passes {c : Spec} {s : State} {q : MbxReq} {g : Sys → Sys} (h : passes c s q = true) :
    mbxGate s.sys c.opcode q g = g (reached s.sys q) := mbxGate_takes _ _ _ _ (passes_iff.mp h).1.1

/-- What a request that passes gives the service. -/
theorem passes_serve {c : Spec} {s : State} {q : MbxReq} (h : passes c s q = true) :
    preCheck c s.fuse (reached s.sys q) q = none ∧ lcBusy c (reached s.sys q) = false :=
  ⟨(passes_iff.mp h).1.2, by rw [reached_lcBusy]; exact (passes_iff.mp h).2⟩

theorem run_done {i : Instr} {c : Spec} {s : State} {q : MbxReq} {b : FuseBank → Sys → MbxReq → Ans} {y : Sys} {d : Bytes}
    (h : exec i s = .next (s.at (mbxRun c b s.fuse s.sys q))) (hc : c.cls = .fast) (hp : passes c s q = true)
    (hb : b s.fuse (used s q) q = .done y d) : exec i s = .next (s.at (okay c q y d)) := by
  rw [h, mbxRun, gate_passes hp, mbxServe_done (passes_serve hp).1 (passes_serve hp).2 hc hb]

theorem run_no {i : Instr} {c : Spec} {s : State} {q : MbxReq} {b : FuseBank → Sys → MbxReq → Ans} {e : Status}
    (h : exec i s = .next (s.at (mbxRun c b s.fuse s.sys q))) (hp : passes c s q = true)
    (hb : b s.fuse (used s q) q = .no e)
    (hc : c.cls = .fast ∨ pendCount (reached s.sys q) q.who < 16 ∨ (e ≠ .noResource ∧ e ≠ .updateBusy) := by
      first | exact .inl rfl | exact .inr (.inr ⟨by decide, by decide⟩)) : exec i s = .next (s.at (refusedWith c q (used s q) e)) := by
  rw [h, mbxRun, gate_passes hp, mbxServe_no (passes_serve hp).1 (passes_serve hp).2 hc hb]
  rfl

theorem pendCount_reached (s : Sys) (q : MbxReq) (w : Requester) : pendCount (reached s q) w = pendCount s w := by
  rw [reached_eq]; rfl

theorem mayWait_iff {s : State} {q : MbxReq} : mayWait s q = true ↔ pendCount (reached s.sys q) q.who < 16 := by
  simp [mayWait, pendCount_reached]

theorem run_wait {i : Instr} {c : Spec} {s : State} {q : MbxReq} {b : FuseBank → Sys → MbxReq → Ans} {y : Sys} {w : Wait}
    (h : exec i s = .next (s.at (mbxRun c b s.fuse s.sys q))) (hp : passes c s q = true) (hn : mayWait s q = true)
    (hb : b s.fuse (used s q) q = .wait y w) : exec i s = .next (s.at (waits c q y w)) := by
  rw [h, mbxRun, gate_passes hp, mbxServe_wait (passes_serve hp).1 (passes_serve hp).2 (mayWait_iff.mp hn) hb]

theorem run_slow {i : Instr} {c : Spec} {s : State} {q : MbxReq} {b : FuseBank → Sys → MbxReq → Ans} {y : Sys} {d : Bytes}
    (h : exec i s = .next (s.at (mbxRun c b s.fuse s.sys q))) (hc : c.cls ≠ .fast) (hp : passes c s q = true) (hn : mayWait s q = true)
    (hb : b s.fuse (used s q) q = .done y d) : exec i s = .next (s.at (endsAtOnce c q (used s q) y d)) := by
  rw [h, mbxRun, gate_passes hp, mbxServe_slow (passes_serve hp).1 (passes_serve hp).2 hc (mayWait_iff.mp hn) hb]
  rfl

/-- The same for a command with an after-effect. -/
theorem then_done {i : Instr} {c : Spec} {s : State} {q : MbxReq} {b : FuseBank → Sys → MbxReq → Ans} {a : Sys → Sys} {y : Sys} {d : Bytes}
    (h : exec i s = .next (s.at (mbxThen c b a s.fuse s.sys q))) (hc : c.cls = .fast) (hp : passes c s q = true)
    (hb : b s.fuse (used s q) q = .done y d) : exec i s = .next (s.at (a (okay c q y d))) := by
  rw [h, mbxThen, gate_passes hp, mbxServe_done (passes_serve hp).1 (passes_serve hp).2 hc hb]

theorem then_doneAs {i : Instr} {c : Spec} {s : State} {q : MbxReq} {b : FuseBank → Sys → MbxReq → Ans} {a : Sys → Sys} {y : Sys} {e : Status}
    (h : exec i s = .next (s.at (mbxThen c b a s.fuse s.sys q))) (hc : c.cls = .fast) (hp : passes c s q = true)
    (hb : b s.fuse (used s q) q = .doneAs y e []) : exec i s = .next (s.at (a (refusedWith c q y e))) := by
  rw [h, mbxThen, gate_passes hp, mbxServe_doneAs (passes_serve hp).1 (passes_serve hp).2 hc hb]

theorem then_no {i : Instr} {c : Spec} {s : State} {q : MbxReq} {b : FuseBank → Sys → MbxReq → Ans} {a : Sys → Sys} {e : Status}
    (h : exec i s = .next (s.at (mbxThen c b a s.fuse s.sys q))) (hp : passes c s q = true)
    (hb : b s.fuse (used s q) q = .no e)
    (hc : c.cls = .fast ∨ pendCount (reached s.sys q) q.who < 16 ∨ (e ≠ .noResource ∧ e ≠ .updateBusy) := by
      first | exact .inl rfl | exact .inr (.inr ⟨by decide, by decide⟩)) : exec i s = .next (s.at (a (refusedWith c q (used s q) e))) := by
  rw [h, mbxThen, gate_passes hp, mbxServe_no (passes_serve hp).1 (passes_serve hp).2 hc hb]
  rfl

theorem then_wait {i : Instr} {c : Spec} {s : State} {q : MbxReq} {b : FuseBank → Sys → MbxReq → Ans} {a : Sys → Sys} {y : Sys} {w : Wait}
    (h : exec i s = .next (s.at (mbxThen c b a s.fuse s.sys q))) (hp : passes c s q = true) (hn : mayWait s q = true)
    (hb : b s.fuse (used s q) q = .wait y w) : exec i s = .next (s.at (a (waits c q y w))) := by
  rw [h, mbxThen, gate_passes hp, mbxServe_wait (passes_serve hp).1 (passes_serve hp).2 (mayWait_iff.mp hn) hb]

theorem then_slow {i : Instr} {c : Spec} {s : State} {q : MbxReq} {b : FuseBank → Sys → MbxReq → Ans} {a : Sys → Sys} {y : Sys} {d : Bytes}
    (h : exec i s = .next (s.at (mbxThen c b a s.fuse s.sys q))) (hc : c.cls ≠ .fast) (hp : passes c s q = true) (hn : mayWait s q = true)
    (hb : b s.fuse (used s q) q = .done y d) : exec i s = .next (s.at (a (endsAtOnce c q (used s q) y d))) := by
  rw [h, mbxThen, gate_passes hp, mbxServe_slow (passes_serve hp).1 (passes_serve hp).2 hc (mayWait_iff.mp hn) hb]
  rfl

end Sys2Proof.Machine
end

