-- ==== Sys2Proof/WellFormed.lean ====
section
/-!
DEFINITION. Which commands are well formed: every operand within the range its field or its place on the device gives it. A
command outside these ranges names nothing that exists; the meanings are total and ask nothing of it.
-/
namespace Sys2Proof

/-- A network port number (R16). -/
def portOk (p : Nat) : Bool := decide (p < 64)

/-- A requester: a function of a host port, or an MCTP endpoint identifier (R47, R365). -/
def whoOk : Requester → Bool
  | .fn hp fn => decide (hp < 4) && decide (fn < 64)
  | .mctp eid => decide (eid < 256)

/-- A mailbox request: field widths of Table 3.6 and a payload that LENGTH can count. -/
def reqOk (q : MbxReq) : Bool :=
  whoOk q.who && decide (q.flags < 256) && decide (q.tag < 65536) && decide (q.token < 2 ^ 64) && decide (q.payload.length < 65536)

/-- A sequenced packet: field widths of Table 6.1, one header flit and at most 65 of payload (R130). -/
def packetOk (p : Packet) : Bool :=
  decide (p.lseq < 65536) && decide (p.vc < 16) && decide (0 < p.len) && decide (p.len ≤ 66) && decide (p.kind < 8) && p.kind != 1 &&
  decide (p.dfeid < 2 ^ 20) && decide (p.dcoord < 2 ^ 18) && decide (p.rmode < 4) && decide (p.payload.length ≤ 4096) &&
  decide (p.pcrc < 2 ^ 32)

/-- What an epoch tick measures: 36 sensors, 24 monitors (R367), 9 regions, network ports. -/
def epochOk (m : EpochIn) : Bool :=
  decide (m.temps.length = 36) && decide (m.volts.length = 24) && m.negative.all (decide <| · < 9) && m.fec.all fun e => decide (e.1 < 64) && decide (e.2.hist.length = 16)

/-- Well-formed commands. -/
def Instr.wf (i : Instr) : Bool :=
  match i with
  | .powerOnReset _ => true
  | .resetNAssert => true
  | .pwrOkFall => true
  | .wipeComplete _ _ bad => bad.all fun e => decide (e.1 < 2) && decide (e.2 < 16)
  | .bootComplete => true
  | .thermalCooldownRelease temps bad => decide (temps.length = 36) && bad.all fun e => decide (e.1 < 2) && decide (e.2 < 16)
  | .fruRead recs => decide (recs.length ≤ 255) && recs.all fun r => decide (r.data.length ≤ 255) && decide (r.type < 256)
  | .timeGateSettleExpiry => true
  | .tableDerive => true
  | .switchEpochFreeze => true
  | .tableModeSwitch => true
  | .frameTick cages temps => (decide (cages.length = 16) || cages.isEmpty) && (decide (temps.length = 36) || temps.isEmpty)
  | .epochTick meas => epochOk meas
  | .taskOverrun task port => decide (task < 8) && portOk port
  | .epochTaskOverrun task => decide (8 ≤ task) && decide (task < 11)
  | .routeWeightRecompute => true
  | .placementBatch => true
  | .ccWatchdogRestart => true
  | .tarnWatchdogReset => true
  | .ccReturn => true
  | .counterDump hp fn => decide (hp < 4) && decide (fn < 64)
  | .sessionIdleExpiry token => decide (token < 2 ^ 64)
  | .challengeExpiry who => whoOk who
  | .timeSend port => portOk port
  | .timeReceive port hdr _ cycle block => portOk port && decide (hdr.txseq < 65536) && decide (cycle < 1024) && decide (block < 64)
  | .ppsEdge stamp => decide (stamp < 2 ^ 64)
  | .linkHoldoffExpiry port => portOk port
  | .trainingPhaseDone port rxFec skew => portOk port && decide (rxFec < 4) && decide (-65536 < skew) && decide (skew < 65536)
  | .trainingPhaseTimeout port _ => portOk port
  | .initReceive port hdr _ => portOk port && decide (hdr.txseq < 65536)
  | .initTimeout port => portOk port
  | .llPacketReceive port hcrc _ p cut => portOk port && decide (hcrc < 2 ^ 32) && packetOk p && cut.all fun c => decide (c < 1024)
  | .llAckSend port => portOk port
  | .llAckReceive port hdr _ => portOk port && decide (hdr.txseq < 65536)
  | .llNackReceive port hdr _ => portOk port && decide (hdr.txseq < 65536)
  | .credSyncReceive port hdr _ => portOk port && decide (hdr.txseq < 65536)
  | .replayTimerExpiry port => portOk port
  | .rippleReceive port hdr _ => portOk port && decide (hdr.txseq < 65536)
  | .laneReceive port hdr _ => portOk port && decide (hdr.txseq < 65536)
  | .laneReqTimeout port => portOk port
  | .laneAddRequest port => portOk port
  | .linkDownReceive port hdr cause => portOk port && decide (hdr.txseq < 65536) && decide (cause < 256)
  | .silentTimeout port => portOk port
  | .losDeclare port => portOk port
  | .losAssert port lane => portOk port && decide (lane < 2)
  | .lockLoss port lane => portOk port && decide (lane < 2)
  | .alignmentLoss port => portOk port
  | .quadPllUnlock quad => decide (quad < 32)
  | .quadPllRelock quad => decide (quad < 32)
  | .refclkLoss ref => decide (ref < 8)
  | .packetTransmit port cycle block => portOk port && decide (cycle < 1024) && decide (block < 64)
  | .packetRoute cx vc => decide (cx < 68) && decide (vc < 16)
  | .routeRecompute cx vc => decide (cx < 68) && decide (vc < 16)
  | .outputAllocate cx vc => decide (cx < 68) && decide (vc < 16)
  | .escapeMove cx vc => decide (cx < 68) && decide (vc < 16)
  | .ageSweep => true
  | .tableSwitch => true
  | .escapeFreezeEnd => true
  | .modeChangeStart => true
  | .modeTransferEnd => true
  | .helloSend port => portOk port
  | .helloReceive => true
  | .helloExpiry port => portOk port
  | .datagramReceive => true
  | .sqTailWrite hp fn page value => decide (hp < 4) && decide (fn < 64) && decide (page < 32768) && decide (value < 2 ^ 64)
  | .inlinePush hp fn page off _ => decide (hp < 4) && decide (fn < 64) && decide (page < 32768) && decide (off < 65536)
  | .eqHeadWrite hp fn page value => decide (hp < 4) && decide (fn < 64) && decide (page < 32768) && decide (value < 2 ^ 64)
  | .adminHeadWrite hp fn value => decide (hp < 4) && decide (fn < 64) && decide (value < 2 ^ 64)
  | .xfaultHeadWrite hp fn value => decide (hp < 4) && decide (fn < 64) && decide (value < 2 ^ 64)
  | .registerWrite hp fn off width value => decide (hp < 4) && decide (value < 2 ^ 64) && (match off with
    | .bar0 o => decide (fn < 64) && decide (o < 65536) && (width == 4 || width == 8)
    | .cfg (.steerTag i) => decide (fn < 64) && decide (i < 64)
    | .cfg _ => decide (fn < 65))
  | .descriptorFetch ctx => decide (ctx < 65536)
  | .put ctx => decide (ctx < 65536)
  | .putImm ctx => decide (ctx < 65536)
  | .get ctx => decide (ctx < 65536)
  | .atomic ctx => decide (ctx < 65536)
  | .fetchAtomic ctx => decide (ctx < 65536)
  | .cswap ctx => decide (ctx < 65536)
  | .send ctx => decide (ctx < 65536)
  | .recvPost ctx => decide (ctx < 65536)
  | .recvCancel ctx => decide (ctx < 65536)
  | .colStart ctx => decide (ctx < 65536)
  | .fenceNop ctx => decide (ctx < 65536)
  | .xlatInvalidateRing ctx => decide (ctx < 65536)
  | .deferredPostRelease ctx => decide (ctx < 65536)
  | .segmentIssue _ => true
  | .packetInject hp => decide (hp < 4)
  | .moderationTimerExpiry ctx => decide (ctx < 65536)
  | .functionLevelReset hp fn => decide (hp < 4) && decide (fn < 64)
  | .flrCleanup hp fn => decide (hp < 4) && decide (fn < 64)
  | .hostPortReset hp _ _ => decide (hp < 4)
  | .perstDeassert hp _ => decide (hp < 4)
  | .vfEnableClear hp _ => decide (hp < 4)
  | .vfEnableSet hp _ => decide (hp < 4)
  | .hostReadCompletion hp tag _ _ _ => decide (hp < 4) && decide (tag < 16384)
  | .hostCompletionTimeout hp tag => decide (hp < 4) && decide (tag < 16384)
  | .putReceive hp => decide (hp < 4)
  | .getReqReceive hp => decide (hp < 4)
  | .atomicReceive hp => decide (hp < 4)
  | .probeReceive hp => decide (hp < 4)
  | .retireReceive hp => decide (hp < 4)
  | .syncReceive hp => decide (hp < 4)
  | .sendPacketReceive hp => decide (hp < 4)
  | .rdvGetReceive hp => decide (hp < 4)
  | .segmentCompleteAck src osn => decide (src < 2 ^ 18) && decide (osn < 2 ^ 32)
  | .finalSegmentNotify src osn => decide (src < 2 ^ 18) && decide (osn < 2 ^ 32)
  | .assemblyTimeout src osn => decide (src < 2 ^ 18) && decide (osn < 2 ^ 32)
  | .resultEntryExpiry src osn => decide (src < 2 ^ 18) && decide (osn < 2 ^ 32)
  | .transportAckReceive hp => decide (hp < 4)
  | .transportNackReceive hp => decide (hp < 4)
  | .sackReceive hp => decide (hp < 4)
  | .getRespReceive hp => decide (hp < 4)
  | .segmentTimeout seg => decide (seg < 2 ^ 50)
  | .nackRetryWaitExpiry seg pidx => decide (seg < 2 ^ 50) && decide (pidx < 64)
  | .rdvPullIssue _ => true
  | .deferredMemberChoice _ => true
  | .colJoinReceive => true
  | .colJoinResend mgid => decide (mgid < 65536)
  | .colSetupReceive => true
  | .colReadyReceive => true
  | .colGoReceive => true
  | .colFailReceive => true
  | .joinTimerExpiry mgid => decide (mgid < 65536)
  | .colUpReceive => true
  | .contributionRead mgid ctx => decide (mgid < 65536) && decide (ctx < 65536)
  | .chunkCombine mgid => decide (mgid < 65536)
  | .colDownReceive => true
  | .colDoneReceive => true
  | .colCredReceive => true
  | .colCredSend mgid => decide (mgid < 65536)
  | .colBeatSend mgid => decide (mgid < 65536)
  | .colBeatReceive => true
  | .neighbourLost mgid feid => decide (mgid < 65536) && decide (feid < 2 ^ 20)
  | .cageFastTrip cage => decide (cage < 16)
  | .cageBackstop cage => decide (cage < 16)
  | .moduleBringup cage _ _ _ _ => decide (cage < 16)
  | .moduleReady cage txfir => decide (cage < 16) && decide (txfir < 2 ^ 40)
  | .moduleTimeout cage => decide (cage < 16)
  | .moduleInterrupt cage _ _ => decide (cage < 16)
  | .moduleLowPower cage => decide (cage < 16)
  | .domainPowerUp swd => decide (swd < 180)
  | .domainPowerComplete swd => decide (swd < 180)
  | .thermalTrip sensor _ => decide (sensor < 36)
  | .droopStretch region => decide (region < 9)
  | .faultHandlingEnd src => decide (src < 128)
  | .faultFloorDecay src => decide (src < 128)
  | .faultAutoreset => true
  | .logCommit => true
  | .mctpControlMessage bus src eid _ => decide (bus < 3) && decide (src < 256) && decide (eid < 256)
  | .abortComplete ctx => decide (ctx < 65536)
  | .abortBoundReached ctx => decide (ctx < 65536)
  | .quiesceComplete => true
  | .commandTimeout who tag => whoOk who && decide (tag < 65536)
  | .bistTestComplete group _ misr => decide (group < 9) && decide (misr < 2 ^ 128)
  | .bundleVerifyComplete => true
  | .activationStep _ => true
  | .trialWindowExpiry => true
  | .stagingLockIdle => true
  | .lcReset => true
  | .attestComplete => true
  | .attestReportExpiry who => whoOk who
  | .freshetOfferReceive => true
  | .freshetReplyReceive => true
  | .freshetPullReceive => true
  | .freshetDataReceive => true
  | .freshetPullResend => true
  | .freshetOfferSend port => portOk port
  | .identify q => reqOk q
  | .getState q => reqOk q
  | .adminRingSet q => reqOk q
  | .mbxResult q => reqOk q
  | .devQuiesce q => reqOk q
  | .devResume q => reqOk q
  | .sessionOpen q => reqOk q
  | .sessionProve q => reqOk q
  | .sessionClose q => reqOk q
  | .ctxCreate q => reqOk q
  | .ctxDestroy q => reqOk q
  | .ctxActivate q => reqOk q
  | .ctxQuery q => reqOk q
  | .ctxResume q => reqOk q
  | .ctxModerate q => reqOk q
  | .ctxSched q => reqOk q
  | .fnShape q => reqOk q
  | .fnQuota q => reqOk q
  | .ctxAbort q => reqOk q
  | .fnAbort q => reqOk q
  | .pdCreate q => reqOk q
  | .pdDestroy q => reqOk q
  | .regionRegister q => reqOk q
  | .regionDeregister q => reqOk q
  | .fnTenant q => reqOk q
  | .fnS2Set q => reqOk q
  | .regtabSet q => reqOk q
  | .hostmapSet q => reqOk q
  | .xlatFaultRingSet q => reqOk q
  | .xlatResume q => reqOk q
  | .xlatInvalidate q => reqOk q
  | .xlatAge q => reqOk q
  | .frameConfig q => reqOk q
  | .timeStatus q => reqOk q
  | .teConfig q => reqOk q
  | .tblWrite q => reqOk q
  | .tblCommit q => reqOk q
  | .tblRead q => reqOk q
  | .routeConfig q => reqOk q
  | .dgramSend q => reqOk q
  | .dgramRecv q => reqOk q
  | .linkStatus q => reqOk q
  | .linkControl q => reqOk q
  | .slConfig q => reqOk q
  | .slStatus q => reqOk q
  | .slPrbs q => reqOk q
  | .slSlip q => reqOk q
  | .commCreate q => reqOk q
  | .commDestroy q => reqOk q
  | .commQuery q => reqOk q
  | .mgidGrant q => reqOk q
  | .colConfig q => reqOk q
  | .meCtxConfig q => reqOk q
  | .meQuery q => reqOk q
  | .psetCreate q => reqOk q
  | .psetDestroy q => reqOk q
  | .psetAdd q => reqOk q
  | .psetRemove q => reqOk q
  | .psetHint q => reqOk q
  | .psetQuery q => reqOk q
  | .pePolicy q => reqOk q
  | .peRouteQuery q => reqOk q
  | .cntConfig q => reqOk q
  | .cntRead q => reqOk q
  | .cntGrant q => reqOk q
  | .cntBw q => reqOk q
  | .bandwidthWindowEnd port => portOk port
  | .fnCntRead q => reqOk q
  | .traceConfig q => reqOk q
  | .faultRead q => reqOk q
  | .faultClear q => reqOk q
  | .faultConfig q => reqOk q
  | .faultNotify q => reqOk q
  | .faultInject q => reqOk q
  | .logRead q => reqOk q
  | .logClear q => reqOk q
  | .chipReset q => reqOk q
  | .updateOpen q => reqOk q
  | .updateWrite q => reqOk q
  | .updateVerify q => reqOk q
  | .updateAbandon q => reqOk q
  | .updateActivate q => reqOk q
  | .updateConfirm q => reqOk q
  | .updateStatus q => reqOk q
  | .freshetConfig q => reqOk q
  | .settingsSave q => reqOk q
  | .settingsSet q => reqOk q
  | .bistRun q => reqOk q
  | .pwrStatus q => reqOk q
  | .pwrDomain q => reqOk q
  | .cageConfig q => reqOk q
  | .cageControl q => reqOk q
  | .cageStatus q => reqOk q
  | .cmisAccess q => reqOk q
  | .sensorRead q => reqOk q
  | .sensorLimits q => reqOk q
  | .lcStatus q => reqOk q
  | .attestRequest q => reqOk q
  | .attestRead q => reqOk q
  | .idCertRead q => reqOk q
  | .idCertWrite q => reqOk q
  | .keySet q => reqOk q
  | .lcTransition q => reqOk q
  | .losClear port lane => portOk port && decide (lane < 2)
  | .lockRegain port lane => portOk port && decide (lane < 2)
  | .alignmentFound port => portOk port
  | .hostLinkTrained hp _ rate width _ => decide (hp < 4) && [2, 5, 8, 16, 32, 64, 128].contains rate && [1, 2, 4, 8, 16].contains width
  | .msixVectorUnmask hp fn vec => decide (hp < 4) && decide (fn < 64) && decide (vec < 2048)
  | .mbxDoorbell hp fn value _ => decide (hp < 4) && decide (fn < 64) && decide (value < 2 ^ 64)
  | .requestBufferWrite hp fn off _ => decide (hp < 4) && decide (fn < 64) && decide (off < 65536)
  | .domainPowerDownComplete swd => decide (swd < 180)
  | .flashOperationComplete _ => true
  | .fuseProgramComplete _ => true
  | .jtagInstruction instr => decide (instr < 256)

end Sys2Proof
end

