-- ==== Sys2Proof/Tests/Slice0.lean ====
section
/-! SUPPORT. Tests: ill-formed operands are refused; what the hypotheses of the statements ask is met; small single steps. -/
namespace Sys2Proof.Tests
set_option Elab.async false
open Sys2Proof.Machine

/-- The empty device in READY with the CC running, changed by `f`. -/
def up (f : Sys → Sys) : State :=
  { State.reset with sys := f { State.reset.sys with
      dev := { State.reset.sys.dev with st := .ready }, svc := { State.reset.sys.svc with ccUp := true } } }

/-- A request of physical function 0 of host port 0 with tag 7. -/
def rq (b : Bytes) : MbxReq := { who := .fn 0 0, flags := 0, tag := 7, token := 0, payload := b, mem := [] }

/-- A request of MCTP endpoint 9. -/
def mq (b : Bytes) : MbxReq := { who := .mctp 9, flags := 0, tag := 7, token := 0, payload := b, mem := [] }

/-- A request with its payload passes the checks of its command and may wait. -/
def ok (c : Spec) (f : Sys → Sys) (b : Bytes) : Bool := passes c (up f) (rq b) && mayWait (up f) (rq b)

/-- The device that a request finds. -/
def at_ (f : Sys → Sys) (b : Bytes) : Sys := used (up f) (rq b)

/-- A context of function 0 in a state. -/
def cx (st : CtxSt) : Ctx := { Ctx.new 0 0 (zeros 32) with st, pd := 1, sqLog := 8, eqLog := 8, postedMax := 2, unexpMax := 2 }

/-- Context 3 stands on the device. -/
def hasCtx (x : Ctx) (y : Sys) : Sys := { y with ctxs := [(3, x)] }

/-- A waiting command of the requester under a tag, with its result. -/
def pendAs (w : Wait) (tag : Nat) (res : Option Resp) : Pend := { who := .fn 0 0, tag, opcode := 0x0001, ft := 0, wait := w, res, ctxId := none }

/-- Accepted commands. -/
def hasPend (l : List Pend) (y : Sys) : Sys := { y with svc := { y.svc with pend := l } }

/-- A member of a placement set at a context. -/
def pm (c : Nat) : PMember := { PMember.new c 1 0 0 64 false 0 with share := 1 }

/-- A LOCAL placement set owned by context 3, with members 0 and 7 in the mask. -/
def pset (mode fixed : Nat) : Pset :=
  { kind := 1, mode, fixed, owner := 3, pd := 1, joinkey := 1, members := [(0, pm 3), (7, pm 3)], elig := 0x81, ftCommit := 0, lastCommit := 0,
    queued := none, trig := false, destroying := false }

/-- Placement set 2 stands on the device. -/
def hasSet (p : Pset) (y : Sys) : Sys := { y with pe := { y.pe with sets := [(2, p)] } }

/-- Context 3 as a member of a communicator. -/
def cm : ColMember := { rank := 0, feid := 1, ctx := 3, digest := [], nmemb := 2, slotLog := 8, depth := 1, ready := true, nextCseq := 1, reading := [] }

/-- A tree neighbour with endpoint 9. -/
def nb : ColPeer := { feid := 9, inc := 5, sent := 0, recv := 0, prevSent := 0, last := 4096, owed := 2 }

/-- A communicator in a state, with context 3 its one member here and endpoint 9 its parent. -/
def comm (st : CommSt) : Comm :=
  { Comm.new 0 768 with st, members := [cm], nlocal := 1, parent := some nb, children := [{ nb with feid := 13 }], list := [9, 1],
                        inputs := [[], []], n := 2, slotLog := 8, depth := 1 }

/-- Communicator 5 stands on the device, READY. -/
def commOf (y : Sys) : Sys := { y with ce := { y.ce with comms := [(5, comm .ready)] } }

/-- PD 1 of function 0. -/
def hasPd (y : Sys) : Sys :=
  { y with xl := { y.xl with pds := [(1, { hp := 0, fn := 0, tid := 0, root := 0, s1En := false, adTrap := false, sug := false, dataStall := false })] } }

/-- A region table of 1,024 entries on host port 0 with one region under RKEY 2^24 + 5. -/
def hasReg (y : Sys) : Sys :=
  let r : Region := { base := 0x10000, len := 4096, pd := 1, rights := 7, gen := 1, fn := 0, lgen := 0 }
  modHp y 0 fun h => { h with regtab := some { bus := 4096, log2 := 10, last := 5, ents := [(5, r)] } }

/-- The device in a state. -/
def devIn (d : DevState) (y : Sys) : Sys := { y with dev := { y.dev with st := d } }

/-- A payload field of `n` bytes. -/
def f (n v : Nat) : Bytes := le n v

/-- A posted receive with a cookie. -/
def rv (c : Nat) : Recv := { seq := c, event := true, cookie := c, src := none, mtch := 0, ignore := 0, laddr := 4096, len := 64, pset := none }

/-- The board's record: port 3 is a local link to device 1 and port 63 a global link, in cages 0 and 15. -/
def fru : Fru :=
  let e := fun p r c : Nat => ({
    port := p, role := r, chan := 2, fec := 0, train := 3, cage := c, cageV := true, mport := 0, swapInv := 0, farGroup := 0, farDev := 1,
    farPort := 3, link := 0, rsvd := false } : WireE)
  { tabsrc := false, group := 0, device := 0, d := 2, g := 1, entries := [e 3 0 0, e 63 1 15] }

/-- The board's record is known. -/
def wired (y : Sys) : Sys := { y with start := { y.start with fru := some fru } }


/-- A packet with nothing in it. -/
def pk : Packet :=
  { lseq := 0, vc := 0, len := 4, kind := 0, trace := false, retx := false, dfeid := 0, dcoord := 0, rmode := 0, hops := 0, ghops := 0,
    igroup := 0, age := 0, sfeid := 0, tid := 0, osn := 0, op := 0, pidx := 0, pcnt := 0, tinc := 0, dctx := 0, sctx := 0, rkey := 0,
    offset := 0, operand := 0, msglen := 0, imm := 0, w56 := 0, payload := [], pcrc := 0 }

/-- Fabric Time `n`. -/
def ftAt (n : Nat) (y : Sys) : Sys := { y with time := { y.time with ft := n } }

/-- Port 3 changed by `g`. -/
def p3 (g : NPrt → NPrt) (y : Sys) : Sys := modNp y 3 g

/-- Port 3 UP, with a link state of the link layer. -/
def upLl (g : LlSt → LlSt) (y : Sys) : Sys := p3 (fun n => { n with st := .up, ll := g n.ll }) y

/-- The sys of the ready device changed by `f`. -/
def dv (g : Sys → Sys) : Sys := (up g).sys

/-- The header in order of a control packet. -/
def hd (c : Ctl) : CtlHdr := CtlHdr.sent c 0

/-- A TIME message with an echo of zeros. -/
def tmsg : TimeMsg := { sync := 2, ev := true, prio := 0, hops := 0, rootAddr := 1, tx := 0, echoTx := 0, echoRx := 0 }

/-- A ripple that carries nothing. -/
def rip : Ripple := { sframe := 0, dstate := 6, portup := 0, portq := [], hostq := [], dstart := none, digest := [], relay := [] }

/-- A lane message. -/
def lm (sub tag mask : Nat) (forced : Bool) : LaneMsg := { sub, tag, mask, forced }

/-! ### What the hypotheses of the statements ask is met -/

theorem test_met_StepRunsFrontCommand :
    ({ up id with pending := [.ageSweep, .ccReturn] } : State).pending = .ageSweep :: [.ccReturn] ∧ (up id).pending = [] := by decide +kernel

theorem test_met_FuseBitsAreNeverLost :
    Safe FuseBank.blank (up id) ∧ step { up id with pending := [.ageSweep] } = exec .ageSweep (up id) ∧
      (({ up id with pending := [.ageSweep] } : State).pending.head?.map programsFuses).getD false = false :=
  ⟨by unfold Safe FuseBank.grown; decide +kernel, rfl, rfl⟩

theorem test_met_ResponseLandsInItsBuffer : ({ rq [] with who := .fn 3 63 } : MbxReq).who = .fn 3 63 ∧ 63 < 64 := by decide

theorem test_met_RefusedCommandHasNoEffect :
    mailbox (.getState (rq [0])) = some (specGetState, rq [0]) ∧ takes specGetState.opcode (up id).sys (rq [0]) = true ∧
      preCheck specGetState (up id).fuse (up id).sys (rq [0]) = some .badLength := ⟨rfl, by decide +kernel, by decide +kernel⟩

theorem test_met_ClosedMailboxIgnoresRequests :
    mailbox (.getState (rq [])) = some (specGetState, rq []) ∧ mbxClosed State.reset.sys 0 0 = true ∧
      (getFn (modMbx (up id).sys 0 0 fun m => { m with held := true }) 0 0).mbx.held = true ∧
      mbxClosed (up fun y => { y with svc := { y.svc with ccUp := false } }).sys 0 0 = false ∧
      (getFn (up fun y => { y with svc := { y.svc with ccUp := false } }).sys 0 0).mbx.held = false ∧
      mbxClosed (up fun y => { y with pwr := { y.pwr with tripped := true } }).sys 0 0 = false :=
  ⟨rfl, by decide +kernel, by decide +kernel, by decide +kernel, by decide +kernel, by decide +kernel⟩

theorem test_met_DeviceQueriesAnswer :
    ok specIdentify id [] = true ∧ ok specGetState id [] = true ∧ ok specTimeStatus id [] = true ∧ ok specUpdateStatus id [] = true ∧
      ok specLcStatus id [] = true ∧ ok specLinkStatus id [63, 0, 0, 0] = true := by decide +kernel

theorem test_met_ContextQueriesAnswer :
    ok specCtxQuery (hasCtx (cx .active)) [3, 0, 0, 0] = true ∧ (getCtx (at_ (hasCtx (cx .active)) [3, 0, 0, 0]) 3).isSome = true ∧
      ok specCtxQuery id [3, 0, 0, 0] = true ∧ getCtx (at_ id [3, 0, 0, 0]) 3 = none ∧ ok specMeQuery (hasCtx (cx .active)) [3, 0, 0, 0] = true ∧
      ok specMeQuery id [3, 0, 0, 0] = true ∧
      ok specCommQuery (fun y => hasCtx (cx .active) (commOf y)) [3, 0, 5, 0] = true ∧
      (memberOf (at_ (fun y => hasCtx (cx .active) (commOf y)) [3, 0, 5, 0]) 5 3).isSome = true ∧
      ok specCommQuery (hasCtx (cx .active)) [3, 0, 5, 0] = true ∧ memberOf (at_ (hasCtx (cx .active)) [3, 0, 5, 0]) 5 3 = none ∧
      ok specPsetQuery (fun y => hasSet (pset 1 0) (hasCtx (cx .active) y)) [2, 0, 0, 0] = true ∧
      ok specPeRouteQuery id [0x9C, 0x03, 0, 0] = true := by decide +kernel

theorem test_met_RecordsAreRead :
    ok specCntRead id [88, 1, 0, 0] = true ∧ ok specFnCntRead id [] = true ∧ ok specFaultRead id [64, 64, 0, 0] = true ∧
      ok specLogRead id [0, 0, 0, 0, 127, 0, 0, 0] = true ∧
      ok specIdCertRead (fun y => { y with sec := { y.sec with cert := zeros 4, certTotal := 4 } }) [3, 0, 0, 0, 1, 0, 0, 0] = true ∧
      ok specTblRead id [4, 0, 1, 0, 0, 0, 0, 0] = true ∧
      ok specAttestRead (fun y => { y with sec := { y.sec with reports := [{ who := .fn 0 0, handle := 1, data := zeros 8, lastEpoch := 0 }] } })
        [1, 0, 0, 0, 7, 0, 0, 0, 1, 0, 0, 0] = true ∧
      (reportOf (at_ (fun y => { y with sec := { y.sec with reports := [{ who := .fn 0 0, handle := 1, data := zeros 8, lastEpoch := 0 }] } })
        [1, 0]) (rq [1, 0])).isSome = true := by decide +kernel

theorem test_met_BoardQueriesAnswer :
    let on := fun y : Sys => modCage y 15 fun g => { g with st := .powered, ready := true }
    ok specPwrStatus id [] = true ∧ ok specSensorRead id [] = true ∧ ok specCageStatus id [15, 0, 0, 0] = true ∧
      ok specSlStatus id [63, 1, 0, 0] = true ∧ ok (specCmis (rq [15, 0, 0, 0, 0, 1, 0, 0])) on [15, 0, 0, 0, 0, 1, 0, 0] = true ∧
      (getCage (at_ on [15]) 15).st = .powered ∧
      ok (specCmis (rq [15, 1, 0, 0, 31, 1, 0, 0, 9])) on [15, 1, 0, 0, 31, 1, 0, 0, 9] = true ∧ cmisTouches 0 31 1 = false ∧
      (getCage (at_ on [15]) 15).step = 0 ∧ ok (specCmis (rq [15, 0, 0, 0, 0, 128, 0, 0])) id [15, 0, 0, 0, 0, 128, 0, 0] = true ∧
      (getCage (at_ id [15]) 15).st ≠ .powered := by decide +kernel

theorem test_met_RingsAndResultsAreSet :
    ok specAdminRingSet id [0, 0x10, 0, 0, 0, 0, 0, 0, 64, 0, 0, 0, 0, 0, 0, 0] = true ∧
      passes specAdminRingSet (up id) (mq (zeros 8 ++ [64, 0, 0, 0, 0, 0, 0, 0])) = true ∧
      ok specXlatFaultRingSet id (zeros 16) = true ∧ ok specFaultNotify id (zeros 20) = true ∧
      passes specFaultNotify (up id) (mq (zeros 20)) = true ∧
      ok specMbxResult (hasPend [pendAs .quiesce 5 (some { opcode := 1, status := 0, tag := 5, dev := 4, ctx := 255, data := [] })]) [5, 0, 0, 0] = true ∧
      ok specMbxResult (hasPend [pendAs .quiesce 5 none]) [5, 0, 0, 0] = true := by decide +kernel

theorem test_met_SessionsOpenProveAndClose :
    let keyed := fun (u : Nat) (y : Sys) => { y with sec := { y.sec with keys := y.sec.keys.set 15 { key := some (zeros 32), mask := 1, fails := 0, until_ := u } } }
    let st := fun (f : Sys → Sys) => ({ up f with fuse := { FuseBank.blank with lc := 3 } } : State)
    let chal := fun y : Sys => { y with sec := { y.sec with chals := [{ who := .fn 0 0, slot := 15, nonce := zeros 32, epoch := 0 }] } }
    let four := fun y : Sys => { y with sec := { y.sec with sessions := (List.range 4).map fun i =>
      { who := .fn 0 0, token := i + 1, slot := 15, families := 1, lastEpoch := 0, nonce := [], keySets := 0 } } }
    passes specSessionOpen (st (keyed 0)) (rq [15, 0, 0, 0]) = true ∧ passes specSessionOpen (st (keyed 1)) (rq [15, 0, 0, 0]) = true ∧
      lifecycle (st id).fuse (st id).sys = .field ∧ passes specSessionOpen (up (keyed 0)) (rq [15, 0, 0, 0]) = true ∧
      lifecycle (up id).fuse (up id).sys = .blank ∧ passes specSessionProve (st id) (rq ([15, 0, 0, 0] ++ zeros 32)) = true ∧
      ((chal (st id).sys).sec.chals.find? fun c => c.who == (rq []).who && c.slot == 15).isSome = true ∧
      passes specSessionProve (st chal) (rq ([15, 0, 0, 0] ++ zeros 32)) = true ∧
      ((four (st id).sys).sec.sessions.filter fun x => sameLimit x.who (rq []).who).length = 4 ∧
      passes specSessionClose (st four) { rq [] with token := 1 } = true := by decide +kernel

theorem test_met_QuiesceAndAbortBegin :
    ok specDevQuiesce id [] = true ∧ (at_ id []).dev.quiescing = false ∧
      ok specDevQuiesce (fun y => { y with dev := { y.dev with quiescing := true } }) [] = true ∧ ok specDevResume (devIn .quiesced) [] = true ∧
      ok specDevResume (devIn .degraded) [] = true ∧ ok specCtxAbort (hasCtx (cx .stalled)) (f 4 3) = true ∧
      abortable (at_ (hasCtx (cx .stalled)) []) 3 = true ∧ ok specCtxAbort (hasCtx (cx .drained)) (f 4 3) = true ∧
      abortable (at_ (hasCtx (cx .drained)) []) 3 = false ∧ ok specFnAbort id [63, 0, 0, 0] = true ∧ ok specFnAbort id [0, 0, 0, 0] = true ∧
      (getFn (modFn (at_ id []) 0 0 fun g => { g with fnAbort := true }) 0 0).fnAbort = true ∧
      ok specFnAbort (fun y => modFn y 0 0 fun g => { g with fnAbort := true }) [0, 0, 0, 0] = true := by decide +kernel

theorem test_met_ContextsAreMadeAndFreed :
    let full := fun x : Ctx => { x with eqUsed := 256 }
    let p := f 2 0 ++ f 2 1 ++ [6, 16] ++ zeros 26
    ok specCtxCreate hasPd p = true ∧ freeCtxId (at_ hasPd p) = some 0 ∧
      (∀ st ∈ [CtxSt.created, .drained, .active, .stalled], ok specCtxDestroy (hasCtx (cx st)) (f 4 3) = true ∧
        ok specCtxActivate (hasCtx (cx st)) (f 4 3) = true ∧ ok specCtxResume (hasCtx (cx st)) (f 4 3) = true) ∧
      inComm (at_ (hasCtx (cx .created)) []) 3 = false ∧ inSet (at_ (hasCtx (cx .created)) []) 3 = false ∧
      passes specCtxDestroy (up (hasCtx (cx .drained))) (mq (f 4 3)) = true ∧
      eqFull (full (cx .stalled)) = true ∧ eqFull { cx .stalled with eqUsed := 255 } = false ∧
      ok specCtxResume (hasCtx (full (cx .stalled))) (f 4 3) = true ∧
      ok specCtxResume (hasCtx { full (cx .stalled) with ringSt := true }) (f 4 3) = true := by decide +kernel

theorem test_met_ContextSettingsAreStored :
    let a := hasCtx (cx .active)
    ok specCtxModerate a (f 2 3 ++ f 2 4096 ++ f 2 0 ++ f 2 255) = true ∧ ok specCtxModerate id (f 2 3 ++ zeros 6) = true ∧ ok specCtxSched a (f 2 3 ++ [255, 0] ++ f 4 1 ++ f 4 4224) = true ∧
      ok specCtxSched id (f 2 3 ++ [1, 0] ++ zeros 8) = true ∧ getCtx (at_ id []) 3 = none ∧
      ok specFnShape id ([63, 0, 0, 0] ++ zeros 8) = true ∧ ok specFnQuota id ([63, 0] ++ f 2 512 ++ zeros 4) = true ∧
      ok specFnQuota a ([0, 0] ++ zeros 6) = true ∧ ((at_ a []).ctxs.any fun e => e.2.hp == 0 && e.2.fn == 0 && decide (0 ≤ e.2.slot)) = true ∧
      ok specMeCtxConfig a (f 2 3 ++ f 2 0 ++ f 4 65536 ++ f 2 1 ++ f 2 1 ++ f 4 256 ++ zeros 16) = true ∧
      ok specMeCtxConfig (hasCtx { cx .active with posted := [rv 0, rv 1] }) (f 2 3 ++ f 2 0 ++ f 4 0 ++ f 2 1 ++ f 2 1 ++ f 4 0 ++ zeros 16) = true ∧
      ok specTeConfig id (f 2 32 ++ [1, 0] ++ f 2 1 ++ f 2 8192 ++ zeros 4) = true := by decide +kernel

theorem test_met_DomainsAndTenants :
    let a := fun y => hasCtx (cx .active) (hasPd y)
    ok specPdCreate id (zeros 8 ++ [15] ++ zeros 7) = true ∧ freePdId (at_ id []) = some 0 ∧ pdCount (at_ id []) 0 0 < 16 ∧
      ok specPdCreate (fun y => modFn (hasPd y) 0 0 fun g => { g with pdQuota := 1 }) (zeros 16) = true ∧
      pdCount (at_ hasPd []) 0 0 = 1 ∧ ok specPdDestroy hasPd (f 4 1) = true ∧ pdHasRegion (at_ hasPd []) 1 = false ∧
      ok specPdDestroy a (f 4 1) = true ∧ pdHasRegion (at_ hasReg []) 1 = true ∧
      ok specFnTenant id [63, 0, 0xFF, 0x0F] = true ∧ pdCount (at_ id []) 0 63 = 0 ∧ ok specFnTenant hasPd [0, 0, 1, 0] = true ∧
      ok specFnS2Set id ([63, 0, 3] ++ zeros 13) = true ∧ ctxsOf (at_ id []) 0 63 = [] ∧ ok specFnS2Set a (zeros 16) = true ∧
      ctxsOf (at_ a []) 0 0 ≠ [] := by decide +kernel

theorem test_met_RegionsAndWindows :
    let r := fun y => hasReg (hasPd y)
    let one : Region := { base := 0, len := 1, pd := 1, rights := 0, gen := 1, fn := 0, lgen := 0 }
    let full := fun y : Sys => modHp (hasPd y) 0 fun h => { h with regtab := some { bus := 4096, log2 := 0, last := 0, ents := [(0, one)] } }
    let p := f 2 1 ++ [7] ++ zeros 5 ++ f 8 (2 ^ 48 - 1) ++ f 8 1
    ok specRegionRegister r p = true ∧ (tget (at_ r []).xl.pds 1).isSome = true ∧ ((getHp (at_ r []) 0).regtab.bind RegTab.next) = some 6 ∧
      ok specRegionRegister full p = true ∧ (getHp (at_ full []) 0).regtab.map RegTab.next = some none ∧ ok specRegionRegister hasPd p = true ∧
      (getHp (at_ hasPd []) 0).regtab = none ∧ ok specRegionDeregister r (f 4 (2 ^ 24 + 5)) = true ∧
      (regionOf (at_ r []) 0 (2 ^ 24 + 5)).isSome = true ∧ ok specRegtabSet id ([0, 10] ++ zeros 6 ++ f 8 4096) = true ∧
      ok specRegtabSet r ([0, 24] ++ zeros 6 ++ f 8 4096) = true ∧
      ok (specHostmapSet 1) id ([0, 63, 1] ++ zeros 5 ++ zeros 16) = true := by decide +kernel

theorem test_met_TranslationCommands :
    let hold := fun k : HoldKind => ({ id := 7, kind := k, ctx := 3, fnKey := 0, stage := 1, addr := 0, ipa := 0, acc := 0 } : Hold)
    let h := fun (k : HoldKind) (y : Sys) => hasPd { y with xl := { y.xl with holds := [hold k] } }
    ok specXlatResume (h .cmd) (f 4 7 ++ zeros 4) = true ∧ ok specXlatResume (h .data) (f 4 7 ++ [1, 0, 0, 0]) = true ∧
      ok specXlatResume (h (.inbound1 1 0)) (f 4 7 ++ zeros 4) = true ∧ (holdOf (at_ (h .cmd) []) (f 4 7)).isSome = true ∧
      (∀ sc ∈ [0, 1], ok specXlatInvalidate hasPd ([BitVec.ofNat 8 sc, 0, 0, 0] ++ f 2 1 ++ f 2 0 ++ zeros 8 ++ f 8 (2 ^ 36)) = true) ∧
      (∀ sc ∈ [2, 3, 4], ok specXlatInvalidate hasPd ([BitVec.ofNat 8 sc, 63, 0, 0] ++ zeros 12 ++ f 8 1) = true) ∧
      ok specXlatAge id (f 2 65535 ++ f 2 0) = true := by decide +kernel

theorem test_met_DeviceSettingsAreStored :
    let down := fun y : Sys => modNp y 63 fun n => { n with st := .down }
    let up63 := fun y : Sys => modNp y 63 fun n => { n with st := .up }
    ok specFrameConfig id (f 8 1 ++ [16, 15, 1, 0]) = true ∧ ok specFrameConfig id (zeros 12) = true ∧
      ok specColConfig id (f 2 1 ++ f 2 64 ++ zeros 4) = true ∧ ok specPePolicy id ([255, 255, 15, 1] ++ f 2 1023 ++ f 2 1024 ++ f 2 16384 ++ zeros 6) = true ∧
      ok specSettingsSet id (f 4 6 ++ f 4 60) = true ∧ ok specFreshetConfig id ([3, 15] ++ zeros 14) = true ∧
      ok specSensorLimits id [60, 10, 0, 0] = true ∧ ok specCntBw id (f 4 1) = true ∧
      ok specCntConfig id ([0, 31, 0x01, 0] ++ zeros 12) = true ∧ ok specCntGrant id ([63, 3] ++ zeros 6 ++ f 16 (2 ^ 88)) = true ∧
      ok specSlConfig down ([63, 0x30, 0, 0] ++ zeros 4) = true ∧ ok specSlConfig up63 ([63, 0x10, 0, 0] ++ zeros 4) = true ∧
      ok specSlSlip (fun y => devIn .discovery (down y)) ([63, 1] ++ f 2 4095) = true ∧
      ok specSlSlip (fun y => devIn .discovery (up63 y)) ([63, 1] ++ f 2 4095) = true ∧
      ok specMgidGrant id (f 2 0 ++ f 2 0 ++ f 2 0 ++ [1, 0]) = true ∧ ok specMgidGrant commOf (f 2 5 ++ f 2 1 ++ f 2 0 ++ [0, 0]) = true := by
  decide +kernel

theorem test_met_RoutingTablesAndMode :
    let sh := fun y : Sys => { y with rt := { y.rt with sh := { y.rt.sh with cfg := 2 ^ 31 + 4 + 0x7F * 2 ^ 32, dv := [(1, 0x80)] } } }
    let com := fun y : Sys => { sh y with rt := { (sh y).rt with commit := some { frame := 0 } } }
    let tr := fun (m : Bool) (y : Sys) => { y with rt := { y.rt with transfer := some (5, m) } }
    let w := [3, 0, 1, 0] ++ zeros 4 ++ zeros 8
    let r := fun m : BitVec 8 => zeros 8 ++ [m, 0] ++ f 2 0 ++ f 2 13312 ++ f 2 0 ++ f 2 0 ++ f 2 17 ++ f 2 0 ++ f 2 17
    ok (specTblWriteOf (rq w)) id w = true ∧ ok (specTblWriteOf (rq w)) com w = true ∧ ok specTblCommit sh (f 8 1 ++ zeros 4) = true ∧
      ok specTblCommit com (zeros 12) = true ∧ ok specRouteConfig id (r 1) = true ∧ ok specRouteConfig id (r 0) = true ∧
      cvOf (at_ id []).rt.act = false ∧ ok specRouteConfig (tr true) (r 3) = true ∧ ok specRouteConfig (tr false) (r 3) = true ∧
      (at_ id []).rt.transfer = none := by decide +kernel

theorem test_met_DatagramsAndLinks :
    let fru := fun y : Sys => wired y
    let st := fun (s : LinkSt) (k : Nat) (y : Sys) => modNp (wired y) 3 fun n => { n with st := s, attempts := k, admin := true }
    let req : LaneReq := { tag := 1, mask := 3, forced := false, tries := 0, since := 0, owner := none, acked := false }
    let busy := fun y : Sys => modNp (wired y) 3 fun n => { n with st := .up, lreq := some req }
    ok specDgramSend id (f 4 (2 ^ 18 - 1) ++ zeros 4) = true ∧ ok specDgramRecv id [] = true ∧
      ok specDgramRecv (fun y => { y with rt := { y.rt with dgq := [(1, [2])] } }) [] = true ∧ ok specLinkControl fru [3, 0, 0, 0] = true ∧
      ok specLinkControl fru [3, 1, 0, 0] = true ∧ (getNp (at_ fru []) 3).st = .disabled ∧
      (getNp (portEnable (at_ fru []) 3) 3).st ≠ .down ∧
      (getNp (portEnable (at_ (fun y => { fru y with pwr := { y.pwr with swd := List.replicate 180 2 } }) []) 3) 3).st = .down ∧
      ok specLinkControl (st .down 8) [3, 1, 0, 0] = true ∧ ok specLinkControl (st .down 7) [3, 1, 0, 0] = true ∧
      ok specLinkControl (st .up 0) [3, 2, 1, 0] = true ∧ (getNp (at_ (st .up 0) []) 3).lreq = none ∧
      ok specLinkControl busy [3, 2, 3, 0] = true ∧ ok specLinkControl (st .down 0) [3, 2, 3, 0] = true ∧
      ok specSlPrbs (devIn .quiesced) ([3, 15, 4, 0] ++ zeros 4) = true ∧
      ok specSlPrbs (fun y => devIn .quiesced (st .up 0 y)) ([3, 15, 4, 0] ++ zeros 4) = true := by decide +kernel

theorem test_met_CommunicatorsAreJoinedAndLeft :
    let a := fun y => hasPd (hasCtx { cx .active with pd := 1 } y)
    let c := f 2 3 ++ f 2 5 ++ f 4 2 ++ f 4 1 ++ [12, 8, 0, 0] ++ zeros 16
    ok specCommCreate a c = true ∧ (getComm (at_ a []) 5).isNone = true ∧ ok specCommCreate (fun y => commOf (a y)) c = true ∧
      (getComm (at_ (fun y => commOf (a y)) []) 5).map (·.st) = some .ready ∧ ok specCommDestroy (fun y => commOf (a y)) (f 2 3 ++ f 2 5) = true ∧
      ok specCommDestroy a (f 2 3 ++ f 2 5) = true := by decide +kernel

theorem test_met_PlacementSetsAreManaged :
    let a := fun (st : CtxSt) (y : Sys) => hasPd (hasCtx { cx st with pd := 1 } y)
    let s := fun (p : Pset) (y : Sys) => hasSet p (a .active y)
    let lim := fun y : Sys => { a .active y with pe := { y.pe with pol := { y.pe.pol with fnMax := 0 } } }
    let gone : Pset := { pset 0 0 with destroying := true }
    let rem : Pset := { pset 0 0 with members := [(0, { pm 3 with removing := true, armed := false })] }
    let add := fun i : BitVec 8 => f 2 2 ++ [i, 0] ++ f 4 1 ++ f 2 3 ++ f 2 0 ++ zeros 4 ++ zeros 4 ++ zeros 4 ++ zeros 8 ++ f 8 64
    ok specPsetCreate (a .active) (f 2 3 ++ [2, 2, 7, 0, 0, 0]) = true ∧ ok specPsetCreate lim (f 2 3 ++ zeros 6) = true ∧
      ok specPsetCreate (a .stalled) (f 2 3 ++ zeros 6) = true ∧ freeSetId (at_ (a .active) []) = some 0 ∧
      ok specPsetDestroy (s (pset 0 0)) (f 4 2) = true ∧ setPosted (at_ (s (pset 0 0)) []) 2 = false ∧ ok specPsetDestroy (s gone) (f 4 2) = true ∧
      ok specPsetAdd (s (pset 0 0)) (add 6) = true ∧ ok specPsetAdd (s (pset 0 0)) (add 7) = true ∧
      ok specPsetRemove (s (pset 0 0)) (f 2 2 ++ [7, 0] ++ f 4 1) = true ∧ ok specPsetRemove (s rem) (f 2 2 ++ [0, 0] ++ f 4 1) = true ∧
      ok specPsetHint (s (pset 0 0)) (f 2 2 ++ [7, 6, 255, 0, 0, 0]) = true ∧ ok specPsetHint (s rem) (f 2 2 ++ [0, 1, 0, 0, 0, 0]) = true ∧
      ok specPsetHint (s (pset 0 0)) (f 2 2 ++ [7, 1, 0, 0, 0, 0]) = true := by decide +kernel

theorem test_met_FaultsAreManagedByCommand :
    let src := fun (c : Nat) (h : Bool) (y : Sys) => modSrc y 121 fun x => { x with cls := c, handling := h }
    let cfg := [121, 1, 1, 0] ++ f 4 768 ++ [255, 3] ++ f 2 1
    ok specFaultClear (src 2 false) (f 16 (2 ^ 121)) = true ∧ ok specFaultClear (src 3 false) (f 16 (2 ^ 121)) = true ∧
      ok specFaultClear (src 1 true) (f 16 (2 ^ 121)) = true ∧ 121 ∈ maskSrcs (2 ^ 121) ∧ ok (specFaultConfig (rq cfg)) id cfg = true ∧
      ok specFaultInject (devIn .quiesced) ([0, 2] ++ zeros 14) = true ∧ (causeClass 0 2).isSome = true ∧
      ok specTraceConfig id (zeros 16) = true ∧ ok specTraceConfig id ([1, 0, 0, 10, 0, 0, 0, 0] ++ f 8 4096) = true := by decide +kernel

theorem test_met_ServiceCommandsRun_flash :
    let fd := fun y : Sys => { y with sec := { y.sec with fieldDebug := true } }
    let k := [15, 1, 1, 0, 0, 0, 0, 0] ++ List.replicate 32 1 ++ zeros 16
    let se : Session := { who := .fn 0 0, token := 1, slot := 0, families := 0xFFFF, lastEpoch := 0, nonce := [], keySets := 0 }
    let sess := fun y : Sys => { y with sec := { y.sec with sessions := [se], keys := y.sec.keys.set 0 { key := some (zeros 32), mask := 0xFFF, fails := 0, until_ := 0 } } }
    let st := fun (l : BitVec 3) (g : Sys → Sys) => ({ up g with fuse := { FuseBank.blank with lc := l } } : State)
    ok specLogClear id [] = true ∧ ok specSettingsSave id [] = true ∧ ok specKeySet (devIn .quiesced) k = true ∧
      lifecycle (up id).fuse (at_ id []) = .blank ∧ lifecycle (st 3 fd).fuse (st 3 fd).sys = .fieldDebug ∧
      ok specIdCertWrite (devIn .quiesced) (f 4 0 ++ f 4 65536 ++ [1]) = true ∧
      passes specIdCertWrite (st 1 (fun y => devIn .quiesced (sess y))) { rq (f 4 0 ++ f 4 1 ++ [1]) with token := 1 } = true ∧
      lifecycle (st 1 id).fuse (st 1 id).sys = .provisioned := by decide +kernel

/-- Slot 1 in a state, of `len` bytes, with data. -/
def slot1 (st : SlotSt) (len : Nat) (d : Bytes) (y : Sys) : Sys :=
  modSlot y 1 fun x => { x with st := st, blen := len, data := d }

/-- The update lock is held by endpoint `who`. -/
def locked (who : Requester) (y : Sys) : Sys :=
  let l : Lock := { holder := .req who 0, lastEpoch := 0, limit := 16, slot := 1, lastOff := 0, lastData := [], early := [], verifying := false }
  { y with upd := { y.upd with lock := some l } }

theorem test_met_BundlesAreStaged :
    let o := zeros 32 ++ f 4 30112 ++ zeros 4
    let mine := fun (n : Nat) (y : Sys) => locked (.fn 0 0) (slot1 .staging n [1] y)
    let his := fun (n : Nat) (y : Sys) => locked (.mctp 9) (slot1 .staging n [1] y)
    let again := fun y : Sys => modLock (mine 30112 y) fun l => { l with lastData := [1] }
    let ac : Activation := { slot := 1, step := 1, revert := false, failed := false, owner := none, trialEpochs := 1 }
    let acting := fun y : Sys => { mine 1 y with upd := { (mine 1 y).upd with act := some ac } }
    ok specUpdateOpen id o = true ∧ (at_ id []).upd.lock = none ∧ onTrial (at_ id []) = false ∧ (at_ id []).dev.st ≠ .discovery ∧
      ok specUpdateOpen (mine 30112) (zeros 32 ++ f 4 (2 ^ 25) ++ zeros 4) = true ∧ ok specUpdateOpen (mine 30112) o = true ∧
      ((at_ (mine 30112) []).upd.lock.map fun l => holds l (.fn 0 0) && (stageSlot (at_ (mine 30112) []) l).mdigest == sub o 0 32) = some true ∧
      ok specUpdateOpen (devIn .discovery) o = true ∧ onTrial (slot1 .trial 30112 [] (at_ id [])) = true ∧
      ok specUpdateWrite (mine 30112) (f 4 1 ++ zeros 4 ++ [9]) = true ∧
      ((at_ (mine 30112) []).upd.lock.map fun l => repeats l (f 4 1 ++ zeros 4 ++ [9])) = some false ∧
      ok specUpdateWrite again (f 4 0 ++ zeros 4 ++ [1]) = true ∧
      ((at_ again []).upd.lock.map fun l => repeats l (f 4 0 ++ zeros 4 ++ [1])) = some true ∧
      ok specUpdateWrite (his 30112) (f 4 1 ++ zeros 4 ++ [9]) = true ∧
      ((at_ (his 30112) []).upd.lock.map fun l => holds l (.fn 0 0)) = some false ∧ ok specUpdateWrite id (zeros 9) = true ∧
      ok specUpdateVerify (mine 1) [] = true ∧ ((at_ (mine 1) []).upd.lock.map fun l => received (at_ (mine 1) []) l) = some 1 ∧
      ok specUpdateVerify (his 1) [] = true ∧ ok specUpdateVerify (mine 2) [] = true ∧ ok specUpdateVerify id [] = true ∧
      ok specUpdateAbandon (his 1) [] = true ∧ (at_ (his 1) []).upd.act = none ∧ ok specUpdateAbandon acting [] = true ∧
      ok specUpdateAbandon id [] = true := by decide +kernel

theorem test_met_ActivationBeginsAndEnds :
    let m := zeros 7 ++ [1] ++ zeros 8 ++ f 8 1
    let r := zeros 7 ++ [2] ++ zeros 8 ++ f 8 1
    let staged := slot1 .staged 30112 m
    let ac : Activation := { slot := 1, step := 1, revert := false, failed := false, owner := none, trialEpochs := 1 }
    let act := fun y : Sys => { y with upd := { y.upd with act := some ac } }
    let op := fun y : Sys => { y with svc := { y.svc with fuseOp := some (.svn 1) } }
    ok specUpdateActivate staged [1, 0, 0, 0, 0, 0, 0, 0] = true ∧ ok specUpdateActivate staged ([0, 0, 0, 0] ++ f 4 86400) = true ∧
      stagedSlot (at_ staged []) = some 1 ∧ (at_ staged []).upd.act = none ∧ ok specUpdateActivate id (zeros 8) = true ∧
      stagedSlot (at_ id []) = none ∧ ok specUpdateActivate (fun y => act (staged y)) (zeros 8) = true ∧
      ok specUpdateConfirm (slot1 .trial 1 m) [1, 0, 0, 0] = true ∧ slotIn (at_ (slot1 .trial 1 m) []) .trial = some 1 ∧
      ok specUpdateConfirm (fun y => act (slot1 .trial 1 m y)) [1, 0, 0, 0] = true ∧ ok specUpdateConfirm (slot1 .trial 1 m) [0, 0, 0, 0] = true ∧
      floorRaise FuseBank.blank (up (slot1 .trial 1 m)).sys 1 = none ∧ floorRaise FuseBank.blank (up (slot1 .trial 1 r)).sys 1 = some 1 ∧
      ok specUpdateConfirm (slot1 .trial 1 r) [0, 0, 0, 0] = true ∧ (up id).sys.svc.fuseOp = none ∧
      ok specUpdateConfirm (fun y => op (slot1 .trial 1 r y)) [0, 0, 0, 0] = true ∧ ok specUpdateConfirm id [0, 0, 0, 0] = true ∧
      slotIn (at_ id []) .trial = none ∧ ok specChipReset id [] = true := by decide +kernel

theorem test_met_ServiceCommandsRun :
    let q := devIn .quiesced
    let running := fun y => hasPend [pendAs (.bist [] true false []) 5 none] (q y)
    let open63 := fun y => modNp (q y) 63 fun n => { n with st := .down }
    let st := fun (l : BitVec 3) (g : Sys → Sys) => ({ up g with fuse := { FuseBank.blank with lc := l } } : State)
    let busy := fun y : Sys => { y with sec := { y.sec with signing := some (.mctp 9, 1, []) } }
    let op := fun y : Sys => { y with svc := { y.svc with fuseOp := some (.svn 1) } }
    let fd := fun y : Sys => { y with sec := { y.sec with fieldDebug := true } }
    let se : Session := { who := .fn 0 0, token := 1, slot := 0, families := 0xFFFF, lastEpoch := 0, nonce := [], keySets := 0 }
    let sess := fun y : Sys => { y with sec := { y.sec with sessions := [se], keys := y.sec.keys.set 0 { key := some (zeros 32), mask := 0xFFF, fails := 0, until_ := 0 } } }
    let sq := fun b => ({ rq b with token := 1 } : MbxReq)
    ok specBistRun q ([3, 0] ++ f 2 511 ++ zeros 4) = true ∧ ok specBistRun running ([1, 0, 1, 0] ++ zeros 4) = true ∧
      waiting (at_ running []) (fun w => match w with | .bist _ _ _ _ => true | _ => false) = true ∧
      ok specBistRun open63 ([2, 0] ++ f 2 256 ++ zeros 4) = true ∧ portOff (at_ open63 []) 63 = false ∧ (at_ q []).ctxs = [] ∧
      passes specAttestRequest (st 1 id) (rq (zeros 32)) = true ∧ lifecycle (st 1 id).fuse (st 1 id).sys = .provisioned ∧
      lifecycle (st 3 id).fuse (st 3 id).sys = .field ∧ passes specAttestRequest (st 3 busy) (rq (zeros 32)) = true ∧
      ok specAttestRequest id (zeros 32) = true ∧ passes specLcTransition (st 1 fun y => devIn .quiesced (sess y)) (sq [2, 0xA7, 0, 0]) = true ∧
      lcRefusal (st 1 sess).fuse (st 1 sess).sys 2 = none ∧ (st 1 sess).sys.svc.fuseOp = none ∧
      passes specLcTransition (st 3 fun y => devIn .quiesced (fd (sess y))) (sq [2, 0xA7, 0, 0]) = true ∧ lifecycle (st 3 fd).fuse (st 3 fd).sys = .fieldDebug ∧
      lcRefusal (st 3 fd).fuse (st 3 fd).sys 2 = none ∧ passes specLcTransition (st 1 fun y => devIn .quiesced (op (sess y))) (sq [4, 0xA1, 0, 0]) = true ∧
      lcRefusal (st 1 sess).fuse (st 1 sess).sys 4 = none ∧ ok specLcTransition (devIn .quiesced) [2, 0xA7, 0, 0] = true ∧
      lcRefusal FuseBank.blank (up id).sys 2 = some .stateConflict := by decide +kernel

theorem test_met_DomainsAndCagesAreSwitched :
    let swd := fun (v : Nat) (y : Sys) => { y with pwr := { y.pwr with swd := List.replicate 180 v } }
    let off := fun y : Sys => { y with pwr := { y.pwr with hpOff := [3] } }
    let cage := fun (st : CageSt) (m : Rat) (y : Sys) => modCage y 15 fun g => { g with st := st, model := m }
    let dn := fun y : Sys => modNp { y with start := { y.start with fru := some fru } } 63 fun n => { n with st := .down }
    let cfg := [15, 1, 100, 0] ++ f 2 500 ++ f 2 525 ++ f 2 0 ++ f 2 1 ++ [1, 0] ++ f 2 1 ++ f 2 10 ++ f 2 1 ++ f 2 100 ++ [0, 0, 101, 0] ++ f 2 9 ++
      [102, 0] ++ f 2 8 ++ [103, 0] ++ f 2 7 ++ [104, 0] ++ f 2 6
    ok specPwrDomain off [99, 0, 0, 0] = true ∧ ok specPwrDomain id [96, 0, 0, 0] = true ∧ (at_ id []).pwr.hpOff.contains 0 = false ∧
      ok specPwrDomain (swd 1) [144, 0, 1, 0] = true ∧ ok specPwrDomain (swd 2) [177, 0, 1, 0] = true ∧ swdState (at_ (swd 1) []) 144 = 1 ∧
      swdState (at_ (swd 2) []) 177 = 2 ∧ ok specPwrDomain (swd 2) [103, 0, 2, 0] = true ∧ ok specPwrDomain (swd 1) [137, 0, 2, 0] = true ∧
      ok specCageConfig id cfg = true ∧ (getCage (at_ id []) 15).st = .disabled ∧ ok specCageConfig (cage .powered 0) cfg = true ∧
      ok specCageControl id [15, 0, 0, 0] = true ∧ ok specCageControl id [15, 1, 0, 0] = true ∧ ok specCageControl (cage .fault 0) [15, 2, 0, 0] = true ∧
      (getCage (at_ (cage .fault 0) []) 15).st = .fault ∧ ok specCageControl (cage .fault 1000) [15, 2, 0, 0] = true ∧
      ok specCageControl id [15, 3, 0, 0] = true ∧ cageIdle (at_ id []) 15 = true ∧ ok specCageControl dn [15, 3, 0, 0] = true ∧
      cageIdle (at_ dn []) 15 = false ∧ ok specCageControl id [15, 4, 0, 0] = true := by decide +kernel

theorem test_met_ResetsBeginAgain :
    let y := (up id).sys
    y.pins.standby = false ∧ ({ y.pins with standby := true } : Pins).standby = true ∧ y.svc.fuseOp = none ∧ 256 ≤ ovrRunOf { y with time := { y.time with ovrRun := y.time.ovrRun.set 7 256 } } 7 ∧
      dark { y with pins := { y.pins with standby := false } } = false ∧ y.flt.wdAt ≠ some (epoch y) ∧ epoch y = 0 ∧
      ({ y with sec := { y.sec with lcTarget := some 2 } } : Sys).sec.lcTarget.isSome = true ∧
      (0 : Nat) + 1 ≤ epoch { y with time := { y.time with ft := 2097152 } } := by decide +kernel

theorem test_met_StartUpGoesOn :
    let y := State.reset.sys
    let held := fun y : Sys => { y with start := { y.start with thermHold := true, wiped := true } }
    let disc := devIn .discovery y
    let part : FruPart := { sumOk := true, version := 1, part := 0, parts := 1, tabsrc := 0, group := 0, device := 0, d := 2, g := 1, rsvd := false, entries := fru.entries.take 1 }
    y.dev.st = .wiping ∧ y.start.wiped = false ∧ y.start.thermHold = false ∧ (held y).dev.st = .wiping ∧ (held y).start.thermHold = true ∧
      (∀ t ∈ List.replicate 24 (759 : Int), t < 760) ∧ (devIn .boot y).dev.st = .boot ∧ (devIn .boot y).start.bootHold = false ∧
      (bootSelect FuseBank.blank (devIn .boot y)).2 = none ∧ ({ y with start := { y.start with bootHold := true } } : Sys).start.bootHold = true ∧
      disc.start.fruRead = false ∧ fruFail FuseBank.blank [] = 1 ∧ fruFail FuseBank.blank [part] = 0 ∧
      disc.start.discEpoch + ({ disc.start with settle := 0 } : Start).settle ≤ epoch disc := by decide +kernel

theorem test_met_StartUpGoesOn_tables :
    let y := devIn .discovery { wired (dv id) with start := { (wired (dv id)).start with gateOpen := true } }
    let t := ftAt (128 * 1024) { y with time := { y.time with sync := .track } }
    let d := { t with start := { t.start with derived := true, swEpoch := 1 } }
    let l := { d with start := { d.start with lateAt := some 0 } }
    t.start.fru = some fru ∧ t.dev.st = .discovery ∧ fru.tabsrc = false ∧ t.start.derived = false ∧ t.start.gateOpen = true ∧ t.time.sync = .track ∧
      t.start.lastUp + 128 ≤ frame t ∧ d.start.derived = true ∧ d.start.frozen = false ∧ d.start.switched = false ∧ d.start.swEpoch ≠ 0 ∧
      d.start.swEpoch ≤ epoch d + 16 ∧ (l.start.lateAt = some 0 ∧ 0 ≤ epoch l) ∧ d.start.lateAt = none ∧ 1 ≤ epoch (ftAt 2097152 d) ∧
      ({ d.start with switched := true } : Start).switched = true := by decide +kernel

theorem test_met_FrameTickAdvancesTime :
    (dv id).time.rate = 0 ∧ (dv id).time.frac = 0 ∧ cyclesLeft (dv id).time = 1024 ∧
      dark (timeTick (senseTemps (runToTick (dv id)) [])) = false ∧
      dark (timeTick (senseTemps (runToTick (dv fun y => { y with pwr := { y.pwr with tripped := true } })) [])) = true ∧
      (runToTick (ftAt (2047 * 1024) (dv id))).time.epochDue = true ∧ (runToTick (dv id)).time.epochDue = false := by decide +kernel

theorem test_met_EpochWorkRuns :
    let due := dv fun y => { y with time := { y.time with epochDue := true } }
    let now := fun k => dv fun y => { y with time := { y.time with ovrNow := 2 ^ k } }
    let waits := fun c y => p3 (fun n => { n with lcq := [c] }) y
    let cs : Ctl := .credSync { sframe := 0, next := 0, ret := [], rcv := [] }
    dark due = false ∧ early due = false ∧ due.time.epochDue = true ∧ early (devIn .boot due) = true ∧ (dv id).time.epochDue = false ∧
      (dv id).upd.act = none ∧ taskDone (waits cs (dv id)) 4 3 = false ∧ taskDone (waits (.ripple rip) (dv id)) 0 3 = false ∧
      (∀ k ∈ [1, 2, 3, 5, 6, 7], taskDone (dv id) k 3 = false ∧ (dv id).time.ovrNow.testBit k = false) ∧
      (now 4).time.ovrNow.testBit 4 = true ∧ taskDone (waits cs (now 4)) 4 3 = false ∧ (now 7).time.ovrNow.testBit 7 = true ∧
      taskDone (now 7) 7 3 = false ∧ taskDone (dv id) 0 3 = true ∧ taskDone (dv id) 4 3 = true ∧
      (now 1).time.ovrNow.testBit 1 = true ∧ (now 2).time.ovrNow.testBit 2 = true ∧ (∀ k ∈ [8, 9, 10], (dv id).time.epNow.testBit k = false) := by
  decide +kernel

theorem test_met_ControlComplexComesAndGoes :
    let run := fun v : Nat => dv fun y => { y with time := { y.time with ovrRun := y.time.ovrRun.set 6 v } }
    let dump := fun (size : Nat) (y : Sys) => modFn y 0 63 fun g => { g with dump := { g.dump with en := true, size := size, sel := 0, snap := some [] } }
    let d := getFn (dv (dump 8)) 0 63
    256 ≤ ovrRunOf (run 256) 6 ∧ (run 256).svc.ccUp = true ∧ (run 256).upd.act = none ∧ dark (run 256) = false ∧ ovrRunOf (run 255) 6 < 256 ∧
      ({ (dv id).svc with ccUp := false } : MbxSvc).ccUp = false ∧ early (dv id) = false ∧ d.dump.en = true ∧
      d.dump.snap = some [] ∧ ([] : List Bytes).length + 1 ≤ ringFree d.dump.size d.dump.head d.dump.tail ∧
      ringFree d.dump.size 0 (ringEntries d.dump.size - 1) < ([] : List Bytes).length + 1 ∧ (getFn (dv id) 0 63).dump.en = false ∧
      tget (dv (dump 8)).fns 63 = some d ∧ epoch (dv (dump 8)) % max 1 d.dump.period = 0 ∧ epoch (ftAt 2097152 (dv id)) % 2 ≠ 0 ∧
      frame (ftAt (128 * 1024) (dv id)) % ({ (dv id).cnt with bwFrames := 128 } : Cnt).bwFrames = 0 ∧
      (getBlk (ftAt (128 * 1024) (dv id)) 63).winFt ≠ frame (ftAt (128 * 1024) (dv id)) * 1024 ∧
      frame (ftAt 1024 (dv id)) % ({ (dv id).cnt with bwFrames := 2 } : Cnt).bwFrames ≠ 0 := by
  and_intros <;> decide +kernel

theorem test_met_WhatIsIdleExpires :
    let se : Session := { who := .fn 0 0, token := 1, slot := 0, families := 1, lastEpoch := 0, nonce := [], keySets := 0 }
    let y := dv fun y => { y with sec := { y.sec with sessions := [se] } }
    y.time.epNow.testBit 10 = false ∧ (∀ x ∈ y.sec.sessions, x.token = 1 → epoch y < x.lastEpoch + 1 + y.upd.idle) ∧
      ({ y.time with epNow := 1024 } : TimeSync).epNow.testBit 10 = true := by decide +kernel

theorem test_met_TimeIsExchanged :
    let y := dv (p3 fun n => { n with st := .up })
    let sent := fun f k => ftAt (k * 1024) (dv (p3 fun n => { n with st := .up, tm := { n.tm with sentAt := some f } }))
    let pps := dv fun y => { y with time := { y.time with ppsEn := true, sync := .track } }
    let c := Ctl.time tmsg
    let heard := elect (modNp (ctlIn y 3 (hd c) c).1 3 fun n =>
      { n with tm := { n.tm with echoTx := 0, echoRx := 0, echoV := true, offer := some (0, 1, 0, 2), rtt := some (rttOf 0 0 0 0) } })
    (getNp y 3).st = .up ∧ early y = false ∧ (getNp y 3).tm.sentAt = none ∧ (getNp (sent 1 9) 3).tm.sentAt = some 1 ∧ 1 + 8 ≤ frame (sent 1 9) ∧
      frame (sent 1 8) < 1 + 8 ∧ (getNp y 63).st ≠ .up ∧ early (devIn .boot y) = true ∧ (ctlIn y 3 (hd c) c).2 = true ∧ (ctlIn y 63 (hd c) c).2 = false ∧
      (ctlIn y 3 { hd c with hcrc := 0 } c).2 = false ∧ heard.time.upPort = some 3 ∧ tmsg.ev = true ∧ ({ tmsg with ev := false } : TimeMsg).ev = false ∧
      (elect y).time.upPort ≠ some 3 ∧ pps.time.ppsEn = true ∧ pps.time.upPort = none ∧ pps.time.sync ≠ .holdover ∧ pps.time.ppsOrigin = none ∧
      (sdiff ((0 + 1 * ppsCycles) * 16) (ppsCycles * 16) : Int) = 0 ∧ (256000 < sdiff ((0 + 1 * ppsCycles) * 16) (ppsCycles * 16 - 256001)) ∧
      max 1 (((ppsCycles * 16 - 256001) / 16 + ppsCycles / 2 - 0) / ppsCycles) = 1 ∧ (dv id).time.ppsEn = false ∧
      ({ pps.time with sync := .holdover } : TimeSync).sync = .holdover := by decide +kernel

theorem test_met_LinksTrainAndGoDown :
    let lock := fun y : Sys => { y with pwr := { y.pwr with quadLock := List.replicate 32 true } }
    let dn := fun (h a f : Nat) => ftAt (f * 1024) (dv fun y => lock (p3 (fun n => { n with st := .down, holdFrom := h, attempts := a }) y))
    let tr := fun (ph f : Nat) => ftAt (f * 1024) (dv fun y => lock (p3 (fun n => { n with st := .training, phase := ph, initAt := 0 }) y))
    let add := fun ph => dv fun y => lock (p3 (fun n => { n with st := .up, rxLanes := 1, addPhase := ph }) y)
    let ini := fun f : Nat => ftAt (f * 1024) (dv (p3 fun n => { n with st := .init, initAt := 0 }))
    let u := fun f : Nat => ftAt (f * 1024) (dv (p3 fun n => { n with st := .up, ctlAt := 0, losAt := some 0 }))
    let k := fun f : Nat => ftAt (f * 1024) (dv (p3 fun n => { n with st := .up, losAt := none, lockAt := some 0 }))
    let good := { InitMsg.own with got := true }
    let bad := { InitMsg.own with version := 2 }
    (getNp (dn 0 7 16) 3).st = .down ∧ (getNp (dn 0 7 16) 3).holdFrom + 16 ≤ frame (dn 0 7 16) ∧ (getNp (dn 0 7 16) 3).attempts < 8 ∧
      cageHolds (dn 0 7 16) 3 = false ∧ quadLocked (dn 0 7 16) 1 = true ∧ (dn 0 7 16).pwr.tripped = false ∧ 8 ≤ (getNp (dn 0 8 16) 3).attempts ∧
      (∀ ph ∈ [1, 2, 3], (getNp (tr ph 0) 3).st = .training ∧ (getNp (tr ph 0) 3).phase = ph ∧ quadLocked (tr ph 0) 1 = true) ∧
      (∀ ph ∈ [1, 2, 3], (getNp (add ph) 3).st = .up ∧ (getNp (add ph) 3).addPhase = ph ∧ quadLocked (add ph) 1 = true) ∧
      (∀ d ∈ [-160, 160], skewOk (getNp (tr 3 0) 3) 3 d = true) ∧ (∀ d ∈ [-161, 161], skewOk (getNp (tr 3 0) 3) 3 d = false) ∧
      (getNp (dv (p3 fun n => { n with sl := { n.sl with train := 3 } })) 3).sl.train = 3 ∧
      0 + phaseBound 1 ≤ frame (tr 1 3125) ∧ 0 + phaseBound 2 ≤ frame (tr 2 781250) ∧
      (∀ m ∈ [good, bad, InitMsg.own], (ctlIn (ini 1) 3 (hd (.init m)) (.init m)).2 = true ∧ (ctlIn (u 1) 3 (hd (.init m)) (.init m)).2 = true) ∧
      initBad good = false ∧ initBad bad = true ∧ initBad InitMsg.own = false ∧ InitMsg.own.got = false ∧
      (getNp (ctlIn (ini 1) 3 (hd (.init good)) (.init good)).1 3).st = .init ∧
      (getNp (ctlIn (u 1) 3 (hd (.init good)) (.init good)).1 3).st = .up ∧
      (getNp (ini 16) 3).st = .init ∧ (getNp (ini 16) 3).initAt + 16 ≤ frame (ini 16) ∧
      (getNp (u 4) 3).ctlAt + 4 ≤ frame (u 4) ∧ frame (u 3) < (getNp (u 3) 3).ctlAt + 4 ∧ (getNp (u 2) 3).losAt = some 0 ∧ 0 + 2 ≤ frame (u 2) ∧
      (getNp (k 2) 3).losAt = none ∧ (getNp (k 2) 3).lockAt = some 0 ∧ (ctlIn (u 1) 3 (hd (.linkDown 0)) (.linkDown 0)).2 = true := by decide +kernel

theorem test_met_LinkLayerReceives :
    let y := dv (upLl id)
    let q := fun n : Nat => ({ pk with lseq := n, pcrc := crc32 [] } : Packet)
    let bad : Packet := { pk with pcrc := 1, payload := [1, 2, 3, 4] }
    let stomp : Packet := { pk with payload := [1, 2, 3, 4], pcrc := 0xFFFFFFFF - crc32 [1, 2, 3, 4] }
    let hold := dv (upLl fun l => { l with held := [q 1] })
    let a : AckMsg := { next := 0, recs := [(0, 0, 0)] }
    let nk : NackMsg := { next := 0, base := 0, mask := 1 }
    let cr : CredMsg := { sframe := 0, next := 0, ret := [], rcv := [] }
    (getNp y 3).st = .up ∧ (q 0).hcrc ≠ (q 0).hcrc + 1 ∧ ([1, 2, 2, 2] : List Nat).head? = some 1 ∧ marksGood [1, 2, 2, 2] (q 0).len = true ∧
      ([0] : List Nat).head? ≠ some 1 ∧ marksGood [1, 2, 3, 2] (q 0).len = false ∧ (q 0).payOk = true ∧ bad.payOk = false ∧ bad.stomped = false ∧
      stomp.stomped = true ∧ (q 0).stomped = false ∧ (∀ n ∈ [0, 1, 4095, 4096, 61439, 61440, 65535], seqD (q n).lseq (getNp y 3).ll.nrx = n) ∧
      (∀ h ∈ (getNp y 3).ll.held, h.lseq ≠ 1) ∧ (∃ h ∈ (getNp hold 3).ll.held, h.lseq = 1) ∧
      (∀ c ∈ [Ctl.ack a, .nack nk, .credSync cr, .ripple rip], (ctlIn y 3 (hd c) c).2 = true ∧ (ctlIn y 3 { hd c with hcrc := 0 } c).2 = false) := by
  and_intros <;> decide +kernel

theorem test_met_LinkLayerSends :
    let lock := fun y : Sys => { y with pwr := { y.pwr with quadLock := List.replicate 32 true } }
    let due := dv (upLl fun l => { l with ackDue := true })
    let gap := dv (upLl fun l => { l with ackDue := true, hi := 2 })
    let rep := fun k => ftAt (k * 1024) (dv (upLl fun l => { l with replay := [{ pkt := { pk with vc := 15 }, count := 0, ended := 0 }] }))
    let re := dv fun y => lock (upLl (fun l => { l with retx := [0], replay := [{ pkt := { pk with vc := 15 }, count := 0, ended := 0 }] }) y)
    let lsw := dv fun y => lock (p3 (fun n => { n with st := .up, lswitch := some (5, 1) }) y)
    let ctl := fun st => dv fun y => lock (p3 (fun n => { n with st := st, lcq := [.init InitMsg.own] }) y)
    let new := dv fun y => lock (modRp (upLl id y) 3 fun r => { r with txq := [{ pkt := { pk with vc := 15 }, vc := 15, arr := 0, cx := 68 }] })
    let idle := dv fun y => lock (upLl id y)
    (getNp due 3).st = .up ∧ (getNp due 3).ll.ackDue = true ∧ nameable (getNp due 3) 0 = [] ∧ nameable (getNp gap 3) 0 ≠ [] ∧
      replayDue (rep 3) (getNp (rep 3) 3) = true ∧ replayDue (rep 2) (getNp (rep 2) 3) = false ∧
      (∀ y ∈ [lsw, ctl .up, ctl .init, re, new, idle], quadLocked y 1 = true ∧ (getNp y 3).ll.auditBad = false) ∧
      (getNp lsw 3).lswitch = some (5, 1) ∧ (nextCtl (getNp (ctl .up) 3).lcq).isSome = true ∧ (getNp (ctl .up) 3).lswitch = none ∧
      (nextCtl (getNp (ctl .init) 3).lcq).isSome = true ∧ pickRetx re 3 = some 0 ∧ nextCtl (getNp re 3).lcq = none ∧
      (getNp re 3).losAt = none ∧ (getNp re 3).lockAt = none ∧ pickRetx new 3 = none ∧ (pickNew new 3 0).isSome = true ∧
      pickRetx idle 3 = none ∧ pickNew idle 3 4095 = none ∧ (getNp (dv (upLl fun l => { l with auditBad := true })) 3).ll.auditBad = true ∧
      quadLocked { idle with pwr := { idle.pwr with quadLock := [] } } 1 = false := by decide +kernel

theorem test_met_LaneDetectorsAct :
    let lk := fun b : Bool => { Lane.reset with lock := b, trained := true }
    let lr : LaneReq := { tag := 5, mask := 1, forced := true, tries := 0, since := 0, owner := none, acked := false }
    let two := dv (p3 fun n => { n with st := .up, rxLanes := 3, lane0 := lk true, lane1 := lk true })
    let one := dv (p3 fun n => { n with st := .up, rxLanes := 1, lane0 := lk true, aligned := true })
    let rq := fun b => dv (p3 fun n => { n with st := .up, lreq := some { lr with forced := b } })
    let ql := { dv id with pwr := { (dv id).pwr with quadLock := List.replicate 32 true } }
    let un := { ql with pwr := { ql.pwr with quadLock := [] } }
    laneActive (getNp two 3) 1 = true ∧ laneActive (getNp one 3) 1 = false ∧ (getNp two 3).rxLanes = 3 ∧ (getNp two 3).lane0.lock = true ∧
      ((getNp two 3).lreq.map (·.forced)).getD false = false ∧ quadLocked ql 31 = true ∧ quadLocked un 31 = false ∧
      portEnabled FuseBank.blank (2 * 31) = true ∧ portEnabled FuseBank.blank (2 * 64) = false ∧ (getNp two 3).aligned = false ∧
      (getNp one 3).aligned = true ∧ (getNp one 3).st = .up ∧ (getNp (rq true) 3).lreq = some lr ∧ (getNp one 3).lreq = none ∧
      (getNp (rq false) 3).lreq = some { lr with forced := false } := by decide +kernel

theorem test_met_SwitchMovesPackets :
    let q := fun r : Option Route => ({ pkt := { pk with dcoord := 4 }, cx := 3, arr := 0, route := r } : QPkt)
    let h := fun r : Option Route => dv fun y => { y with rt := { y.rt with vcq := [q r], millpond := false } }
    let at0 := fun f : Nat => dv fun y => { y with rt := { y.rt with commit := some { frame := f }, freeze := some (f, y.rt.act), modePend := some (f, true), transfer := some (f, true) } }
    (∀ r ∈ [none, some (Route.host 1), some (.escape 1), some (.copies [1] true)], headOf (h r) 3 0 = some (q r)) ∧
      (h none).rt.millpond = false ∧ (q none).pkt.rmode = 0 ∧ (q none).onEsc = false ∧ isHere (h none) (q none).pkt = false ∧
      isHere (h none) { pk with dcoord := 0 } = true ∧ (dv id).rt.millpond = true ∧ headOf (dv id) 3 0 = none ∧
      (at0 0).rt.commit = some { frame := 0 } ∧ 0 ≤ frame (at0 0) ∧ frame (at0 1) < 1 := by decide +kernel

theorem test_met_HelloAndDatagramsArrive :
    let y := dv (p3 fun n => { n with st := .up })
    let m := fun op : Nat => dv fun y => { y with rt := { y.rt with mgq := [(3, { pk with op := op })] } }
    let cc := fun (a n : Nat) => dv fun y => { y with rt := { y.rt with ccIn := [(3, { pk with age := a })], dgq := List.replicate n (0, []) } }
    (getNp y 3).st = .up ∧ early y = false ∧ (getNp y 3).helloSent = none ∧ (takeMgmt (m 1) 0x01 0x0F).isSome = true ∧
      ((takeMgmt (m 2) 0x01 0x0F).map fun x => x.2.1.op) = some 2 ∧ takeMgmt (dv id) 0x01 0x0F = none ∧
      (getNp y 3).helloAt + 256 < frame (ftAt (257 * 1024) y) ∧ frame (ftAt (256 * 1024) y) ≤ (getNp y 3).helloAt + 256 ∧
      (∀ n ∈ [63, 64], tooOld (cc 0 n) { pk with age := 0 } = false ∧ (cc 0 n).rt.dgq.length = n) ∧
      tooOld (ftAt (100 * 1024) (cc 1 0)) { pk with age := 1 } = true ∧ (dv id).rt.ccIn = [] := by decide +kernel

theorem test_met_LaneChangesAreNegotiated :
    let lr : LaneReq := { tag := 5, mask := 1, forced := false, tries := 2, since := 0, owner := none, acked := false }
    let good := { Lane.reset with lock := true, trained := true }
    let y := dv (p3 fun n => { n with st := .up })
    let g := dv (p3 fun n => { n with st := .up, lane0 := good, lane1 := good, txLanes := 3 })
    let srv := dv (p3 fun n => { n with st := .up, lsrv := some 5, lane0 := good })
    let rq := fun t : Nat => dv (p3 fun n => { n with st := .up, lreq := some { lr with tries := t } })
    let fr := dv (p3 fun n => { n with st := .up, rxLanes := 3, lreq := some { lr with forced := true } })
    let add := ftAt (4 * 2097152) (dv (p3 fun n => { n with st := .up, rxLanes := 1, lane1 := { good with lockEpoch := some 2 } }))
    (∀ k ∈ [1, 2, 3, 4], (ctlIn y 3 (hd (.lane (lm k 5 1 false))) (.lane (lm k 5 1 false))).2 = true) ∧ (getNp srv 3).lsrv = some 5 ∧
      (getNp y 3).lsrv ≠ some 5 ∧ reqWins FuseBank.blank (getNp y 3) false = true ∧ reqWins FuseBank.blank (getNp (rq 0) 3) false = false ∧
      laneGood (getNp y 3) 0 = false ∧ canTx (getNp y 3) 0 = false ∧ (∀ k, k < 2 → laneGood (getNp g 3) k = true ∧ canTx (getNp g 3) k = true) ∧
      (getNp (rq 2) 3).lreq = some lr ∧ lr.acked = false ∧ (getNp y 3).lreq = none ∧
      (ctlIn y 3 { hd (.lane (lm 1 5 1 false)) with hcrc := 0 } (.lane (lm 1 5 1 false))).2 = false ∧ (getNp fr 3).lreq = some { lr with forced := true } ∧
      (getNp fr 3).rxLanes ≠ lr.mask ∧ lr.since + 16 ≤ frame (ftAt (16 * 1024) (rq 2)) ∧ frame (ftAt (15 * 1024) (rq 2)) < lr.since + 16 ∧ lr.tries < 3 ∧
      (getNp (rq 3) 3).lreq = some { lr with tries := 3 } ∧ (getNp add 3).rxLanes = 2 - 1 ∧ laneGood (getNp add 3) 1 = true ∧ 2 + 1 < epoch add ∧
      (getNp add 3).lreq = none := by decide +kernel


/-- A fetched descriptor of an opcode. -/
def pd (opc : Nat) : PDesc :=
  { seq := 1, d := { opc, flags := 0, dctx := 5, dfeid := 1, cookie := 0, w16 := 0, w24 := 0, w32 := 0, w36 := 0, w40 := 0, w48 := 0, w56 := 0 },
    member := none, dfeid := 1, dctx := 5, rkey := 0, roff := 0 }

/-- Context 3, ACTIVE, with a fetched descriptor. -/
def withDesc (opc : Nat) (y : Sys) : Sys := hasCtx { cx .active with descs := [pd opc] } y

/-- Endpoint 1 at group 0, device 1, host port 0, behind host port 0's own endpoint 4, and endpoint 9 on the same device. -/
def faber (y : Sys) : Sys :=
  { modHp y 0 (fun h => { h with ownFeid := some 4 }) with
    rt := { y.rt with millpond := false, act := { y.rt.act with ep := [(1, 4 + 2 ^ 23), (4, 0 + 2 ^ 23), (9, 4 + 2 ^ 23)], cfg := 2 ^ 31, dv := [(1, 0x83), (0, 0x80)] } } }

theorem test_met_HostWritesThroughTheDoor :
    let o := fun y : Sys => modLink (hasCtx (cx .active) y) 0 false fun l => { l with up := true }
    let y := dv o
    let held := dv fun y => modMbx (o y) 0 0 fun m => { m with held := true }
    fnPresent y 0 0 = true ∧ pageCtx y 0 0 0 = some 3 ∧ pageCtx y 0 0 1 = none ∧ (getFn y 0 0).flr = none ∧ bar0Open y 0 0 = true ∧
      mbxClosed y 0 0 = false ∧ (getFn y 0 0).mbx.held = false ∧ (getFn held 0 0).mbx.held = true ∧ bar0Open (dv id) 0 0 = false := by decide +kernel

theorem test_met_DescriptorsAreCarriedOut :
    let y := fun opc : Nat => dv fun y => faber (withDesc opc y)
    let here := dv fun y => faber (hasCtx { cx .active with descs := [{ pd 1 with dfeid := 4 }] } y)
    let ring := dv (hasCtx { cx .active with tail := 1 })
    let inl := dv (hasCtx { cx .active with tail := 1, inl := [(0, zeros 64)] })
    let far := dv fun y => { faber (withDesc 1 y) with rt := { (faber y).rt with act := { (faber y).rt.act with dv := [] } } }
    let full := dv (hasCtx { cx .active with descs := [pd 0x12], postedMax := 0 })
    let posted := dv (hasCtx { cx .active with descs := [pd 0x13], posted := [rv 0] })
    (∀ opc ∈ [1, 2, 3, 4, 5, 6, 0x10, 0x12, 0x13, 0x20, 0x3F, 0x40], (canStart (y opc) 3 opc).isSome = true) ∧ canStart (dv id) 3 1 = none ∧
      (getHp (popDesc (y 1) 3) 0).ownFeid = some 4 ∧ epCoord (popDesc (y 1) 3).rt.act 1 = some 4 ∧ hasRoute (popDesc (y 1) 3) 0 1 4 = false ∧
      (getHp (dv (withDesc 1)) 0).ownFeid = none ∧ hasRoute (popDesc far 3) 0 1 4 = false ∧
      (canStart here 3 1).map (·.2.dfeid) = some 4 ∧ epCoord (popDesc here 3).rt.act 4 = some 0 ∧ hasRoute (popDesc here 3) 0 4 0 = true ∧
      (post (popDesc (y 0x12) 3) 3 (recvOf (pd 0x12))).isSome = true ∧ post (popDesc full 3) 3 (recvOf (pd 0x12)) = none ∧
      (posted.ctxs.any fun e => e.2.posted.any fun r => r.cookie == (pd 0x13).d.w16) = true ∧
      (colStart (popDesc (y 0x20) 3) 3 1 (pd 0x20).d).isSome = true ∧ fetching ring = true ∧
      (getCtx ring 3).map (fun x => (x.fetching, x.deferred.length, x.head != x.tail, colHeld ring 3 x)) = some (false, 0, true, false) ∧
      (getCtx inl 3).map (fun x => (x.inl.find? fun e => e.1 == x.head).isSome) = some true := by decide +kernel

/-- An operation of context 3 toward endpoint 1. -/
def op1 : Op :=
  { id := 7, ctx := 3, hp := 0, seq := 1, opc := 1, event := false, cookie := 0, laddr := 4096, inl := none, len := 8, roff := 0, rkey := 0, dfeid := 1,
    dctx := 5, dcoord := 4, w40 := 0, w48 := 0, w56 := 0, immV := false, imm := 0, rts := false, prev := 0, member := none, nseg := 1, segNext := 0,
    firstOsn := 0, acked := 0, value := 0, status := 0, writes := 0 }

/-- A tracked segment of it. -/
def seg1 : Seg :=
  { idx := 2, gen := 0, kind := .osn, op := 7, no := 0, dev := 1, ctx := 3, hp := 0, dfeid := 1, osn := 0, pcnt := 0, off := 0, bytes := 8, built := 0,
    sent := 0, mask := 0, timed := false, start := 0, retry := 0, nacks := [], writes := 0 }

/-- A message from device 1. -/
def msg1 : Msg :=
  { id := 7, src := 1, osn := 0, prev := 0, head := { pk with op := 0x12, sfeid := 1, msglen := 8 }, imm := 0, held := [], ovf := none, ovfHas := [],
    st := .taken, retired := false, acked := false, recv := some (rv 1), buf := (3, 4096, 64), member := none, wait := false, pend := 0, placed := 0,
    pullNext := 0, bad := false }

/-- Device 1 has answered a SYNC. -/
def synced (y : Sys) : Sys := modPeer y 1 fun x => { x with valid := true, tinc := 9 }

theorem test_met_OperationsAreIssued :
    let o := fun y : Sys => { y with te := { y.te with ops := [op1] } }
    let m := fun (a : Msg) (y : Sys) => hasCtx (cx .active) { y with me := { y.me with msgs := [a] } }
    let q := fun (c : Nat) (y : Sys) => modHp (hasCtx (cx .active) y) 0 fun h => { h with reqQ := [{ pkt := pk, ctx := c, finish := 0, what := .free }] }
    let r := dv fun y => modHp y 0 fun h => { h with respQ := [{ pkt := pk, ctx := 65536, finish := 0, what := .free }] }
    let late := dv (hasCtx { cx .active with armed := true, modCount := 1, modTime := 1, unsig := [0] })
    (dv o).dev.st ≠ .fault ∧ (getOp (dv o) 7).isSome = true ∧ op1.segNext < op1.nseg ∧ (getPeer (dv o) 1).valid = false ∧ opDev op1 = 1 ∧
      (getPeer (dv fun y => synced (o y)) 1).valid = true ∧ peerLoad (dv fun y => synced (o y)) 1 < (dv o).te.peerIssue ∧
      heldBack (dv fun y => synced (o y)) op1 = false ∧ freeEntry (dv fun y => synced (o y)) = some 0 ∧ (dv o).rt.transfer = none ∧
      (getHp r 0).respQ ≠ [] ∧ (bestHead (heads (dv (q 3)) (getHp (dv (q 3)) 0).reqQ)).isSome = true ∧
      (bestHead (heads (dv (q 65536)) (getHp (dv (q 65536)) 0).reqQ)).isSome = true ∧ getCtx (dv (q 65536)) 65536 = none ∧
      bestHead (heads (dv id) (getHp (dv id) 0).reqQ) = none ∧ (getMsg (dv (m msg1)) 7).isSome = true ∧ msg1.rts = true ∧
      msg1.pullNext < pullCount msg1 ∧ ((dv (m msg1)).te.segs.filter fun g => g.kind == .pull 7).length < 16 ∧
      (getPeer (dv fun y => synced (m msg1 y)) 1).valid = true ∧ (dv (devIn .fault)).dev.st = .fault ∧
      (getMsg (dv (m { msg1 with wait := true })) 7).map (·.wait) = some true ∧
      (post (dv (hasCtx { cx .active with deferred := [rv 1] })) 3 (rv 1)).isSome = true ∧ modByTime (ftAt 1024 late) (cx .active) = false ∧
      (getCtx late 3).map (modByTime (ftAt 1024 late)) = some true := by decide +kernel

theorem test_met_HostPortsComeAndGo :
    let y := dv id
    let fl := dv fun y => flrStart y 0 0
    let re := dv fun y => modHp y 0 fun h => { h with reads := [{ tag := 5, link := false, fn := 0, ctx := 65536, acc := 0, walk := false, off := 0, len := 64, bus := 4096, orphan := true }] }
    let ab := dv fun y => hasCtx (cx .aborting) (flrStart y 0 0)
    let dom := dv fun y => { y with pwr := { y.pwr with swd := List.replicate 180 2 } }
    let ms := dv fun y => modFn y 0 0 fun g => { g with msixSize := 4, msixPend := [3] }
    fnPresent y 0 0 = true ∧ fnPresent y 0 1 = false ∧ (getFn fl 0 0).flr.isSome = true ∧ ctxsOf fl 0 0 = [] ∧ ctxsOf ab 0 0 = [3] ∧
      (getFn y 0 0).flr = none ∧ (getLink { dom with hps := dom.hps.map fun h => { h with a := { h.a with perst := false } } } 0 false).perst = false ∧
      (getLink { dom with hps := dom.hps.map fun h => { h with a := { h.a with perst := true } } } 0 false).perst = true ∧
      swdState dom 96 = 2 ∧ swdState dom 100 = 2 ∧ (getLink y 0 false).vfEn = false ∧
      (getLink (modLink y 0 false fun l => { l with vfEn := true }) 0 false).vfEn = true ∧ (readOf re 0 5).isSome = true ∧ readOf y 0 5 = none ∧
      3 < (getFn ms 0 0).msixSize ∧ (getFn ms 0 0).unmasked.contains 3 = false ∧ (getFn ms 0 0).msixPend.contains 3 = true := by decide +kernel

/-- A packet waits for ejection at host port 0; its sender is endpoint 9 of device 1, whose device has been heard. -/
def ejected (p : Packet) (y : Sys) : Sys :=
  let y := modHp (faber y) 0 fun h => { h with ej := [(3, p)] }
  { y with te := { y.te with srcs := [(1, { sinc := 5, hc := 0, win := [], lms := 0 })] } }

/-- A request without payload of an OP from endpoint 9. -/
def req (op : Nat) : Packet := { pk with op, sfeid := 9, len := lenFor 0, osn := 1, dctx := 3, pcrc := crc32 [], tinc := (dv id).start.incarn }

theorem test_met_RequestsAreReceived :
    let y := fun p : Packet => dv (ejected p)
    let r := fun (f : Sys → Sys) (p : Packet) => (takeEj (f (y p)) 0 fun _ => true).map (·.1)
    (∀ op ∈ [1, 3, 8, 9, 0x0A, 0x10, 0x14], lenCheck (req op) = true ∧ opAssigned op = true ∧ (takeEj (y (req op)) 0 (· == op)).isSome = true) ∧
      famPut 1 = true ∧ isAtomicOp 4 = true ∧ famSend 0x10 = true ∧ opAssigned 7 = false ∧ takeEj (dv id) 0 famPut = none ∧
      ((r id (req 1)).bind fun t => senderDev t (req 1)) = some 1 ∧ ((r id (req 1)).map fun t => (getSrcDev t 1).isSome) = some true ∧
      ((r id { req 1 with sfeid := 2 }).bind fun t => senderDev t { req 1 with sfeid := 2 }) = none ∧ lenCheck { req 1 with len := 63 } = false ∧
      osnDone { sinc := 5, hc := 0, win := [], lms := 0 } 0 = true ∧ osnDone { sinc := 5, hc := 0, win := [], lms := 0 } 1 = false ∧
      osnDiff 1024 0 = 1024 ∧ 1024 < osnDiff 1025 0 ∧ lenCheck { req 4 with len := 1, w56 := 0 } = true ∧ atomicOk 4 0 1 8 = true ∧
      atomicOk 4 0 1 4 = false ∧ getCtx (y (req 1)) 3 = none ∧
      (∀ st ∈ [CtxSt.created, .drained, .active, .stalled], (getCtx (hasCtx (cx st) (y (req 1))) 3).map (·.st) = some st) ∧
      asmHas (y (req 1)) 1 (req 1) = false ∧ checkKey (y (req 1)) (req 1) 1 0 = none ∧ asmFull (y (req 1)) 1 1 = false ∧
      (let k := { req 1 with rkey := 2 ^ 24 + 5, offset := 4096 }
       let z := hasReg (hasPd (hasCtx (cx .active) (y k)))
       let w := { z with xl := { z.xl with l2 := [.reg 0 5 { base := 0x10000, len := 4096, pd := 1, rights := 7, gen := 1, fn := 0, lgen := 0 }] } }
       checkTid z k = true ∧ regionMiss z k = true ∧ regionMiss w k = false ∧ (checkKey w k 1 0).isSome = true ∧ checkKey w k 1 1 = none) ∧
      ((takeEj (ftAt (100 * 1024) (y { req 1 with age := 1 })) 0 famPut).map (·.2.isNone)) = some true := by
  and_intros <;> decide +kernel

theorem test_met_SegmentsCompleteAndAreRepeated :
    let a := fun op => ({ req op with tinc := 9 } : Packet)
    let y := fun op => dv fun y => hasCtx (cx .active) (synced (ejected (a op) { y with te := { y.te with segs := [seg1], ops := [op1] } }))
    let asm : Asm := { src := 1, osn := 1, head := req 1, mask := 1, placed := 0, last := 0, imm := 0, value := 0, due := false }
    let fin : Asm := { asm with head := { req 2 with msglen := 8 } }
    let part : Asm := { asm with mask := 0 }
    let h := fun a : Asm => dv fun y => ejected pk { y with te := { y.te with asms := [a] } }
    let t := { seg1 with timed := true, retry := 7, nacks := [(0, 1, some 0)] }
    (∀ op ∈ [0x81, 0x82, 0x83, 0x84], (takeEj (y op) 0 (· == op)).isSome = true ∧ lenCheck (a op) = true) ∧ famAck 0x81 = true ∧
      ((takeEj (y 0x81) 0 famAck).bind fun x => x.2.bind (senderDev x.1)) = some 1 ∧ sameInc (y 0x81) 1 (a 0x81) = true ∧
      (getPeer (y 0x81) 1).sync = none ∧ (osnSeg (y 0x81) 1 0).isSome = true ∧ (a 0x81).tid = tidOf (y 0x81) 3 ∧
      (getPeer (modPeer (dv id) 1 fun x => { x with sync := some (0, req 0x0A) }) 1).valid = false ∧
      bits (2 + 5 * 256 + 6 * 2 ^ 48) 48 8 = 6 ∧ (2 + 5 * 256 + 6 * 2 ^ 48) % 256 = 2 ∧ bits (3 + 4 * 256) 8 8 = 4 ∧
      (tagSeg { y 0x84 with te := { (y 0x84).te with segs := [{ seg1 with kind := .get }] } } 1 (tagOf { seg1 with kind := .get })).isSome = true ∧
      (landing (y 0x84) { seg1 with kind := .get } (a 0x84)).isSome = true ∧ asm.full = true ∧ isFinalImm asm.head = false ∧ isSend asm.head.op = false ∧
      (getAsm (h asm) 1 1).isSome = true ∧ isFinalImm { fin.head with w56 := 2 ^ 13 } = true ∧ earlierDone (h asm) asm = true ∧ steerSet (h asm) 3 = none ∧
      part.full = false ∧ part.last + 200 ≤ frame (ftAt (200 * 1024) (h part)) ∧ frame (ftAt (199 * 1024) (h part)) < part.last + 200 ∧
      t.start + waitOf t.tv t.retry ≤ frame (ftAt (2 ^ 40) (y 0x81)) ∧ t.tv.2 ≤ t.retry ∧ seg1.retry < seg1.tv.2 ∧
      frame (y 0x81) < t.start + waitOf t.tv t.retry ∧ seg1.timed = false ∧
      (∃ j, j ≤ part.head.pcnt ∧ part.mask.testBit j = false ∧ part.placed.testBit j = false) ∧ part.due = false ∧
      ((getCtx (y 0x81) (a 0x81).dctx).map (·.hp)) = some 0 ∧ ((0, 1, some 0) ∈ t.nacks) ∧
      (getSeg (y 0x81) 2).isSome = true := by
  and_intros <;> decide +kernel

/-- A collective packet for communicator 5 that has come to the collective engine. -/
def colPkt1 (op from_ : Nat) : Packet :=
  { pk with op, dctx := 5, sfeid := from_, len := lenFor 0, pcrc := crc32 [], tinc := (dv id).start.incarn }

/-- It has come. -/
def colIn (p : Packet) (y : Sys) : Sys := { y with ce := { y.ce with colIn := [(3, p)] } }

theorem test_met_CollectivesAreCreated :
    let y := fun op : Nat => dv fun y => colIn (colPkt1 op 9) (commOf y)
    let j := { comm .joining with joinAt := some 0, started := 1 }
    let e := fun c : Comm => dv fun y => { y with ce := { y.ce with comms := [(5, c)] } }
    (∀ op ∈ [8, 9, 10, 11, 12], ((colTake (y op) (· == op)).bind fun x => colAdmit x.2.2 x.2.1).isSome = true) ∧
      (colTake (dv (colIn (colPkt1 8 9))) (· == 8)).isSome = true ∧ colAdmit (dv id) (colPkt1 8 9) = none ∧ colTake (dv id) (· == 8) = none ∧
      (getComm (e j) 5).map (fun c => (c.st, c.leader, c.setup, c.joinAt)) = some (.joining, false, false, some 0) ∧
      0 + 64 ≤ frame (ftAt (64 * 1024) (e j)) ∧ j.started ≤ epoch (ftAt 2097152 (e j)) ∧ epoch (e j) < j.started ∧
      (getComm (dv commOf) 5).map (·.st) = some .ready ∧ getComm (dv id) 5 = none := by decide +kernel

theorem test_met_CollectiveDataMoves :
    let y := fun op : Nat => dv fun y => colIn (colPkt1 op 9) (commOf y)
    let c := comm .ready
    let on := dv fun y => { commOf y with pwr := { y.pwr with swd := y.pwr.swd.set 144 2 } }
    let off := dv fun y => { y with pwr := { y.pwr with swd := [] } }
    (∀ op ∈ [2, 3, 4, 5], ((colTake (y op) (· == op)).bind fun x => colAdmit x.2.2 x.2.1).isSome = true) ∧
      (colTake (dv (colIn { colPkt1 1 13 with sctx := 1 })) (fun op => !([2, 3, 4, 5, 8, 9, 10, 11, 12].contains op))).isSome = true ∧
      (colAdmit (dv commOf) { colPkt1 1 13 with sctx := 1 }).isSome = true ∧
      colTake (dv id) (· == 2) = none ∧ swdState on 144 = 2 ∧ (∀ i, i < 8 → swdState off (137 + i) ≠ 2) ∧ (getComm (dv commOf) 5) = some c ∧
      c.beatAt ≤ frame (dv commOf) ∧ frame (dv commOf) < ({ c with beatAt := 1 } : Comm).beatAt ∧ (neighbours c).length = 2 ∧
      (∀ q ∈ neighbours c, q.last ≤ frame (ftAt (4096 * 1024) (dv commOf))) ∧ (comm .failed).st ≠ .ready := by decide +kernel

theorem test_met_PowerFollowsItsCommandsAndEvents :
    let g := fun (m : Cage → Cage) => dv fun y => modCage (wired y) 15 m
    let on := fun k : Nat => g fun c => { c with st := .powered, step := k, gate := true, disEpochs := 2 }
    let cg := getCage (on 1) 15
    let sw := fun (v : Nat) => dv fun y => { y with pwr := { y.pwr with swd := List.replicate 180 v } }
    cg.gate = true ∧ (getCage (dv id) 15).gate = false ∧ cg.st = .powered ∧ cg.step = 1 ∧ (getCage (on 5) 15).step = 5 ∧
      cg.cfg.inom * cg.cfg.uv < 65535 * 250000 ∧ (0 : Nat) * 250000 ≤ cg.cfg.inom * cg.cfg.uv ∧ cg.stepAt + 3125 ≤ frame (ftAt (3125 * 1024) (on 1)) ∧ frame (on 1) < cg.stepAt + 3125 ∧
      cg.stepAt + 3128125 ≤ frame (ftAt (3128125 * 1024) (on 1)) ∧
      (getCage (on 5) 15).stepAt + 15625000 ≤ frame (ftAt (15625000 * 1024) (on 5)) ∧ cagePorts (on 1) 15 = [63] ∧ cageIdle (on 1) 15 = true ∧
      2 ≤ cg.disEpochs ∧ cg.lowPwr = false ∧ ({ (dv id).pwr with waitUp := [136] } : Pwr).waitUp = 136 :: [] ∧ (dv id).pwr.started < 4 ∧
      (dv id).pwr.tripped = false ∧ swdState (sw 3) 143 = 3 ∧ swdState (sw 2) 143 = 2 ∧ (sw 2).pwr.retain.contains 143 = false ∧
      swdWant (sw 2) 0 = false ∧ swdWant (sw 2) 96 = true ∧ ([143] : List Nat).contains 143 = true ∧ (920 : Int) ≤ 920 := by decide +kernel

theorem test_met_FaultsLogAndPinsGoOn :
    early (dv id) = false ∧ early State.reset.sys = true ∧ ((dv id).log.recs.filter fun r => r.inFlash || r.inRam).length ≤ 131072 ∧
      num ([0, 0x81, 1, 0, 8] : Bytes) 1 1 = 0x81 ∧ (num ([0, 0x81, 1, 0, 8] : Bytes) 1 1).testBit 7 = true ∧ num ([0, 0x81, 1, 0, 8] : Bytes) 4 1 = 8 ∧
      tget (tset (dv id).svc.eids 0 9) 0 = some 9 ∧ jtagOk .field 2 = true ∧ jtagOk .field 3 = false ∧ jtagOk .retired 5 = true ∧
      jtagOk .provisioned 5 = false := by decide +kernel

theorem test_met_AcceptedCommandsEnd :
    let ab := fun x : Ctx => dv fun y => hasCtx x (hasPend [{ pendAs (.ctxAbort 3 9) 5 none with opcode := 0x0107 }] y)
    (getCtx (ab (cx .aborting)) 3).map (fun x => (x.st, x.waitEv.length)) = some (.aborting, 0) ∧ ctxReads (ab (cx .aborting)) 3 = 0 ∧
      (ab (cx .aborting)).xl.accs = [] ∧ ({ cx .aborting with waitEv := [(Ev.zero 3, none)] } : Ctx).waitEv ≠ [] ∧
      abortDeadline (ab (cx .aborting)) 3 = some 9 ∧ 9 ≤ frame (ftAt (9 * 1024) (ab (cx .aborting))) ∧ frame (ab (cx .aborting)) < 9 := by decide +kernel

theorem test_met_AcceptedCommandsEnd_rest :
    let q := dv fun y => { y with dev := { y.dev with quiescing := true } }
    let p := pendAs (.bist [0] true true []) 5 none
    let b := dv (hasPend [p])
    let fo := fun op : FuseOp => dv fun y => { y with svc := { y.svc with fuseOp := some op } }
    q.dev.quiescing = true ∧ quiet q = true ∧ quiet (dv (hasCtx { cx .active with fetching := true })) = false ∧ q.dev.st = .ready ∧
      (devIn .quiesced q).dev.st ≠ .ready ∧ (b.svc.pend.find? fun p => p.who == .fn 0 0 && p.tag == 5 && p.res.isNone) = some p ∧
      (boundOf .quiesce = some 15625) ∧ 0 / 1024 + 15625 ≤ frame (ftAt (15625 * 1024) b) ∧ frame b < 0 / 1024 + 15625 ∧ boundOf (.lcFuse 1) = some 15625 ∧ boundOf (.svnFuse (rq [])) = none ∧
      (flashHead (dv (hasPend [pendAs (.flash .logClear) 5 none]))).isSome = true ∧ flashHead (dv id) = none ∧
      ({ (dv id).sec with signing := some (.fn 0 0, 5, []) } : Sec).signing.isSome = true ∧ (dv id).sec.signing = none ∧
      bistOf b = some (p, [0], true, true, []) ∧ bistNext [0] true [] = some (0, false) ∧ bistExpect FuseBank.blank b 0 = none ∧
      (dv id).svc.fuseOp = none ∧ (fo (.svn 1)).svc.fuseOp = some (.svn 1) := by
  and_intros <;> decide +kernel

theorem test_met_BundlesSpreadAndTakeOver :
    let lk := fun y : Sys => modLock (locked (.fn 0 0) (slot1 .staging 30112 [1] y)) fun l => { l with verifying := true }
    let ac : Activation := { slot := 1, step := 1, revert := false, failed := false, owner := none, trialEpochs := 1 }
    let mg := fun op : Nat => dv fun y => { y with rt := { y.rt with mgq := [(3, { pk with op })] } }
    let pl := dv fun y => { modLock (lk y) fun l => { l with holder := .port 3 } with upd := { (modLock (lk y) fun l => { l with holder := .port 3 }).upd with pulls := [(0, 4032, 0)] } }
    let held := slot1 .active 4 [1, 2, 3, 4] (dv id)
    (dv lk).upd.lock.map (·.verifying) = some true ∧ ((dv lk).upd.lock.map fun l => (stageSlot (dv lk) l).data.length) = some 1 ∧
      (dv id).upd.act = none ∧ dark (dv id) = false ∧ (some ac).map (·.step) = some 1 ∧ ({ (dv id).upd with trialEnd := some 1 } : Upd).trialEnd = some 1 ∧
      1 ≤ epoch (ftAt 2097152 (dv id)) ∧ epoch (dv id) < 1 ∧ ((dv lk).upd.lock.map fun l => ((stageSlot (dv lk) l).st, l.lastEpoch + l.limit)) = some (.staging, 16) ∧
      16 ≤ epoch (ftAt (16 * 2097152) (dv lk)) ∧ (∀ op ∈ [0x10, 0x11, 0x12, 0x13], (takeMgmt (mg op) op op).isSome = true) ∧
      takeMgmt (dv id) 0x10 0x10 = none ∧ heldSlot held (zeros 32) = some 1 ∧ (getSlot held 1).data.length = 4 ∧ within 1 4 4032 = true ∧
      within 1 4033 4032 = false ∧ pl.upd.lock.map (·.holder) = some (.port 3) ∧
      (pl.upd.pulls.find? fun e => decide (e.2.2 + 64 ≤ frame (ftAt (64 * 1024) pl))).isSome = true ∧
      (pl.upd.pulls.find? fun e => decide (e.2.2 + 64 ≤ frame pl)) = none ∧ routable (dv id) 3 = false := by decide +kernel

theorem test_met_ResponsesCarryTheStates :
    (getCtx (dv (hasCtx (cx .active))) 3).isSome = true ∧ (getFn (modFn (dv id) 3 63 fun g => { g with fnAbort := true }) 3 63).fnAbort = true ∧
      mailbox (.ctxActivate (rq (f 4 3))) = some (specCtxActivate, rq (f 4 3)) ∧ takes specCtxActivate.opcode (dv id) (rq (f 4 3)) = true ∧
      preCheck specChipReset FuseBank.blank (dv id) (rq []) ≠ some .stateConflict ∧
      preCheck specBistRun FuseBank.blank (dv id) (rq ([1, 0, 1, 0] ++ zeros 4)) = some .stateConflict :=
  ⟨by decide +kernel, by decide +kernel, rfl, by decide +kernel, by decide +kernel, by decide +kernel⟩

theorem test_met_AcknowledgementsMoveTheReplay :
    let r := fun n : Nat => ({ pkt := { pk with lseq := n }, count := 0, ended := 0 } : Replay)
    let y := dv (upLl fun l => { l with replay := [r 65535, r 0], txseq := 1 })
    oldestSeq (getNp y 3) = 65535 ∧ (65535 + 65536 - 65535 % 65536) % 65536 = 0 ∧ (1 + 65536 - 65535 % 65536) % 65536 = 2 ∧
      (getNp y 3).ll.replay.length = 2 ∧ (2 + 65536 - 65535 % 65536) % 65536 = 3 ∧ (32767 + 65536 - 65535 % 65536) % 65536 = 32768 ∧
      3 < y.nps.length ∧ (let c := Ctl.ack { next := 0, recs := [] }; (ctlIn y 3 (hd c) c).2 = true) := by decide +kernel

theorem test_met_FixedAndEqualSetsUseNoScores :
    let y := fun mode fixed : Nat => dv fun y => hasSet (pset mode fixed) (hasCtx { cx .active with pd := 1 } (hasPd y))
    (getSet (y 1 7) 2).map (·.mode) = some 1 ∧ memberNow (y 1 7) (pset 1 7) 7 (pm 3) = true ∧ tget (pset 1 7).members 7 = some (pm 3) ∧
      memberNow (y 1 7) { pset 1 7 with elig := 1 } 7 (pm 3) = false ∧
      (getSet (y 2 0) 2).map (·.mode) = some 2 ∧ ((choose (y 2 0) 2).2).isSome = true := by decide +kernel

/-! ### More of what the statements ask -/

theorem test_met_ClosedMailboxIgnoresRequests_mctp :
    let away := dv fun y => { y with svc := { y.svc with onPcie := [9] } }
    let noCc := dv fun y => { y with svc := { y.svc with ccUp := false } }
    (mq []).who = .mctp 9 ∧ 4080 < (mq (zeros 4081)).payload.length ∧ (mq (zeros 4080)).payload.length ≤ 4080 ∧ mctpUp away 9 = false ∧
      mctpUp (dv id) 9 = true ∧ early State.reset.sys = true ∧ specCtxQuery.opcode ≠ 1 ∧ specCtxQuery.opcode ≠ 2 ∧ early noCc = false ∧
      noCc.svc.ccUp = false ∧ tarnTakes noCc specCtxQuery.opcode (mq []) = false ∧ mctpUp noCc 9 = true := by
  and_intros <;> decide +kernel

theorem test_met_BoardQueriesAnswer_conflict :
    let on := fun k : Nat => fun y : Sys => modCage y 15 fun g => { g with st := .powered, ready := decide (k = 0), step := k }
    ok (specCmis (rq [15, 1, 0, 0, 31, 1, 0, 0, 9])) (on 0) [15, 1, 0, 0, 31, 1, 0, 0, 9] = true ∧ (getCage (at_ (on 0) [15]) 15).ready = true ∧
      (getCage (at_ (on 1) [15]) 15).step = 1 ∧ (getCage (at_ (on 5) [15]) 15).step = 5 ∧ cmisTouches 0 25 1 = false ∧ cmisTouches 0 31 1 = false ∧ cmisTouches 0 26 1 = true ∧
      cmisTouches 0 30 1 = true ∧ ok (specCmis (rq [15, 1, 0, 0, 26, 1, 0, 0, 9])) (on 0) [15, 1, 0, 0, 26, 1, 0, 0, 9] = true := by
  and_intros <;> decide +kernel

theorem test_met_DatagramsAndLinks_lanes :
    let g := fun (n : NPrt) => { n with st := LinkSt.up, rxLanes := 1, admin := true }
    let y := fun y : Sys => modNp (wired y) 3 g
    ok specLinkControl y [3, 2, 3, 0] = true ∧ (getNp (at_ y []) 3).st = .up ∧ (getNp (at_ y []) 3).lreq = none ∧
      (3 : Nat).testBit 1 = true ∧ (getNp (at_ y []) 3).rxLanes.testBit 1 = false ∧ laneGood (getNp (at_ y []) 3) 1 = false ∧
      (getNp (dv id) 3).st = .disabled ∧ (getNp (dv id) 3).prbs.gen = false := by
  and_intros <;> decide +kernel

theorem test_met_StartUpGoesOn_record :
    let w := 3 + 2 * 2 ^ 8 + 3 * 2 ^ 12 + 2 ^ 20
    let r : FruRec := { type := 0xD4, sumOk := true, data := [0x91, 0x2A, 0xF4, 1, 0x10, 0] ++ f 2 0 ++ [0, 2] ++ f 2 1 ++ f 4 w ++ f 4 (2 ^ 10 + 3 * 2 ^ 16) }
    fruFail FuseBank.blank (fruParts [r]) = 0 ∧ fruFail FuseBank.blank (fruParts [{ r with type := 0xD5 }]) = 1 ∧ State.reset.sys.start.noSlot = false ∧
      (bootSelect FuseBank.blank (loadKeys FuseBank.blank (bootRead State.reset.sys) [])).2 = none := by
  and_intros <;> decide +kernel

theorem test_met_HostWritesThroughTheDoor_reads :
    let y := dv fun y => modLink (hasCtx (cx .active) y) 0 false fun l => { l with up := true, crs := false }
    bar0Open y 0 0 = true ∧ (getCtx y 3).isSome = true ∧ pageCtx y 0 0 0 = some 3 ∧ (linkOf y 0 0).up = true ∧ (linkOf y 0 0).crs = false ∧
      (linkOf (dv id) 0 0).up = false ∧ fnPresent y 0 0 = true ∧ (getFn y 0 0).flr = none ∧ barRead FuseBank.blank y 0 0 0x8 4 = some (DevState.ready.code * 256) ∧
      barRead FuseBank.blank y 0 0 0xC 4 = some 0 := by
  and_intros <;> decide +kernel

theorem test_met_HostPortsComeAndGo_times :
    let r : ReadE := { tag := 5, link := false, fn := 0, ctx := 65536, acc := 0, walk := false, off := 0, len := 64, bus := 4096, orphan := true }
    let y := dv fun y => modHp y 0 fun h => { h with reads := [r] }
    (dv id).dev.st ≠ .wiping ∧ State.reset.sys.dev.st = .wiping ∧ readOf y 0 5 = some r ∧ ctoFrames y 0 r = 78125 ∧
      r.at_ + 78125 ≤ frame (ftAt (78125 * 1024) y) ∧ frame y < r.at_ + 78125 ∧
      (getFn (modFn (dv id) 0 0 fun g => { g with msixSize := 4 }) 0 0).msixSize ≤ 4 ∧
      (getFn (modFn (dv id) 0 0 fun g => { g with unmasked := [3] }) 0 0).unmasked.contains 3 = true := by
  and_intros <;> decide +kernel

theorem test_met_FaultsLogAndPinsGoOn_control :
    let m := fun c : Nat => ([0, 0x81] ++ f 1 c ++ [0, 8] : Bytes)
    (∀ c, c ∈ [0, 1, 2, 3, 4, 5, 7] → num (m c) 2 1 = c ∧ num (m c) 0 1 = 0 ∧ (num (m c) 1 1).testBit 7 = true ∧ 3 ≤ (m c).length) ∧
      num ([0x7F, 0x81, 1] : Bytes) 0 1 = 0x7F ∧ num ([0x7E, 0x81, 1] : Bytes) 0 1 ≠ 0 ∧ (m 1).length = 5 ∧ num (m 1) 3 1 % 4 < 2 ∧
      8 ≤ num (m 1) 4 1 ∧ num (m 1) 4 1 < 255 ∧ ¬ num ([0, 0x81, 1, 0, 7] : Bytes) 4 1 ≥ 8 ∧ num (m 4) 3 1 = 0 ∧ (getHp (dv id) 0).a.up = false ∧
      (getHp (modLink (dv id) 0 false fun l => { l with up := true }) 0).a.up = true := by
  and_intros <;> decide +kernel

theorem test_met_AcceptedCommandsEnd_signatures :
    let t : Bytes := ascii "KBST" ++ f 2 1 ++ zeros 10 ++ f 1 FuseBank.blank.order ++ f 1 stepping ++ zeros 294
    let m : Bytes := zeros 6 ++ [1] ++ zeros 57 ++ ([9] ++ zeros 7 ++ f 4 112 ++ f 4 312 ++ zeros 32) ++ t
    let y := dv fun y => modSlot y y.upd.run fun x => { x with data := m }
    bistExpect FuseBank.blank y 0 = some (zeros 16, zeros 16) ∧ zeros 16 ≠ le 16 1 ∧ zeros 16 = le 16 0 := by
  and_intros <;> decide +kernel

theorem test_met_ResponsesCarryTheStates_names :
    let y := dv fun y => hasSet (pset 0 0) y
    getSet y (num (f 2 2 ++ zeros 14) 0 2) = some (pset 0 0) ∧ (pset 0 0).kind ≠ 0 ∧
      specBistRun.named (dv id) (zeros 8) = none ∧ specCtxActivate.priv FuseBank.blank (dv (hasCtx (cx .active))) (rq (f 4 3)) = none ∧
      mctpUp (dv id) 9 = true := by
  and_intros <;> decide +kernel

theorem test_met_CollectivesAge :
    let y := ftAt (100 * 1024) (dv (colIn { colPkt1 8 9 with age := 1 }))
    ((colTake y (· == 8)).map fun x => tooOld x.2.2 x.2.1) = some true := by decide +kernel

/-- A bundle of three empty components under a key of zeros. -/
def bundle : Bytes :=
  let e := fun k : BitVec 8 => [k] ++ zeros 15 ++ shake256 [] 32
  ascii "BLMR" ++ [1, 0, 3, 0] ++ zeros 5 ++ [3] ++ zeros 14 ++ f 4 30064 ++ zeros 32 ++ e 3 ++ e 4 ++ e 5 ++ zeros (64 + 29792)

/-- Fuses with the digest of that key. -/
def fuses : FuseBank := { FuseBank.blank with rootKeys := [shake256 (zeros 64) 32] }

/-- Slot 0 holds the bundle in a state. -/
def boots (st : SlotSt) (y : Sys) : Sys := modSlot y 0 fun x => { x with st := st, mdigest := mDigest bundle, blen := 30064, data := bundle }

theorem bundle_checks : check1 bundle 30064 = true ∧ check2 bundle = true ∧ check3 fuses bundle = true ∧ check4 fuses bundle = true ∧
    check6 bundle = true := by decide +kernel

/-- Whatever signature check SLH-DSA makes: a bundle it takes verifies, and boots. -/
theorem test_met_signed (h : Config.slhVerify (mKey bundle) "JA64-MANIFEST" (mSigned bundle) (mSig bundle) = true) (y : Sys)
    (hy : y = boots .active (devIn .boot State.reset.sys)) : bundleFail fuses y 0 true = 0 ∧ (bootSelect fuses y).2 = some 0 := by
  have hs : getSlot y 0 = { getSlot y 0 with data := bundle, mdigest := mDigest bundle } := by subst hy; rfl
  have hd : (getSlot y 0).data = bundle := by rw [hs]
  have hm : (getSlot y 0).mdigest = mDigest bundle := by rw [hs]
  have h7 : check7 fuses y (mSvn bundle) true = true := by subst hy; decide +kernel
  have hl : bundle.length = 30064 := by decide +kernel
  obtain ⟨h1, h2, h3, h4, h6⟩ := bundle_checks
  have h5 : check5 bundle (mDigest bundle) = true := by simp [check5, h]
  have hb : bundleFail fuses y 0 true = 0 := by simp [bundleFail, hd, hm, hl, h1, h2, h3, h4, h5, h6, h7]
  have hc : bootChoice y = (y, some 0) := by subst hy; rfl
  exact ⟨hb, by simp [bootSelect, hc, hb]⟩

/-! ### A proof of a session -/

theorem test_met_proof :
    let k : KeySlot := { key := some (zeros 32), mask := 1, fails := 0, until_ := 0 }
    let c : Challenge := { who := .fn 0 0, slot := 15, nonce := zeros 32, epoch := 0 }
    let y := dv fun y => { y with sec := { y.sec with keys := y.sec.keys.set 15 k, chals := [c] } }
    let q := rq ([15, 0, 0, 0] ++ proofOf FuseBank.blank (zeros 32) (zeros 32) (.fn 0 0) 15)
    proofOk FuseBank.blank y q c = true ∧ (y.sec.sessions.filter fun x => sameLimit x.who q.who).length < 4 ∧
      preCheck specSessionProve FuseBank.blank y q = none := by decide +kernel

/-! ### Known answers and single steps -/

/-- SHAKE256 of nothing (FIPS 202). -/
theorem test_shake256 : (shake256 [] 32).take 8 = [0x46, 0xb9, 0xdd, 0x2b, 0x0b, 0xa8, 0x8d, 0x13] := by decide +kernel

/-- Sample 4 of KMAC256 (SP 800-185). -/
theorem test_kmac256 : (kmac256 ((List.range 32).map fun i => BitVec.ofNat 8 (0x40 + i)) [0, 1, 2, 3] 64 "My Tagged Application").take 8 =
    [0x20, 0xC5, 0x70, 0xC3, 0x13, 0x46, 0xF7, 0x03] := by decide +kernel

/-- CRC-32 of IEEE 802.3 (R129). -/
theorem test_crc32 : crc32 [0x31, 0x32, 0x33, 0x34, 0x35, 0x36, 0x37, 0x38, 0x39] = 0xCBF43926 := by decide +kernel

/-- Table 6.9: the header flit of the worked example. -/
theorem test_header :
    let p : Packet := { pk with lseq := 0x1A2B, vc := 1, len := 2, dfeid := 0x715, dcoord := 0x715, igroup := 0x3FF, age := 0x15, sfeid := 0x346 }
    let p : Packet := { p with tid := 0x0A3, osn := 0x102, op := 1, tinc := 0x2C7, dctx := 0x31, sctx := 7, rkey := 0x5A170003, offset := 0x2000 }
    ({ p with msglen := 8, w56 := 0x01022008 } : Packet).head60 =
      [0x2B, 0x1A, 0x21, 0x00, 0x15, 0x07, 0x50, 0x71, 0x00, 0xC0, 0xFF, 0x15, 0x46, 0x03, 0x30, 0x0A, 0x02, 0x01, 0x00, 0x00,
       0x01, 0x00, 0x70, 0x2C, 0x31, 0x00, 0x07, 0x00, 0x03, 0x00, 0x17, 0x5A, 0x00, 0x20] ++ zeros 6 ++ zeros 8 ++ [8] ++ zeros 7 ++
      [0x08, 0x20, 0x02, 0x01] := by decide +kernel

/-- The next state's sys. -/
def sysOf (o : Host.Outcome State Fault Refusal) : Sys := match o with | .next t => t.sys | _ => State.reset.sys

/-- R23: a frame is 1,024 units of Fabric Time. -/
theorem test_step_frameTick : (sysOf (step { State.reset with pending := [.frameTick [] (List.replicate 36 0)] })).time.ft = 1024 := by decide +kernel

/-- Table 4.3: the index of SQ_TAIL is taken modulo the ring. -/
theorem test_step_tail : ((getCtx (sysOf (exec (.sqTailWrite 0 0 0 0x1FF) (up (hasCtx (cx .active))))) 3).map (·.tail)) = some 255 := by
  decide +kernel

/-- R60: DEV_QUIESCE on an idle device is accepted, and the event of the row brings QUIESCED. -/
theorem test_step_quiesce : (sysOf (exec .quiesceComplete { up id with sys := sysOf (exec (.devQuiesce (rq [])) (up id)) })).dev.st = .quiesced := by
  decide +kernel

/-- R98: a context is made CREATED and activated. -/
theorem test_step_activate : ((getCtx (sysOf (exec (.ctxActivate (rq (f 4 3))) (up (hasCtx (cx .created))))) 3).map (·.st)) = some .active := by
  decide +kernel

/-- Table 11.1: the last attempt's failure keeps the port DOWN, with the attempt counted. -/
theorem test_step_trainingTimeout :
    let t := sysOf (exec (.trainingPhaseTimeout 3 false) { up id with sys := ftAt (3125 * 1024) (dv (p3 fun n => { n with st := .training, phase := 1 })) })
    (getNp t 3).st = .down ∧ (getNp t 3).attempts = 1 := by decide +kernel

/-! ### What the newer clauses ask is met -/

theorem test_met_mctp_routes :
    let v : MctpVia := { bus := 0, dst := 8, iana := 0x00F42A91, kind := 1 }
    let y := dv fun y => { y with svc := { y.svc with eids := tset y.svc.eids 0 8 } }
    let w := dv fun y => { y with svc := { y.svc with pend := [{ pendAs .quiesce 5 none with who := .mctp 9, tarn := true }] } }
    viaOk y v = true ∧ viaOk y { v with dst := 7 } = false ∧ viaOk (dv id) { v with bus := 2, dst := 0 } = false ∧
      viaOk (modLink (dv id) 0 false fun l => { l with up := true }) { v with bus := 2, dst := 0 } = true ∧
      tarnTakes w 4 (mq (f 4 5)) = true ∧ tarnTakes w 4 (mq (f 4 6)) = false ∧ tarnTakes w 0x0A01 (mq []) = true := by
  and_intros <;> decide +kernel

theorem test_met_mctp_forms :
    takes specFnCntRead.opcode (dv id) (mq []) = true ∧ (mq []).payload = [] ∧ (mq []).flags < 2 ∧
      takes specTraceConfig.opcode (dv id) (mq (zeros 16)) = true ∧ (mq (zeros 16)).payload.length = 16 ∧
      wellMade specXlatFaultRingSet (up id) (mq (zeros 16)) = true ∧
      wellMade specCtxCreate (up hasPd) (mq (f 2 0 ++ f 2 1 ++ [6, 16] ++ zeros 26)) = true ∧
      wellMade specPdCreate (up id) (mq (zeros 16)) = true ∧ wellMade specRegionDeregister (up id) (mq (f 4 (2 ^ 24 + 5))) = true := by
  and_intros <;> decide +kernel

theorem test_met_BoardQueriesAnswer_modules :
    let on := fun (r p : Bool) (k : Nat) (y : Sys) => modCage y 15 fun g => { g with st := .powered, ready := r, passive := p, step := k }
    let w := rq [15, 1, 0, 0, 26, 1, 0, 0, 9]
    (∀ g ∈ [on false false 0, on true true 0, on true false 0, on false false 6], passes (specCmis w) (up g) w = true ∧ mayWait (up g) w = true ∧
      (getCage (at_ g [15]) 15).st = .powered) ∧ num w.payload 1 1 = 1 ∧ (getCage (at_ (on false false 0) [15]) 15).ready = false ∧
      (getCage (at_ (on true true 0) [15]) 15).passive = true ∧ (getCage (at_ (on false false 6) [15]) 15).step = 6 ∧
      (getCage (at_ (on false false 0) [15]) 15).step ≠ 1 := by
  and_intros <;> decide +kernel

theorem test_met_ContextSettingsAreStored_free :
    let b := f 2 3 ++ f 2 0 ++ f 4 0 ++ f 2 1 ++ f 2 1 ++ f 4 0 ++ zeros 16
    ok specMeCtxConfig id b = true ∧ getCtx (at_ id b) 3 = none := by and_intros <;> decide +kernel

theorem test_met_ActivationBeginsAndEnds_revert :
    let ac : Activation := { slot := 1, step := 1, revert := true, failed := false, owner := none, trialEpochs := 1 }
    let y := fun y : Sys => { slot1 .trial 1 [] y with upd := { (slot1 .trial 1 [] y).upd with act := some ac } }
    passes specUpdateConfirm (up y) (rq [1, 0, 0, 0]) = true ∧ slotIn (at_ y []) .trial = some 1 ∧ (at_ y []).upd.act.any (·.revert) = true ∧
      (at_ (slot1 .trial 1 []) []).upd.act.any (·.revert) = false ∧ saveSlot (at_ (slot1 .trial 1 []) []) = 1 ∧ slotIn (at_ id []) .trial = none := by
  and_intros <;> decide +kernel

theorem test_met_ServiceCommandsRun_seeds :
    let st := fun (l : BitVec 3) (g : Sys → Sys) => ({ up g with fuse := { FuseBank.blank with lc := l } } : State)
    let seeded := fun y : Sys => { y with sec := { y.sec with ids := some (zeros 96) } }
    passes specAttestRequest (st 1 seeded) (rq (zeros 32)) = true ∧ lifecycle (st 1 seeded).fuse (st 1 seeded).sys = .provisioned ∧
      (used (st 1 seeded) (rq (zeros 32))).sec.ids.isSome = true ∧ (used (st 1 seeded) (rq (zeros 32))).sec.signing = none ∧
      (used (st 1 id) (rq (zeros 32))).sec.ids = none := by
  and_intros <;> decide +kernel

theorem test_met_ResetsBeginAgain_standby :
    let y := dv fun y => { y with pins := { y.pins with standby := true } }
    let z := dv fun y => { y with svc := { y.svc with fuseOp := some (.svn 1) } }
    y.pins.standby = true ∧ (dv id).pins.standby = false ∧ (dv id).svc.fuseOp = none ∧ z.pins.standby = false ∧ z.svc.fuseOp.isSome = true := by
  and_intros <;> decide +kernel

theorem test_met_StartUpGoesOn_bad :
    let y := State.reset.sys
    let bad := { y with start := { y.start with misrBad := true } }
    let dark := { y with pins := { y.pins with standby := true } }
    y.start.misrBad = false ∧ y.pins.standby = false ∧ bad.start.misrBad = true ∧ dark.pins.standby = true ∧
      (bootRead y).dev.st = .wiping ∧ ({ y with start := { y.start with noSlot := true } } : Sys).start.noSlot = true := by
  and_intros <;> decide +kernel

theorem test_met_FrameTickAdvancesTime_temps :
    ([] : List Int) = [] ∧ (List.replicate 36 (0 : Int)) ≠ [] ∧ early State.reset.sys = true := by and_intros <;> decide +kernel

theorem test_met_EpochWorkRuns_dark :
    let y := dv fun y => { y with pins := { y.pins with standby := true }, time := { y.time with epochDue := true } }
    dark y = true ∧ early y = false ∧ y.time.epochDue = true := by and_intros <;> decide +kernel

theorem test_met_ControlComplexComesAndGoes_pending :
    let at_ := fun w : Wait => pendAs w 5 none
    outlives true (at_ .attest) = true ∧ outlives false (at_ .attest) = false ∧ outlives false (at_ (.svnFuse (rq []))) = true ∧
      outlives true (at_ .quiesce) = false ∧ outlives false (at_ .activate) = true ∧ (∀ p ∈ (dv id).svc.pend, p.res.isNone = false) := by
  and_intros <;> decide +kernel

theorem test_met_WhatIsIdleExpires_lock :
    let se : Session := { who := .fn 0 0, token := 1, slot := 0, families := 1, lastEpoch := 0, nonce := [], keySets := 0 }
    let y := dv fun y => let y := locked (.fn 0 0) (slot1 .staging 4 [] y)
      { modLock y fun l => { l with holder := .req (.fn 0 0) 1 } with sec := { y.sec with sessions := [se] } }
    let port := dv fun y => modLock (locked (.fn 0 0) y) fun l => { l with holder := .port 3 }
    y.upd.lock.map (·.holder) = some (.req (.fn 0 0) 1) ∧ (∃ x ∈ y.sec.sessions, (fun _ : Session => true) x = true ∧ x.who = .fn 0 0 ∧ x.token = 1) ∧
      (getSlot y 1).st = .staging ∧ port.upd.lock.map (·.holder) = some (.port 3) ∧ y.sec.chals = [] ∧ y.sec.reports = [] := by
  and_intros <;> decide +kernel

theorem test_met_LaneDetectorsAct_quads :
    let lk := fun y : Sys => { y with pwr := { y.pwr with quadLock := List.replicate 32 true, swd := List.replicate 180 2 } }
    quadLocked (dv lk) 1 = true ∧ portEnabled FuseBank.blank 2 = true ∧ swdState (dv lk) 1 = 2 ∧ swdState (dv id) 1 ≠ 2 ∧
      (getNp (dv (p3 fun n => { n with st := .init })) 3).st = .init := by
  and_intros <;> decide +kernel

theorem test_met_SwitchMovesPackets_routes :
    let q := fun (r : Route) (a : Nat) => ({ pkt := { pk with dcoord := 4, age := a }, cx := 3, arr := 0, route := some r } : QPkt)
    let y := dv fun y => { y with rt := { y.rt with vcq := [q (.net 3 1) 0] } }
    let open_ := modRp (p3 (fun n => { n with st := .up, helloOk := true }) (wired y)) 3 fun r => { r with ripple := some rip }
    headOf y 3 0 = some (q (.net 3 1) 0) ∧ tooOld y (q (.net 3 1) 0).pkt = false ∧ tooOld (ftAt (100 * 1024) y) (q (.net 3 1) 1).pkt = true ∧
      routable y 3 = false ∧ routable open_ 3 = true ∧ (pickVc y 3 4 [0, 1, 2, 3]).isSome = true ∧ pickVc y 3 100000 [0, 1, 2, 3] = none ∧ y.rt.freeze = none ∧ ejRoom y 1 4 = true ∧
      ejRoom { y with hps := y.hps.map fun h => { h with ej := List.replicate 600 (3, { pk with len := 255 }) } } 1 255 = false ∧
      ([3, 63].foldl (fun a p => sendCopy a (q (.copies [3, 63] true) 0) p) (open_, [])).2 = [] ∧
      ([3, 63].foldl (fun a p => sendCopy a { q (.copies [3, 63] true) 0 with pkt := { pk with len := 100000 } } p) (open_, [])).2 = [3] := by
  and_intros <;> decide +kernel

theorem test_met_HostPortsComeAndGo_links :
    let dom := dv fun y => { y with pwr := { y.pwr with swd := List.replicate 180 2 }, hps := y.hps.map fun h => { h with a := { h.a with perst := false } } }
    let off := { dom with pwr := { dom.pwr with hpOff := [0] } }
    let g := dv fun y => modLink (modFn y 0 0 fun g => { g with msixSize := 4, msixPend := [3], unmasked := [3], bme := true }) 0 false fun l => { l with up := true }
    dom.dev.st ≠ .wiping ∧ (getLink dom 0 false).perst = false ∧ dom.pwr.hpOff.contains 0 = false ∧ off.pwr.hpOff.contains 0 = true ∧
      (getFn g 0 0).bme = true ∧ (linkOf g 0 0).up = true ∧ (getFn g 0 0).unmasked.contains 3 = true ∧ (getFn (dv id) 0 0).bme = false ∧
      (getFn g 0 0).msixPend.contains 3 = true ∧ (getFn (dv id) 0 0).msixPend.contains 3 = false := by
  and_intros <;> decide +kernel

theorem test_met_HostWritesThroughTheDoor_off :
    fnPresent (dv id) 0 1 = false ∧ pageCtx (dv id) 0 0 0 = none ∧
      (mailbox (.getState (rq []))).map (·.1.opcode) = some 2 ∧ specIdentify.opcode ≠ 0xFFFF := by and_intros <;> decide +kernel

theorem test_met_DescriptorsAreCarriedOut_col :
    let y := dv fun y => faber (commOf (hasCtx (cx .active) y))
    let d := (pd 0x20).d
    (memberOf y 5 3).isSome = true ∧ memberOf (dv id) d.dctx 3 = none ∧ hasFeid y 3 = true ∧ hasFeid (dv commOf) 3 = false ∧ colCodesOk d = true ∧
      colCodesOk { d with w40 := 7 } = false ∧ colFull (comm .ready) cm = false ∧ (comm .failed).st = .failed ∧ (comm .joining).st = .joining ∧
      (comm .ready).early = [] := by
  and_intros <;> decide +kernel

theorem test_met_SegmentsCompleteAndAreRepeated_tids :
    let a := fun op => ({ req op with tinc := 9, tid := 7 } : Packet)
    let y := fun op => dv fun y => hasCtx (cx .active) (synced (ejected (a op) { y with te := { y.te with segs := [seg1], ops := [op1] } }))
    (getPeer (y 0x81) 1).sync = none ∧ sameInc (y 0x81) 1 (a 0x81) = true ∧ (osnSeg (y 0x81) 1 0).isSome = true ∧ (a 0x81).tid ≠ tidOf (y 0x81) 3 ∧
      sameInc (y 0x83) 1 { a 0x83 with tinc := 8 } = false ∧ (3 + 3 * 256 + 9 * 2 ^ 32) % 256 = 3 ∧ bits (3 + 3 * 256 + 9 * 2 ^ 32) 8 8 = 3 ∧
      bits (3 + 3 * 256 + 9 * 2 ^ 32) 32 12 = 9 ∧ (getPeer (y 0x82) 1).valid = true ∧ (getPeer (dv id) 1).valid = false := by
  and_intros <;> decide +kernel

theorem test_met_CollectivesAreCreated_setup :
    let b := f 4 9 ++ f 2 0 ++ f 2 1 ++ zeros 8 ++ f 4 13
    let c := comm .joining
    b.length = 16 + 4 * num b 6 2 ∧ (f 4 9).length ≠ 16 + 4 * num (f 4 9) 6 2 ∧ c.st = .joining ∧ c.setup = false ∧ c.refused = false ∧
      c.leader = false ∧ (num b 0 4).testBit 31 = false ∧ num b 0 4 % 2 ^ 20 = 9 ∧ 1024 < c.nlocal + 1024 ∧ c.early = [] := by
  and_intros <;> decide +kernel

theorem test_met_CollectiveDataMoves_chunks :
    let ch : Chunk := { cseq := 1, expo := false, off := 0, data := zeros 4, hdr := 3, msglen := 4, root := 0, arr := 0 }
    let c := { comm .ready with inputs := [[ch], [ch]] }
    let h := (c.inputs.mapIdx fun i l => (i, l.head?)).filterMap fun e => e.2.map fun ch => (e.1, ch)
    h = [(0, ch), (1, ch)] ∧ chunkJoins ch = true ∧ chunkJoins { ch with hdr := 5 * 256 } = false ∧ disagree ch ch = false ∧
      disagree ch { ch with hdr := 4 } = true ∧ c.parent.isSome = true ∧ c.depth = 1 ∧ (c.inputs.getD 0 []).length = 1 ∧
      ((comm .ready).inputs.getD 0 []).length + cm.reading.length < (comm .ready).depth ∧ nextOp (comm .ready) cm = none ∧
      ((comm .ready).members.find? fun m => m.ctx == 3) = some cm := by
  and_intros <;> decide +kernel

theorem test_met_PowerFollowsItsCommandsAndEvents_dark :
    let y := dv fun y => { y with pins := { y.pins with standby := true } }
    dark y = true ∧ dark (dv id) = false ∧ (wired (dv id)).start.fru.isSome = true ∧ ([136] : List Nat).head? ≠ some 137 ∧
      (getCage (dv id) 15).st ≠ .powered ∧ (dv id).start.fruRead = false := by
  and_intros <;> decide +kernel

/-- R199 to R202: one element of each kind at the edge that the statement names. -/
theorem test_met_CollectiveElementsAreCombined :
    Fmt.b32.decode 0x7FC00000 = .nan false ∧ Fmt.b32.decode 0xFF800000 = .inf true ∧ (upFmt 4).decode 0x7FF8000000000000 = .nan false ∧
      Fmt.b32.decode 0 = .fin false 0 (-149) ∧ hdrGrid 0 = false ∧ ropOf 0 = some .add ∧
      expRecord .b32 [0x3F800000, 0x7F800000] = { emax := 0, nan := 0, pinf := 2, ninf := 0 } := by
  and_intros <;> decide +kernel

theorem test_met_IndicesBuffersAndSessionsStayInBounds :
    let r : EvRing := { base := 4096, count := 64, widx := 63, unread := 64, phase := true, vector := 0 }
    movesBounds (.eqHeadWrite 0 0 0 5) = true ∧ r.Fits ∧ (up id).pending = [] ∧ ((dv id).sec.sessions.filter fun x => sameLimit x.who (.fn 0 0)).length < 4 := by
  unfold EvRing.Fits; and_intros <;> decide +kernel

/-- The empty device is within its bounds, so the invariant says something of it. -/
theorem test_met_Fits : Fits State.reset.sys := by
  refine ⟨fun hp fn => ⟨?_, ?_, ?_, ?_, ?_, ?_⟩, fun c x h => ?_, fun who => ?_⟩
  · exact rfl
  · exact rfl
  · exact Nat.zero_lt_succ _
  · exact Nat.zero_lt_succ _
  · intro r h; cases h
  · intro r h; cases h
  · cases h
  · exact Nat.zero_le _

/-! ### Well-formed commands -/

/-- Measurements of the right number. -/
def meas0 : EpochIn :=
  { temps := List.replicate 36 0, volts := List.replicate 24 0, margin := 0, negative := [], trims := [], avsOk := true, fec := [] }

/-- A link-control header whose contents do not matter. -/
def h0 : CtlHdr := hd (.linkDown 0)

/-- A time message. -/
def tm0 : TimeMsg := { sync := 0, ev := false, prio := 0, hops := 0, rootAddr := 0, tx := 0, echoTx := 0, echoRx := 0 }

/-- A ripple. -/
def rip0 : Ripple := { sframe := 0, dstate := 0, portup := 0, portq := [], hostq := [], dstart := none, digest := [], relay := [] }

theorem test_wf_takes1 : ([.wipeComplete true true [], .thermalCooldownRelease (List.replicate 36 0) [], .fruRead [], .frameTick [] (List.replicate 36 0), .epochTick meas0,
    .taskOverrun 0 0, .epochTaskOverrun 8, .counterDump 0 0, .sessionIdleExpiry 0, .challengeExpiry (.fn 0 0), .timeSend 0,
    .timeReceive 0 h0 tm0 0 0, .ppsEdge 0, .linkHoldoffExpiry 0, .trainingPhaseDone 0 0 0, .trainingPhaseTimeout 0 true,
    .initReceive 0 h0 InitMsg.own, .initTimeout 0, .llPacketReceive 0 0 [] pk none, .llAckSend 0, .llAckReceive 0 h0 { next := 0, recs := [] },
    .llNackReceive 0 h0 { next := 0, base := 0, mask := 0 }, .credSyncReceive 0 h0 { sframe := 0, next := 0, ret := [], rcv := [] },
    .replayTimerExpiry 0, .rippleReceive 0 h0 rip0, .laneReceive 0 h0 { sub := 1, tag := 0, mask := 0, forced := false }, .laneReqTimeout 0,
    .laneAddRequest 0, .linkDownReceive 0 h0 0, .silentTimeout 0, .losDeclare 0, .losAssert 0 0, .lockLoss 0 0, .alignmentLoss 0, .quadPllUnlock 0,
    .quadPllRelock 0, .refclkLoss 0, .packetTransmit 0 0 0, .packetRoute 0 0, .routeRecompute 0 0, .outputAllocate 0 0, .escapeMove 0 0,
    .helloSend 0, .helloExpiry 0, .sqTailWrite 0 0 0 0, .inlinePush 0 0 0 0 [], .eqHeadWrite 0 0 0 0, .adminHeadWrite 0 0 0, .xfaultHeadWrite 0 0 0,
    .registerWrite 0 0 (.bar0 0) 4 0, .descriptorFetch 0, .put 0, .putImm 0, .get 0, .atomic 0, .fetchAtomic 0, .cswap 0, .send 0, .recvPost 0,
    .recvCancel 0] : List Instr).all (fun i => i.wf) = true := by decide

theorem test_wf_takes2 : ([.colStart 0, .fenceNop 0, .xlatInvalidateRing 0, .deferredPostRelease 0, .packetInject 0, .moderationTimerExpiry 0, .functionLevelReset 0 0,
    .flrCleanup 0 0, .hostPortReset 0 true 0, .perstDeassert 0 true, .vfEnableClear 0 true, .vfEnableSet 0 true,
    .hostReadCompletion 0 0 true true [], .hostCompletionTimeout 0 0, .putReceive 0, .getReqReceive 0, .atomicReceive 0, .probeReceive 0,
    .retireReceive 0, .syncReceive 0, .sendPacketReceive 0, .rdvGetReceive 0, .segmentCompleteAck 0 0, .finalSegmentNotify 0 0, .assemblyTimeout 0 0,
    .resultEntryExpiry 0 0, .transportAckReceive 0, .transportNackReceive 0, .sackReceive 0, .getRespReceive 0, .segmentTimeout 0,
    .nackRetryWaitExpiry 0 0, .colJoinResend 0, .joinTimerExpiry 0, .contributionRead 0 0, .chunkCombine 0, .colCredSend 0, .colBeatSend 0,
    .neighbourLost 0 0, .cageFastTrip 0, .cageBackstop 0, .moduleBringup 0 true 0 [] 0, .moduleReady 0 0, .moduleTimeout 0,
    .moduleInterrupt 0 none [], .moduleLowPower 0, .domainPowerUp 0, .domainPowerComplete 0, .thermalTrip 0 0, .droopStretch 0, .faultHandlingEnd 0,
    .faultFloorDecay 0, .mctpControlMessage 0 0 0 [], .abortComplete 0, .abortBoundReached 0, .commandTimeout (.fn 0 0) 0,
    .bistTestComplete 0 true 0, .attestReportExpiry (.fn 0 0), .freshetOfferSend 0, .bandwidthWindowEnd 0] : List Instr).all (fun i => i.wf) = true := by decide

theorem test_wf_takes3 : ([.losClear 0 0, .lockRegain 0 0, .alignmentFound 0, .hostLinkTrained 0 true 16 4 true, .msixVectorUnmask 0 0 0, .mbxDoorbell 0 0 0 [],
    .requestBufferWrite 0 0 0 [], .domainPowerDownComplete 0, .jtagInstruction 0] : List Instr).all (fun i => i.wf) = true := by decide

theorem test_wf_refuses1 : ([.wipeComplete true true [(2, 0)], .wipeComplete true true [(1, 16)], .thermalCooldownRelease [0] [],
    .thermalCooldownRelease (List.replicate 36 0) [(2, 0)], .thermalCooldownRelease (List.replicate 36 0) [(1, 16)],
    .fruRead [{ type := 256, sumOk := true, data := [] }],
    .frameTick [{ present := false, lim := false, vin := 0, vout := 0, cur := 0 }] (List.replicate 36 0), .frameTick [] [0], .taskOverrun 8 0,
    .taskOverrun 0 64, .epochTaskOverrun 11, .epochTaskOverrun 7, .counterDump 4 0, .counterDump 0 64, .sessionIdleExpiry 18446744073709551616,
    .challengeExpiry (.fn 4 0), .challengeExpiry (.fn 0 64), .challengeExpiry (.mctp 256), .timeSend 64,
    .timeReceive 0 { h0 with txseq := 65536 } tm0 0 0, .timeReceive 0 h0 tm0 1024 0, .timeReceive 0 h0 tm0 0 64, .timeReceive 64 h0 tm0 0 0,
    .ppsEdge 18446744073709551616, .linkHoldoffExpiry 64, .trainingPhaseDone 0 4 0, .trainingPhaseDone 0 0 65536, .trainingPhaseDone 64 0 0,
    .trainingPhaseDone 0 0 65536, .trainingPhaseDone 0 0 (-65536), .trainingPhaseTimeout 64 true,
    .initReceive 0 { h0 with txseq := 65536 } InitMsg.own, .initReceive 64 h0 InitMsg.own, .initTimeout 64, .llPacketReceive 0 4294967296 [] pk none,
    .llPacketReceive 64 0 [] pk none, .llPacketReceive 0 0 [] pk (some 1024), .llAckSend 64,
    .llAckReceive 0 { h0 with txseq := 65536 } { next := 0, recs := [] }, .llAckReceive 64 h0 { next := 0, recs := [] },
    .llNackReceive 0 { h0 with txseq := 65536 } { next := 0, base := 0, mask := 0 }, .llNackReceive 64 h0 { next := 0, base := 0, mask := 0 },
    .credSyncReceive 0 { h0 with txseq := 65536 } { sframe := 0, next := 0, ret := [], rcv := [] },
    .credSyncReceive 64 h0 { sframe := 0, next := 0, ret := [], rcv := [] }, .replayTimerExpiry 64, .rippleReceive 0 { h0 with txseq := 65536 } rip0,
    .rippleReceive 64 h0 rip0, .laneReceive 0 { h0 with txseq := 65536 } { sub := 1, tag := 0, mask := 0, forced := false },
    .laneReceive 64 h0 { sub := 1, tag := 0, mask := 0, forced := false }, .laneReqTimeout 64, .laneAddRequest 64,
    .linkDownReceive 0 { h0 with txseq := 65536 } 0, .linkDownReceive 0 h0 256, .linkDownReceive 64 h0 0, .silentTimeout 64, .losDeclare 64,
    .losAssert 0 2, .losAssert 64 0, .lockLoss 0 2, .lockLoss 64 0] : List Instr).all (fun i => !i.wf) = true := by decide

theorem test_wf_refuses2 : ([.alignmentLoss 64, .quadPllUnlock 32, .quadPllRelock 32, .refclkLoss 8, .packetTransmit 0 1024 0, .packetTransmit 0 0 64, .packetTransmit 64 0 0,
    .packetRoute 68 0, .packetRoute 0 16, .routeRecompute 68 0, .routeRecompute 0 16, .outputAllocate 68 0, .outputAllocate 0 16, .escapeMove 68 0,
    .escapeMove 0 16, .helloSend 64, .helloExpiry 64, .sqTailWrite 4 0 0 0, .sqTailWrite 0 64 0 0, .sqTailWrite 0 0 32768 0,
    .sqTailWrite 0 0 0 18446744073709551616, .inlinePush 4 0 0 0 [], .inlinePush 0 64 0 0 [], .inlinePush 0 0 32768 0 [], .inlinePush 0 0 0 65536 [],
    .eqHeadWrite 4 0 0 0, .eqHeadWrite 0 64 0 0, .eqHeadWrite 0 0 32768 0, .eqHeadWrite 0 0 0 18446744073709551616, .adminHeadWrite 4 0 0,
    .adminHeadWrite 0 64 0, .adminHeadWrite 0 0 18446744073709551616, .xfaultHeadWrite 4 0 0, .xfaultHeadWrite 0 64 0,
    .xfaultHeadWrite 0 0 18446744073709551616, .registerWrite 4 0 (.bar0 0) 4 0, .registerWrite 0 0 (.bar0 0) 4 18446744073709551616,
    .registerWrite 0 0 (.bar0 0) 2 0, .registerWrite 0 64 (.bar0 0) 4 0, .registerWrite 0 0 (.bar0 65536) 4 0,
    .registerWrite 0 0 (.cfg (.steerTag 64)) 4 0, .registerWrite 0 64 (.cfg (.steerTag 0)) 4 0, .registerWrite 0 65 (.cfg .maxRead) 4 0,
    .descriptorFetch 65536, .put 65536, .putImm 65536, .get 65536, .atomic 65536, .fetchAtomic 65536, .cswap 65536, .send 65536, .recvPost 65536,
    .recvCancel 65536, .colStart 65536, .fenceNop 65536, .xlatInvalidateRing 65536, .deferredPostRelease 65536, .packetInject 4,
    .moderationTimerExpiry 65536, .functionLevelReset 4 0] : List Instr).all (fun i => !i.wf) = true := by decide

theorem test_wf_refuses3 : ([.functionLevelReset 0 64, .flrCleanup 4 0, .flrCleanup 0 64, .hostPortReset 4 true 0, .perstDeassert 4 true, .vfEnableClear 4 true,
    .vfEnableSet 4 true, .hostReadCompletion 4 0 true true [], .hostReadCompletion 0 16384 true true [], .hostCompletionTimeout 4 0,
    .hostCompletionTimeout 0 16384, .putReceive 4, .getReqReceive 4, .atomicReceive 4, .probeReceive 4, .retireReceive 4, .syncReceive 4,
    .sendPacketReceive 4, .rdvGetReceive 4, .segmentCompleteAck 262144 0, .segmentCompleteAck 0 4294967296, .finalSegmentNotify 262144 0,
    .finalSegmentNotify 0 4294967296, .assemblyTimeout 262144 0, .assemblyTimeout 0 4294967296, .resultEntryExpiry 262144 0,
    .resultEntryExpiry 0 4294967296, .transportAckReceive 4, .transportNackReceive 4, .sackReceive 4, .getRespReceive 4,
    .segmentTimeout 1125899906842624, .nackRetryWaitExpiry 1125899906842624 0, .nackRetryWaitExpiry 0 64, .colJoinResend 65536,
    .joinTimerExpiry 65536, .contributionRead 65536 0, .contributionRead 0 65536, .chunkCombine 65536, .colCredSend 65536, .colBeatSend 65536,
    .neighbourLost 65536 0, .neighbourLost 0 1048576, .cageFastTrip 16, .cageBackstop 16, .moduleBringup 16 true 0 [] 0, .moduleReady 16 0,
    .moduleReady 0 1099511627776, .moduleTimeout 16, .moduleInterrupt 16 none [], .moduleLowPower 16, .domainPowerUp 180, .domainPowerComplete 180,
    .thermalTrip 36 0, .droopStretch 9, .faultHandlingEnd 128, .faultFloorDecay 128, .mctpControlMessage 3 0 0 [], .mctpControlMessage 0 256 0 [],
    .mctpControlMessage 0 0 256 []] : List Instr).all (fun i => !i.wf) = true := by decide

theorem test_wf_refuses4 : ([.abortComplete 65536, .abortBoundReached 65536, .commandTimeout (.fn 0 0) 65536, .commandTimeout (.fn 4 0) 0, .commandTimeout (.fn 0 64) 0,
    .commandTimeout (.mctp 256) 0, .bistTestComplete 9 true 0, .bistTestComplete 0 true 340282366920938463463374607431768211456,
    .attestReportExpiry (.fn 4 0), .attestReportExpiry (.fn 0 64), .attestReportExpiry (.mctp 256), .freshetOfferSend 64, .bandwidthWindowEnd 64,
    .losClear 0 2, .losClear 64 0, .lockRegain 0 2, .lockRegain 64 0, .alignmentFound 64, .hostLinkTrained 4 true 16 4 true,
    .hostLinkTrained 0 true 3 4 true, .hostLinkTrained 0 true 16 3 true, .msixVectorUnmask 4 0 0, .msixVectorUnmask 0 64 0,
    .msixVectorUnmask 0 0 2048, .mbxDoorbell 4 0 0 [], .mbxDoorbell 0 64 0 [], .mbxDoorbell 0 0 18446744073709551616 [],
    .requestBufferWrite 4 0 0 [], .requestBufferWrite 0 64 0 [], .requestBufferWrite 0 0 65536 [], .domainPowerDownComplete 180, .jtagInstruction 256] : List Instr).all (fun i => !i.wf) = true := by decide

theorem test_wf_requests :
    let rows : List (MbxReq → Instr) := [.identify, .getState, .adminRingSet, .mbxResult, .devQuiesce, .devResume, .sessionOpen, .sessionProve, .sessionClose, .ctxCreate, .ctxDestroy,
    .ctxActivate, .ctxQuery, .ctxResume, .ctxModerate, .ctxSched, .fnShape, .fnQuota, .ctxAbort, .fnAbort, .pdCreate, .pdDestroy, .regionRegister,
    .regionDeregister, .fnTenant, .fnS2Set, .regtabSet, .hostmapSet, .xlatFaultRingSet, .xlatResume, .xlatInvalidate, .xlatAge, .frameConfig,
    .timeStatus, .teConfig, .tblWrite, .tblCommit, .tblRead, .routeConfig, .dgramSend, .dgramRecv, .linkStatus, .linkControl, .slConfig, .slStatus,
    .slPrbs, .slSlip, .commCreate, .commDestroy, .commQuery, .mgidGrant, .colConfig, .meCtxConfig, .meQuery, .psetCreate, .psetDestroy, .psetAdd,
    .psetRemove, .psetHint, .psetQuery, .pePolicy, .peRouteQuery, .cntConfig, .cntRead, .cntGrant, .cntBw, .fnCntRead, .traceConfig, .faultRead,
    .faultClear, .faultConfig, .faultNotify, .faultInject, .logRead, .logClear, .chipReset, .updateOpen, .updateWrite, .updateVerify, .updateAbandon,
    .updateActivate, .updateConfirm, .updateStatus, .freshetConfig, .settingsSave, .settingsSet, .bistRun, .pwrStatus, .pwrDomain, .cageConfig,
    .cageControl, .cageStatus, .cmisAccess, .sensorRead, .sensorLimits, .lcStatus, .attestRequest, .attestRead, .idCertRead, .idCertWrite, .keySet,
    .lcTransition]
    rows.all (fun c => (c (rq [])).wf && !(c { rq [] with tag := 65536 }).wf) = true := by decide

theorem test_wf_request_fields : let r := rq []
    [{ r with who := .fn 4 0 }, { r with who := .fn 0 64 }, { r with who := .mctp 256 }, { r with flags := 256 }, { r with tag := 65536 }, { r with token := 2 ^ 64 }].all (fun q => !reqOk q) = true := by decide

theorem test_wf_request_length : reqOk (rq (zeros 65535)) = true ∧ reqOk (rq (zeros 65536)) = false := by decide +kernel

theorem test_wf_packet_fields : packetOk pk = true ∧ [{ pk with lseq := 65536 }, { pk with vc := 16 }, { pk with len := 0 }, { pk with len := 67 },
    { pk with kind := 1 }, { pk with kind := 8 }, { pk with dfeid := 2 ^ 20 }, { pk with dcoord := 2 ^ 18 }, { pk with rmode := 4 },
    { pk with payload := zeros 4097 }, { pk with pcrc := 2 ^ 32 }].all (fun p => !packetOk p) = true := by decide +kernel

theorem test_wf_packet : Instr.wf (.llPacketReceive 0 0 [1] { pk with len := 0 } none) = false := by decide

theorem test_wf_measurements : epochOk meas0 = true ∧ [{ meas0 with temps := [] }, { meas0 with volts := [] }, { meas0 with negative := [9] }].all
    (fun m => !epochOk m) = true ∧ Instr.wf (.epochTick { meas0 with temps := [] }) = false := by decide

theorem test_wf_fru : Instr.wf (.fruRead (List.replicate 256 { type := 0xD4, sumOk := true, data := [] })) = false ∧
    Instr.wf (.fruRead [{ type := 0xD4, sumOk := true, data := zeros 256 }]) = false := by decide +kernel

/-! ### The rows of the table give no bits -/

theorem test_no_word_decodes : decodeTableWord 32 5 = none ∧ (State.reset.withFetchWord 32 5) = State.reset := ⟨rfl, rfl⟩

end Sys2Proof.Tests
end

section
/-! The queries of the device (IDENTIFY, GET_STATE, TIME_STATUS, UPDATE_STATUS, LC_STATUS, LINK_STATUS): how a field is read back out of an answer
that is put together from parts, what the use of a session leaves of the state that an answer shows, and the fields of each answer. -/
namespace Sys2Proof.Machine

/-! ### Fields of a string put together from parts -/

/-- A field beyond the first part. -/
theorem num_append_of_le (a b : Bytes) {off : Nat} (n : Nat) (h : a.length ≤ off) : num (a ++ b) off n = num b (off - a.length) n := by
  rw [num, sub_skip _ _ _ _ h, num]

/-- A field that is the first part. -/
@[simp] theorem num_le_append (n v : Nat) (b : Bytes) : num (le n v ++ b) 0 n = v % 256 ^ n := by
  rw [num, sub_here _ _ _ (le_length n v), nat_le]

/-- A field that is the whole string. -/
@[simp] theorem num_le (n v : Nat) : num (le n v) 0 n = v % 256 ^ n := by
  rw [num, sub_all _ _ (le_length n v), nat_le]

@[simp] theorem sle_length (n : Nat) (v : Int) : (sle n v).length = n := le_length _ _

@[simp] theorem whoBytes_length (w : Requester) : (whoBytes w).length = 2 := by
  cases w <;> simp [whoBytes]

/-- The lowest bit of a number of flags, as `simp` reads it. -/
@[simp] theorem decide_b2n_mod_two (b : Bool) : decide (b2n b % 2 = 1) = b := by
  cases b <;> rfl

/-! ### Values that fit their field -/

@[simp] theorem DevState.code_mod (x : DevState) : x.code % 256 = x.code := by cases x <;> rfl
@[simp] theorem Lifecycle.code_mod (x : Lifecycle) : x.code % 256 = x.code := by cases x <;> rfl
@[simp] theorem SlotSt.code_mod (x : SlotSt) : x.code % 256 = x.code := by cases x <;> rfl
@[simp] theorem LinkSt.code_mod (x : LinkSt) : x.code % 256 = x.code := by cases x <;> rfl

theorem npMask_lt (f : FuseBank) : npMask f < 2 ^ 64 := by
  unfold npMask
  omega

/-- A field counts no more bits than it has. -/
theorem popcount_le {w : Nat} (b : BitVec w) : popcount b ≤ w := by
  simpa [popcount] using List.length_filter_le b.getLsbD (List.range w)

/-! ### What the use of a session leaves of what the answers show -/

@[simp] theorem used_dev (s : State) (q : MbxReq) : (used s q).dev = s.sys.dev := by rw [used_eq]
@[simp] theorem used_start (s : State) (q : MbxReq) : (used s q).start = s.sys.start := by rw [used_eq]
@[simp] theorem used_time (s : State) (q : MbxReq) : (used s q).time = s.sys.time := by rw [used_eq]
@[simp] theorem used_lastEnd (s : State) (q : MbxReq) : (used s q).upd.lastEnd = s.sys.upd.lastEnd := by rw [used_eq]
@[simp] theorem used_degr (s : State) (q : MbxReq) : degr (used s q) = degr s.sys := by rw [used_eq]; rfl
@[simp] theorem used_getNp (s : State) (q : MbxReq) (p : Nat) : getNp (used s q) p = getNp s.sys p := by rw [used_eq]; rfl
@[simp] theorem used_getSlot (s : State) (q : MbxReq) (k : Nat) : getSlot (used s q) k = getSlot s.sys k := by rw [used_eq]; rfl
@[simp] theorem used_fusesNow (f : FuseBank) (s : State) (q : MbxReq) : fusesNow f (used s q) = fusesNow f s.sys := by rw [used_eq]; rfl
@[simp] theorem used_lifecycle (f : FuseBank) (s : State) (q : MbxReq) : lifecycle f (used s q) = lifecycle f s.sys := by rw [used_eq]; rfl
@[simp] theorem used_certLen (s : State) (q : MbxReq) : certLen (used s q) = certLen s.sys := by rw [used_eq]; rfl
@[simp] theorem used_timeStatusBytes (s : State) (q : MbxReq) : timeStatusBytes (used s q) = timeStatusBytes s.sys := by rw [used_eq]; rfl

/-- The staging lock stays held or free: only the time of its last use changes (R393). -/
@[simp] theorem used_lock_isSome (s : State) (q : MbxReq) : (used s q).upd.lock.isSome = s.sys.upd.lock.isSome := by
  simp [used, touchSession]

/-! ### The fields of each answer -/

/-- Table 3.14. -/
theorem identifyBytes_fields (f : FuseBank) (y : Sys) (w : Requester) : let d := identifyBytes f y w
    d.length = 48 ∧ num d 0 1 = f.order % 256 ∧ num d 1 1 = 0x21 ∧ num d 16 2 = y.start.incarn % 65536 ∧ num d 18 1 = y.dev.st.code ∧
      num d 19 1 = (lifecycle f y).code ∧ num d 24 8 = f.uid % 2 ^ 64 ∧ num d 32 8 = npMask f := by
  simpa [identifyBytes, num_append_of_le] using npMask_lt f

/-- Table 3.15. -/
theorem stateBytes_fields (y : Sys) (w : Requester) : let d := stateBytes y w
    d.length = 16 ∧ num d 0 1 = y.dev.st.code ∧ num d 1 1 = y.dev.prev.code ∧ (num d 2 1).testBit 0 = degr y ∧
      num d 3 1 = (y.svc.pend.filter fun p => p.who == w).length % 256 ∧ num d 8 8 = y.dev.ftTrans % 2 ^ 64 := by
  simp [stateBytes, num_append_of_le]

/-- Table 2.7. -/
theorem timeStatusBytes_fields (y : Sys) : let d := timeStatusBytes y
    d.length = 40 ∧ num d 0 8 = y.time.ft % 2 ^ 64 ∧ num d 9 1 = (y.time.upPort.getD 0x7F) % 256 ∧ num d 13 1 = y.time.colwin % 256 ∧
      num d 24 8 = (y.time.ppsOrigin.getD 0) % 2 ^ 64 ∧ num d 32 8 = ((y.time.pendCfg.map (·.epoch)).getD 0) % 2 ^ 64 := by
  simp [timeStatusBytes, num_append_of_le]

/-- Table 16.8. -/
theorem updateStatusBytes_fields (y : Sys) : let d := updateStatusBytes y
    d.length = 96 ∧ num d 0 1 = (getSlot y 0).st.code ∧ num d 1 1 = (getSlot y 1).st.code ∧ (num d 2 1).testBit 0 = y.upd.lock.isSome ∧
      sub d 16 32 = fit 32 (getSlot y 0).mdigest ∧ sub d 48 32 = fit 32 (getSlot y 1).mdigest ∧ num d 88 1 = y.upd.lastEnd % 256 := by
  simp [updateStatusBytes, num_append_of_le, sub_skip, sub_here]

/-- Table 15.8. -/
theorem lcStatusBytes_fields (f : FuseBank) (y : Sys) : let d := lcStatusBytes f y
    d.length = 96 ∧ num d 0 1 = (lifecycle f y).code ∧ num d 1 1 = popcount (fusesNow f y).dbgCnt ∧ num d 8 8 = popcount f.svnFloor ∧
      num d 16 8 = f.uid % 2 ^ 64 ∧ num d 24 4 = certLen y % 2 ^ 32 := by
  have hdbg : popcount (fusesNow f y).dbgCnt % 256 = popcount (fusesNow f y).dbgCnt :=
    Nat.mod_eq_of_lt (Nat.lt_of_le_of_lt (popcount_le _) (by decide))
  have hsvn : popcount f.svnFloor < 2 ^ 64 := Nat.lt_of_le_of_lt (popcount_le _) (by decide)
  simpa [lcStatusBytes, num_append_of_le, hdbg, apply_ite List.length] using hsvn

/-- LINK_STATUS's answer (Table 11.14), as `bodyLinkStatus` gives it. -/
def linkStatusBytes (y : Sys) (p : Nat) : Bytes :=
  let n := getNp y p
  le 1 n.st.code ++ le 1 (n.txLanes + 4 * n.rxLanes + 16 * b2n (routable y p)) ++ le 1 n.cause ++ le 1 n.attempts ++
    le 2 n.ll.txseq ++ le 2 n.ll.nrx ++ le 2 n.ll.replay.length ++ le 2 (n.ll.replay.map fun r => r.pkt.len).sum ++
    le 2 (n.ll.held.map fun k => k.len).sum ++ le 2 (n.tm.rtt.getD 3200) ++ le 4 n.downs ++ zeros 4

theorem bodyLinkStatus_eq (f : FuseBank) (y : Sys) (q : MbxReq) : bodyLinkStatus f y q = .done y (linkStatusBytes y (num q.payload 0 1)) := rfl

/-- Table 11.14. -/
theorem linkStatusBytes_fields (y : Sys) (p : Nat) : let d := linkStatusBytes y p; let n := getNp y p
    d.length = 24 ∧ num d 0 1 = n.st.code ∧ num d 2 1 = n.cause % 256 ∧ num d 3 1 = n.attempts % 256 ∧ num d 4 2 = n.ll.txseq % 65536 ∧
      num d 6 2 = n.ll.nrx % 65536 ∧ num d 8 2 = n.ll.replay.length % 65536 ∧ num d 14 2 = (n.tm.rtt.getD 3200) % 65536 ∧
      num d 16 4 = n.downs % 2 ^ 32 := by
  simp [linkStatusBytes, num_append_of_le]

/-! ### The commands -/

/-- A fast command whose body ends with the device as the use of the session left it answers and changes nothing. -/
theorem answers_of_done {i : Instr} {c : Spec} {s : State} {q : MbxReq} {b : FuseBank → Sys → MbxReq → Ans} {d : Bytes} {P : Bytes → Prop}
    (h : exec i s = .next (s.at (mbxRun c b s.fuse s.sys q))) (hc : c.cls = .fast) (hp : passes c s q = true)
    (hb : b s.fuse (used s q) q = .done (used s q) d) (hd : P d) : answers i c s q P :=
  ⟨d, hd, run_done h hc hp hb⟩

/-- Settles O8: each body answers on the device as it is, the answer's fields are those of its table, and what they show does not depend on the
    use of the session. -/
theorem deviceQueriesAnswer : Obligations.DeviceQueriesAnswer := by
  unfold Obligations.DeviceQueriesAnswer
  intro s q
  refine ⟨fun h => ?identify, fun h => ?getState, fun h => ?timeStatus, rfl, timeStatusBytes_fields s.sys, fun h => ?updateStatus,
    fun h => ?lcStatus, fun h => ?linkStatus⟩
  case identify => exact answers_of_done rfl rfl h rfl (by simpa using identifyBytes_fields s.fuse (used s q) q.who)
  case getState => exact answers_of_done rfl rfl h rfl (by simpa using stateBytes_fields (used s q) q.who)
  case timeStatus =>
    have hd : bodyTimeStatus s.fuse (used s q) q = .done (used s q) (s.sys.time.samp.getD (timeStatusBytes s.sys)) := by simp [bodyTimeStatus]
    exact run_done rfl rfl h hd
  case updateStatus => exact answers_of_done rfl rfl h rfl (by simpa using updateStatusBytes_fields (used s q))
  case lcStatus => exact answers_of_done rfl rfl h rfl (by simpa using lcStatusBytes_fields s.fuse (used s q))
  case linkStatus =>
    exact answers_of_done rfl rfl h (bodyLinkStatus_eq _ _ _) (by simpa using linkStatusBytes_fields (used s q) (num q.payload 0 1))

end Sys2Proof.Machine
end
section
/-! The commands that store a setting of the device: what the bodies that look at the state first answer in each case. -/
namespace Sys2Proof.Machine

/-- A port that takes a new serial configuration: DISABLED or DOWN (R316). -/
def quietPort (y : Sys) (p : Nat) : Prop := (getNp y p).st = .disabled ∨ (getNp y p).st = .down

/-- The configuration that an SL_CONFIG carries. -/
def slCfgOf (b : Bytes) : SlCfg :=
  { chan := bits (num b 1 1) 0 2, fec := bits (num b 1 1) 2 2, train := bits (num b 1 1) 4 2, swapInv := num b 2 1, serWarn := num b 4 4 }

theorem bodySlConfig_quiet (f : FuseBank) (y : Sys) (q : MbxReq) (h : quietPort y (num q.payload 0 1)) :
    bodySlConfig f y q = .done (modNp y (num q.payload 0 1) fun n => { n with slNext := some (slCfgOf q.payload) }) [] := by
  rcases h with h | h <;> simp [bodySlConfig, slCfgOf, h]

theorem bodySlConfig_busy (f : FuseBank) (y : Sys) (q : MbxReq) (h : ¬ quietPort y (num q.payload 0 1)) :
    bodySlConfig f y q = .no .stateConflict := by
  obtain ⟨hdis, hdown⟩ := not_or.mp h
  cases hst : (getNp y (num q.payload 0 1)).st <;> simp_all [bodySlConfig]

theorem bodySlSlip_quiet (f : FuseBank) (y : Sys) (q : MbxReq) (h : quietPort y (num q.payload 0 1)) :
    bodySlSlip f y q = .done (modLane y (num q.payload 0 1) (num q.payload 1 1) fun l => { l with slip := num q.payload 2 2 }) [] := by
  rcases h with h | h <;> simp [bodySlSlip, h]

theorem bodySlSlip_busy (f : FuseBank) (y : Sys) (q : MbxReq) (h : ¬ quietPort y (num q.payload 0 1)) :
    bodySlSlip f y q = .no .stateConflict := by
  obtain ⟨hdis, hdown⟩ := not_or.mp h
  cases hst : (getNp y (num q.payload 0 1)).st <;> simp_all [bodySlSlip]

/-- Settles O20: nine bodies end with the setting stored, whatever the state; SL_CONFIG and SL_SLIP look at the port's state first, MGID_GRANT at the
    communicators of the range. -/
theorem deviceSettingsAreStored : Obligations.DeviceSettingsAreStored := by
  unfold Obligations.DeviceSettingsAreStored
  intro s q
  refine ⟨fun h => run_done rfl rfl h rfl, fun h => run_done rfl rfl h rfl, fun h => run_done rfl rfl h rfl, fun h => run_done rfl rfl h rfl,
    fun h => run_done rfl rfl h rfl, fun h => run_done rfl rfl h rfl, fun h => run_done rfl rfl h rfl, fun h => run_done rfl rfl h rfl,
    fun h => run_done rfl rfl h rfl, fun h => ⟨fun hq => ?slConfig, fun hq => ?slConfigBusy⟩, fun h => ⟨fun hq => ?slSlip, fun hq => ?slSlipBusy⟩,
    fun h => ⟨fun ht => ?mgidGrant, fun ht => ?mgidTaken⟩⟩
  case slConfig => exact run_done rfl rfl h (bodySlConfig_quiet _ _ q hq)
  case slConfigBusy => exact run_no rfl h (bodySlConfig_busy _ _ q hq)
  case slSlip => exact run_done rfl rfl h (bodySlSlip_quiet _ _ q hq)
  case slSlipBusy => exact run_no rfl h (bodySlSlip_busy _ _ q hq)
  case mgidGrant => exact run_done rfl rfl h (if_neg ht)
  case mgidTaken => exact run_no rfl h (if_pos ht)

end Sys2Proof.Machine
end

section
/-! The frame tick (Chapter 2): when the frame number changes, and what of the tick depends on the time alone. -/
namespace Sys2Proof.Machine

/-! ### A fold keeps what each of its steps keeps -/

theorem foldl_keeps {α β γ : Type} {f : β → α → β} (g : β → γ) (h : ∀ b a, g (f b a) = g b) (l : List α) (b : β) :
    g (l.foldl f b) = g b := by
  induction l generalizing b with
  | nil => rfl
  | cons a l ih => rw [List.foldl_cons, ih, h]

/-! ### When the frame number changes (R23) -/

/-- The core cycles left end exactly where Fabric Time, in its smallest unit, reaches the next frame boundary. -/
theorem lt_cyclesLeft_iff {t : TimeSync} (hr : -65536 < t.rate) (k : Nat) :
    k < cyclesLeft t ↔ ftAfter t k < (t.ft / 1024 + 1) * 1024 * 65536 := by
  have hstep : 0 < (65536 + t.rate).toNat := by omega
  unfold cyclesLeft ftAfter
  generalize (65536 + t.rate).toNat = step at hstep
  rw [Nat.lt_iff_add_one_le, Nat.le_div_iff_mul_le hstep, Nat.add_one_mul]
  omega

/-- The frame number lies below a bound as Fabric Time lies below the bound's boundary. -/
theorem frame_lt_iff (v m : Nat) : v / 65536 / 1024 < m ↔ v < m * 1024 * 65536 := by
  rw [Nat.div_lt_iff_lt_mul (by decide), Nat.div_lt_iff_lt_mul (by decide)]

theorem frame_le_ftAfter (t : TimeSync) (k : Nat) : t.ft / 1024 ≤ ftAfter t k / 65536 / 1024 := by
  unfold ftAfter
  omega

/-! ### What the readings of a frame leave -/

@[simp] theorem logW_time (s : Sys) (code sev src data : Nat) : (logW s code sev src data).time = s.time := rfl

@[simp] theorem tempWarn_time (s : Sys) : (tempWarn s).time = s.time := by
  refine foldl_keeps (·.time) (fun b i => ?_) _ s
  simp only
  split_ifs <;> rfl

@[simp] theorem senseTemps_time (s : Sys) (temps : List Int) : (senseTemps s temps).time = s.time := by
  simp only [senseTemps]
  split_ifs <;> simp

theorem senseTemps_nil (s : Sys) : senseTemps s [] = s := rfl

/-- The ROM of WIPING and BOOT takes the readings and warns of none. -/
theorem senseTemps_early {s : Sys} {temps : List Int} (h : temps ≠ []) (he : early s = true) :
    senseTemps s temps = { s with pwr := { s.pwr with temps := temps, sampleFt := s.time.ft } } := by
  simp only [senseTemps, List.isEmpty_iff, h, if_false]
  exact if_pos he

/-! ### The work of a tick -/

theorem tickWork_dark {f : FuseBank} {s : Sys} {cages : List CageIn} (h : dark (timeTick s) = true) :
    tickWork f s cages = sampleTime (aliveTick (timeTick s)) := if_pos h

theorem tickWork_lit {f : FuseBank} {s : Sys} {cages : List CageIn} (h : dark (timeTick s) = false) :
    tickWork f s cages = sampleTime (aliveTick (readyTick f (traceFlush (tarnTick
      (headTick (portsTick f (shaperTick (policeTick (peTick (routeTick (countersTick (timeTick s))))))))
      cages)))) := if_neg (by simp [h])

theorem execFrameTick_eq (cages : List CageIn) (temps : List Int) (s : State) :
    exec (.frameTick cages temps) s = .next (s.at (tickWork s.fuse (senseTemps (runToTick s.sys) temps) cages)) := rfl

/-- Settles O32: the cycles left are those below the next frame boundary, the readings leave the time alone, and the work of the tick is
    `tickWork`'s. -/
theorem frameTickAdvancesTime : Obligations.FrameTickAdvancesTime := by
  unfold Obligations.FrameTickAdvancesTime
  intro s cages temps
  refine ⟨fun hr _ => ⟨fun k hk => ?before, ?boundary⟩, ?ft, ?frac, ?due, ?ended, ?fresh, fun h => ?noReading, fun h he => ?early,
    fun h => ?dark, fun h => ?lit⟩
  case before =>
    refine Nat.le_antisymm (Nat.lt_succ_iff.mp ?_) (frame_le_ftAfter _ k)
    exact (frame_lt_iff _ _).mpr ((lt_cyclesLeft_iff hr k).mp hk)
  case boundary =>
    refine Nat.not_le.mp fun hle => ?_
    have hlt := (lt_cyclesLeft_iff hr _).mpr ((frame_lt_iff _ _).mp (Nat.lt_succ_of_le hle))
    exact Nat.lt_irrefl _ hlt
  case ft => simp [timeTick, runToTick]
  case frac => simp [timeTick, runToTick]
  case due => simp [timeTick, runToTick]
  case ended => simp [timeTick, runToTick]
  case fresh => rfl
  case noReading => rw [h]; rfl
  case early =>
    have hs : senseTemps (runToTick s.sys) temps = _ := senseTemps_early h he
    rw [hs]
    rfl
  case dark => rw [execFrameTick_eq, tickWork_dark h]
  case lit => rw [execFrameTick_eq, tickWork_lit h]

end Sys2Proof.Machine
end

section
/-! The epoch tick, the overruns of tasks, and the batches of a frame (Chapters 2, 9, 10): what a fault leaves of the power state, and what each row does
in each of its cases. -/
namespace Sys2Proof.Machine

/-! ### A fault leaves the power state alone -/

@[simp] theorem logW_pwr (s : Sys) (code sev src data : Nat) : (logW s code sev src data).pwr = s.pwr := rfl

@[simp] theorem msix_pwr (s : Sys) (hp fn v : Nat) : (msix s hp fn v).pwr = s.pwr := by rw [msix_eq]

@[simp] theorem adminFn_pwr (s : Sys) (hp fn : Nat) (e : AEv) : (adminFn s hp fn e).pwr = s.pwr := by rw [adminFn_eq]

@[simp] theorem mctpOut_pwr (s : Sys) (eid : Nat) (m : Bytes) : (mctpOut s eid m).pwr = s.pwr := by
  unfold mctpOut
  split_ifs <;> simp

@[simp] theorem adminTo_pwr (s : Sys) (w : Requester) (e : AEv) : (adminTo s w e).pwr = s.pwr := by
  cases w with
  | fn hp fn => exact adminFn_pwr s hp fn e
  | mctp eid =>
    simp only [adminTo]
    split_ifs <;> simp

@[simp] theorem adminAll_pwr (s : Sys) (e : AEv) : (adminAll s e).pwr = s.pwr := by
  unfold adminAll
  rw [foldl_keeps Sys.pwr fun _ _ => adminTo_pwr _ _ _, foldl_keeps Sys.pwr fun _ _ => adminFn_pwr _ _ _ _]

@[simp] theorem setDev_pwr (s : Sys) (st : DevState) : (setDev s st).pwr = s.pwr := by
  unfold setDev
  split_ifs
  · rfl
  · exact adminAll_pwr _ _

@[simp] theorem notifyFault_pwr (s : Sys) (k : Nat) : (notifyFault s k).pwr = s.pwr := by
  unfold notifyFault
  rw [foldl_keeps Sys.pwr (by intros; split_ifs <;> rfl), foldl_keeps Sys.pwr (by intros; split_ifs <;> simp)]

@[simp] theorem latch_pwr (s : Sys) (e : FEv) (c : Nat) : (latch s e c).pwr = s.pwr := by
  simp only [latch]
  split_ifs <;> simp

@[simp] theorem healthFail_pwr (s : Sys) (why : Nat) : (healthFail s why).pwr = s.pwr := by
  unfold healthFail
  split
  · rfl
  · simp only
    split
    · rfl
    · split_ifs <;> rfl

@[simp] theorem regrade_pwr (s : Sys) : (regrade s).pwr = s.pwr := by
  unfold regrade
  split <;> simp

@[simp] theorem react_pwr (s : Sys) (k c : Nat) : (react s k c).pwr = s.pwr := by
  simp only [react]
  split_ifs <;> simp

@[simp] theorem raise_pwr (s : Sys) (e : FEv) : (raise s e).pwr = s.pwr := by
  simp only [raise]
  split_ifs <;> simp

@[simp] theorem fault_pwr (s : Sys) (src cause cls detail master inst : Nat) : (fault s src cause cls detail master inst).pwr = s.pwr :=
  raise_pwr s _

/-! ### The readings of an epoch in the dark (R347, R367) -/

/-- What a measurement leaves of the power state: the readings, when they were taken, and the limits that wait. -/
def Pwr.readings (p : Pwr) : List Int × List Nat × Nat × Option (Nat × Nat) := (p.temps, p.volts, p.sampleFt, p.limPend)

theorem tempWarn_readings (s : Sys) : (tempWarn s).pwr.readings = s.pwr.readings := by
  refine foldl_keeps (·.pwr.readings) (fun b i => ?_) _ s
  simp only
  split_ifs <;> rfl

theorem voltWarn_readings (s : Sys) (mons : List Nat) : (voltWarn s mons).pwr.readings = s.pwr.readings := by
  refine foldl_keeps (·.pwr.readings) (fun b i => ?_) _ s
  simp only
  split_ifs <;> simp [Pwr.readings]

theorem darkEpoch_readings (s : Sys) (m : EpochIn) : (darkEpoch s m).pwr.readings = (m.temps, m.volts, s.time.ft, none) := by
  unfold darkEpoch
  rw [voltWarn_readings, tempWarn_readings]
  rfl

/-- A row's run, known as a device. -/
theorem exec_run {i : Instr} {s : State} {x y : Sys} (h : exec i s = .next (s.at x)) (hx : x = y) : exec i s = .next (s.at y) := hx ▸ h

/-! ### The epoch tick (R34) -/

theorem runEpochTick_idle {f : FuseBank} {s : Sys} {m : EpochIn} (h : s.time.epochDue = false) : runEpochTick f s m = s := if_pos h

theorem runEpochTick_early {f : FuseBank} {s : Sys} {m : EpochIn} (h : s.time.epochDue = true) (he : early s = true) :
    runEpochTick f s m = epochOpen s := by
  have he' : early (epochOpen s) = true := he
  simp [runEpochTick, h, he']

theorem runEpochTick_dark {f : FuseBank} {s : Sys} {m : EpochIn} (h : s.time.epochDue = true) (he : early s = false) (hd : dark s = true) :
    runEpochTick f s m = darkEpoch (epochOpen s) m := by
  have he' : early (epochOpen s) = false := he
  have hd' : dark (epochOpen s) = true := hd
  simp [runEpochTick, h, he', hd']

theorem runEpochTick_lit {f : FuseBank} {s : Sys} {m : EpochIn} (h : s.time.epochDue = true) (he : early s = false) (hd : dark s = false) :
    runEpochTick f s m =
      aliveEpoch (progressTick (m.fec.foldl fecTick (cageEpoch (powerEpoch (frameCfgTick (dumpSnap (epochOpen s))) m)))) := by
  have he' : early (epochOpen s) = false := he
  have hd' : dark (epochOpen s) = false := hd
  simp [runEpochTick, h, he', hd']

/-! ### Overruns (R32, R33) -/

theorem runTaskOverrun_done {f : FuseBank} {s : Sys} {task port : Nat} (h : taskDone s task port = true) : runTaskOverrun f s task port = s :=
  if_pos (.inr (.inr (.inr h)))

/-- The tasks of a frame whose overrun counts: the CC's own task is not missed while an activation has it away. -/
theorem runTaskOverrun_counts {f : FuseBank} {s : Sys} {task port : Nat} (ht : task < 8) (hd : dark s = false)
    (ha : ¬ (task = 6 ∧ s.upd.act.isSome = true)) (hn : taskDone s task port = false) :
    runTaskOverrun f s task port =
      if s.time.ovrNow.testBit task then (if task = 0 ∨ task = 4 then ovrEffect s task port else s) else ovrEffect (ovrRecord s task) task port := by
  refine if_neg ?_
  simp only [hd, hn, Bool.false_eq_true, or_false, false_or]
  exact not_or.mpr ⟨Nat.not_le.mpr ht, ha⟩

theorem runEpochTaskOverrun_counts {f : FuseBank} {s : Sys} {task : Nat} (h8 : 8 ≤ task) (h11 : task < 11) (hd : dark s = false)
    (hn : s.time.epNow.testBit task = false) :
    runEpochTaskOverrun f s task =
      if task = 8 then dumpsMissed (ovrRecord s task) else if task = 9 then thermalOvr (ovrRecord s task) else ovrRecord s task := by
  refine if_neg ?_
  simp only [hd, hn, Bool.false_eq_true, or_false]
  omega

/-! ### The batches of a frame (R31, R252) -/

theorem runRouteWeightRecompute_eq {f : FuseBank} {s : Sys} : runRouteWeightRecompute f s =
    if s.time.ovrNow.testBit 1 then s else { s with rt := { s.rt with wShadow := some s.rt.wPlan } } := rfl

theorem runPlacementBatch_eq {f : FuseBank} {s : Sys} : runPlacementBatch f s =
    if s.time.ovrNow.testBit 2 then s else { s with pe := { s.pe with batchDone := true } } := rfl

/-- What the weights are computed from is the device without the weights in force. -/
theorem routeTick_weights (s : Sys) : (routeTick s).rt.weights = s.rt.wShadow.getD s.rt.weights ∧ (routeTick s).rt.wShadow = none ∧
    (routeTick s).rt.wPlan = weightsNow s := by
  unfold routeTick
  cases h : s.rt.wShadow with
  | none => exact ⟨rfl, h, rfl⟩
  | some w => exact ⟨rfl, rfl, rfl⟩

/-- The sets that a frame has queued, each keeping its age (R31). -/
def agedSets (s : Sys) : Sys :=
  (batchSets s).foldl (fun s e => modSet s e.1 fun p => { p with queued := some (p.queued.getD (frame s)) }) s

theorem planTick_sets (s : Sys) : (planTick s).pe.plan.sets =
    ((batchSets s).take 256).foldl (fun u e => (getSet (agedSets s) e.1).elim u fun p => tset u e.1 (rescore (agedSets s) p)) [] := by
  have hstep (u : Table (Table (Nat × Option Nat))) (e : Nat × Bool) :
      (match getSet (agedSets s) e.1 with | some p => tset u e.1 (rescore (agedSets s) p) | none => u) =
        (getSet (agedSets s) e.1).elim u fun p => tset u e.1 (rescore (agedSets s) p) := by
    cases getSet (agedSets s) e.1 <;> rfl
  exact congrArg (fun g => List.foldl g [] _) (funext fun u => funext fun e => hstep u e)

/-- Settles O33: each row in each of its cases, and what a fault leaves of the readings. -/
theorem epochWorkRuns : Obligations.EpochWorkRuns := by
  unfold Obligations.EpochWorkRuns
  intro s
  refine ⟨fun m h => ⟨fun hd he => ?lit, fun hd he => ?dark, fun he => ?early⟩, fun m => ?readings, fun m h => ?idle,
    fun task port ht hd ha hn => ⟨fun hb => ?first, fun hb h04 => ?again, fun hb h0 h4 => ?once⟩, fun task port h => ?done,
    fun task h8 h11 hd hb => ?epochTask, routeTick_weights s.sys, fun h => ?weights, fun h => ?weightsMissed,
    ⟨planTick_sets s.sys, rfl, rfl, rfl⟩, fun h => ?batch, fun h => ?batchMissed⟩
  case lit => exact exec_run rfl (runEpochTick_lit h he hd)
  case dark => exact exec_run rfl (runEpochTick_dark h he hd)
  case early => exact exec_run rfl (runEpochTick_early h he)
  case readings => simpa [Pwr.readings] using darkEpoch_readings s.sys m
  case idle => exact exec_run rfl (runEpochTick_idle h)
  case first =>
    refine exec_run rfl ((runTaskOverrun_counts ht hd ha hn).trans ?_)
    simp [hb]
  case again =>
    refine exec_run rfl ((runTaskOverrun_counts ht hd ha hn).trans ?_)
    simp [hb, h04]
  case once =>
    refine exec_run rfl ((runTaskOverrun_counts ht hd ha hn).trans ?_)
    simp [hb, h0, h4]
  case done => exact exec_run rfl (runTaskOverrun_done h)
  case epochTask => exact exec_run rfl (runEpochTaskOverrun_counts h8 h11 hd hb)
  case weights => exact exec_run rfl (runRouteWeightRecompute_eq.trans (by simp [h]))
  case weightsMissed => exact exec_run rfl (runRouteWeightRecompute_eq.trans (by simp [h]))
  case batch => exact exec_run rfl (runPlacementBatch_eq.trans (by simp [h]))
  case batchMissed => exact exec_run rfl (runPlacementBatch_eq.trans (by simp [h]))

end Sys2Proof.Machine
end

section
/-! The control complex, the dumps and the bandwidth window (Chapters 2, 3, 17): what each row does in each of its cases. -/
namespace Sys2Proof.Machine

/-! ### The control complex goes and comes back (R33, R48) -/

theorem runCcWatchdogRestart_fires {f : FuseBank} {s : Sys} (h : 256 ≤ ovrRunOf s 6) (hup : s.svc.ccUp = true) (ha : s.upd.act = none)
    (hd : dark s = false) : runCcWatchdogRestart f s =
      ccLost (healthFail (fault { s with time := { s.time with ovrRun := s.time.ovrRun.set 6 0 } } 112 1 2 0 11 0) 4) false := by
  refine if_neg ?_
  simp [hup, ha, hd, h]

theorem runCcWatchdogRestart_waits {f : FuseBank} {s : Sys} (h : ovrRunOf s 6 < 256) : runCcWatchdogRestart f s = s := if_pos (.inl h)

theorem runCcReturn_returns {f : FuseBank} {s : Sys} (hup : s.svc.ccUp = false) (ha : s.upd.act = none) (hd : dark s = false)
    (he : early s = false) : runCcReturn f s = ccBack f (loadSettings f s s.upd.run) := by
  refine if_neg ?_
  simp [hup, ha, hd, he]

/-- The commands that go on while the CC is away (R48, log entry 56). -/
theorem outlives_iff (hitless : Bool) (p : Pend) :
    outlives hitless p = true ↔ (∃ q, p.wait = .svnFuse q) ∨ p.wait = .activate ∨ (p.wait = .attest ∧ hitless = true) := by
  unfold outlives
  cases p.wait <;> simp

/-- Where no command is lost, losing the CC undoes none. -/
theorem ccLost_none_gone {s : Sys} {hitless : Bool} (h : ∀ p, p ∈ s.svc.pend → (p.res.isNone && !outlives hitless p) = false) :
    ccLost s hitless = releaseReset { s with svc := { s.svc with ccUp := false } } := by
  have hgone : (s.svc.pend.filter fun p => p.res.isNone && !outlives hitless p) = [] :=
    List.filter_eq_nil_iff.mpr fun p hp => by simp [h p hp]
  have hkept : (s.svc.pend.map fun p => if p.res.isNone && !outlives hitless p then { p with wait := .lost } else p) = s.svc.pend :=
    (List.map_congr_left fun p hp => by simp [h p hp]).trans (List.map_id _)
  simp only [ccLost, hgone, hkept, List.foldl_nil]

/-! ### Counter dumps (R425, R426) -/

theorem tget_tmap {α : Type} (t : Table α) (g : Nat → α → α) (k : Nat) : tget (tmap t g) k = (tget t k).map (g k) := by
  induction t with
  | nil => rfl
  | cons e t ih =>
    simp only [tmap, List.map_cons, tget] at ih ⊢
    split_ifs with h
    · subst h
      rfl
    · exact ih

/-- A function whose dump is taken up: nothing stands ready for it. -/
def dumpTaken (s : Sys) (hp fn : Nat) : Sys := modFn s hp fn fun g => { g with dump := { g.dump with snap := none } }

theorem runCounterDump_none {f : FuseBank} {s : Sys} {hp fn : Nat} (h : (getFn s hp fn).dump.snap = none ∨ (getFn s hp fn).dump.en = false) :
    runCounterDump f s hp fn = dumpTaken s hp fn := by
  simp only [runCounterDump]
  split
  · rfl
  · next rs hs => exact if_pos (h.resolve_left (by simp [hs]))

/-- A dump that was taken, as it comes to the ring. -/
theorem runCounterDump_some {f : FuseBank} {s : Sys} {hp fn : Nat} {rs : List Bytes} (h : (getFn s hp fn).dump.snap = some rs)
    (he : (getFn s hp fn).dump.en = true) : runCounterDump f s hp fn =
      let d := (getFn s hp fn).dump
      let t := dumpTaken s hp fn
      if rs.length + 1 ≤ ringFree d.size d.head d.tail then
        modFn ((recD0 t rs.length d.dseq d.missed :: rs).foldl (dumpWrite hp fn) t) hp fn fun g =>
          { g with dump := { g.dump with dseq := (d.dseq + 1) % 2 ^ 32, missed := 0 } }
      else modFn t hp fn fun g => { g with dump := { g.dump with missed := d.missed + 1 } } := by
  simp only [runCounterDump, h, he]
  rfl

/-- The dump of a function at an epoch tick: what was not written counts as missed. -/
def Dump.late (d : Dump) : Dump := { d with snap := none, missed := d.missed + b2n d.snap.isSome }

/-- The dump of a function at an epoch tick, with the records `rs` where its period has come. -/
def Dump.atEpoch (d : Dump) (e : Nat) (rs : List Bytes) : Dump :=
  if d.en && e % max 1 d.period == 0 then { d.late with snap := some rs } else d.late

theorem dumpSnap_fn {s : Sys} {k : Nat} {g : Fn} (h : tget s.fns k = some g) :
    tget (dumpSnap s).fns k = some { g with dump := g.dump.atEpoch (epoch s) (dumpRecs s (k / 64) (k % 64)) } := by
  simp only [dumpSnap, tget_tmap, h]
  rfl

theorem Dump.atEpoch_due {d : Dump} {e : Nat} {rs : List Bytes} (he : d.en = true) (hp : e % max 1 d.period = 0) :
    (d.atEpoch e rs).snap = some rs := by
  simp [Dump.atEpoch, he, hp]

theorem Dump.atEpoch_off {d : Dump} {e : Nat} {rs : List Bytes} (h : d.en = false ∨ e % max 1 d.period ≠ 0) : (d.atEpoch e rs).snap = none := by
  rcases h with he | hp
  · simp [Dump.atEpoch, Dump.late, he]
  · simp [Dump.atEpoch, Dump.late, hp]

/-- An epoch tick changes of a dump what stands ready and what was missed. -/
theorem Dump.atEpoch_eq (d : Dump) (e : Nat) (rs : List Bytes) :
    d.atEpoch e rs = { d with snap := (d.atEpoch e rs).snap, missed := d.missed + if d.snap.isSome = true then 1 else 0 } := by
  unfold Dump.atEpoch
  split_ifs <;> simp_all [Dump.late, b2n]

theorem dumpSnap_taken {s : Sys} {k : Nat} {g : Fn} (h : tget s.fns k = some g) : ∃ g', tget (dumpSnap s).fns k = some g' ∧
    (g.dump.en = true → epoch s % max 1 g.dump.period = 0 → g'.dump.snap = some (dumpRecs s (k / 64) (k % 64))) ∧
    (g.dump.en = false ∨ epoch s % max 1 g.dump.period ≠ 0 → g'.dump.snap = none) ∧
    g' = { g with dump := { g.dump with snap := g'.dump.snap, missed := g.dump.missed + if g.dump.snap.isSome = true then 1 else 0 } } := by
  refine ⟨_, dumpSnap_fn h, Dump.atEpoch_due, Dump.atEpoch_off, ?_⟩
  exact congrArg (fun d => { g with dump := d }) (g.dump.atEpoch_eq _ _)

/-! ### The bandwidth window (R423) -/

theorem runBandwidthWindowEnd_ends {f : FuseBank} {s : Sys} {port : Nat} (h : frame s % s.cnt.bwFrames = 0)
    (hw : (getBlk s port).winFt ≠ frame s * 1024) : runBandwidthWindowEnd f s port =
      modBlk s port fun k => { k with txWin := k.txRun, rxWin := k.rxRun, txRun := 0, rxRun := 0, winFt := frame s * 1024 } := if_pos ⟨h, hw⟩

theorem runBandwidthWindowEnd_within {f : FuseBank} {s : Sys} {port : Nat} (h : frame s % s.cnt.bwFrames ≠ 0) :
    runBandwidthWindowEnd f s port = s := if_neg fun hw => h hw.1

/-- Settles O34: each row in each of its cases, and what a lost CC and an epoch tick leave. -/
theorem controlComplexComesAndGoes : Obligations.ControlComplexComesAndGoes := by
  unfold Obligations.ControlComplexComesAndGoes
  intro s
  refine ⟨fun h hup ha hd => ?restart, outlives_iff, fun hitless h => ccLost_none_gone h, fun h => ?noRestart, fun hup ha hd he => ?back,
    fun hp fn => ⟨fun rs hs he => ⟨fun hr => ?written, fun hr => ?missed⟩, fun h => ?nothing⟩, fun k g h => dumpSnap_taken h,
    fun port h hw => ?windowEnd, fun port h => ?within⟩
  case restart => exact exec_run rfl (runCcWatchdogRestart_fires h hup ha hd)
  case noRestart => exact exec_run rfl (runCcWatchdogRestart_waits h)
  case back => exact exec_run rfl (runCcReturn_returns hup ha hd he)
  case written => exact exec_run rfl ((runCounterDump_some hs he).trans (if_pos hr))
  case missed => exact exec_run rfl ((runCounterDump_some hs he).trans (if_neg (Nat.not_le.mpr hr)))
  case nothing => exact exec_run rfl (runCounterDump_none h)
  case windowEnd => exact exec_run rfl (runBandwidthWindowEnd_ends h hw)
  case within => exact exec_run rfl (runBandwidthWindowEnd_within h)

end Sys2Proof.Machine
end

section
/-! The exchange of time (Chapter 2): TIME_SEND, TIME_RECEIVE and PPS_EDGE, in each of their cases. -/
namespace Sys2Proof.Machine

/-- Two changes of a port are one. -/
theorem modNp_modNp (s : Sys) (p : Nat) (g h : NPrt → NPrt) : modNp (modNp s p g) p h = modNp s p fun n => h (g n) := by
  simp only [modNp, List.modify_modify_eq]
  rfl

/-! ### TIME_SEND (R24, R25) -/

/-- The time message that a port sends: what the device is, and the echo of the last one received. -/
def timeMsgOf (s : Sys) (n : NPrt) : TimeMsg :=
  { sync := s.time.sync.code, ev := n.tm.echoV, prio := s.time.rootPrio, hops := s.time.dist, rootAddr := s.time.rootAddr, tx := 0,
    echoTx := n.tm.echoTx, echoRx := n.tm.echoRx }

/-- A port's first message is due at once, each later one 8 frames after the last. -/
theorem timeDue_iff (s : Sys) (n : NPrt) :
    timeDue s n = true ↔ n.tm.sentAt = none ∨ ∃ f, n.tm.sentAt = some f ∧ f + 8 ≤ frame s := by
  unfold timeDue
  cases n.tm.sentAt <;> simp

theorem runTimeSend_due {f : FuseBank} {s : Sys} {port : Nat} (hu : (getNp s port).st = .up) (he : early s = false)
    (hd : timeDue s (getNp s port) = true) : runTimeSend f s port = modNp s port fun k =>
      { k with tm := { k.tm with sentAt := some (frame s) }, lcq := k.lcq ++ [.time (timeMsgOf s (getNp s port))] } := by
  have hsend : runTimeSend f s port = ctlSend (modNp s port fun n => { n with tm := { n.tm with sentAt := some (frame s) } }) port
      (.time (timeMsgOf s (getNp s port))) := if_neg (by simp [hu, he, hd])
  rw [hsend, ctlSend, modNp_modNp]

theorem runTimeSend_soon {f : FuseBank} {s : Sys} {port : Nat} (hd : timeDue s (getNp s port) = false) : runTimeSend f s port = s :=
  if_pos (.inr (.inr hd))

theorem runTimeSend_elsewhere {f : FuseBank} {s : Sys} {port : Nat} (h : (getNp s port).st ≠ .up ∨ early s = true) :
    runTimeSend f s port = s := if_pos (h.imp_right .inl)

/-! ### TIME_RECEIVE (R23 to R28) -/

/-- What a good time message leaves of its port and of the election. -/
def timeTaken (s : Sys) (port : Nat) (m : TimeMsg) (rx : Nat) : Sys :=
  elect (modNp s port fun n =>
    { n with tm := { n.tm with
        echoTx := m.tx, echoRx := rx, echoV := true, offer := some (m.prio, m.rootAddr, m.hops, m.sync),
        rtt := if m.ev = true then some (rttOf m.echoTx m.echoRx m.tx rx) else n.tm.rtt } })

theorem timeIn_bad {s : Sys} {port : Nat} {h : CtlHdr} {m : TimeMsg} {rx : Nat} (hb : (ctlIn s port h (.time m)).2 = false) :
    timeIn s port h m rx = (ctlIn s port h (.time m)).1 := if_pos hb

theorem timeIn_good {s : Sys} {port : Nat} {h : CtlHdr} {m : TimeMsg} {rx : Nat} (hg : (ctlIn s port h (.time m)).2 = true) :
    timeIn s port h m rx =
      let t := (ctlIn s port h (.time m)).1
      let u := timeTaken t port m rx
      if m.ev = true ∧ u.time.upPort = some port then
        exchange u (offsetOf m.echoTx m.echoRx m.tx rx (getNp t port).tm.asym) (gateAdmits u m)
      else u := by
  have hgood : ¬ (ctlIn s port h (.time m)).2 = false := by simp [hg]
  exact if_neg hgood

/-- Where the clock was set into another frame, that frame's tick follows. -/
theorem execTimeReceive_eq {s : State} {port : Nat} {h : CtlHdr} {m : TimeMsg} {cycle block : Nat} {t : Sys}
    (ht : timeIn s.sys port h m (pinStamp s.sys (getNp s.sys port).rxLanes cycle block) = t) :
    exec (.timeReceive port h m cycle block) s =
      .next (s.at (if frame t = frame s.sys then t else tickWork s.fuse t [])) := by
  subst ht
  rfl

/-! ### PPS_EDGE (R29) -/

/-- The second that an edge at `stamp` means: the nearest one after the origin `o` (log entry 40). -/
def ppsSecond (o stamp : Nat) : Nat := max 1 ((stamp / 16 + ppsCycles / 2 - o) / ppsCycles)

/-- How far the edge is from that second, in 1/16 cycle. -/
def ppsErr (o stamp : Nat) : Int := sdiff ((o + ppsSecond o stamp * ppsCycles) * 16) stamp

section
variable {f : FuseBank} {s : Sys} {stamp : Nat} (he : s.time.ppsEn = true) (hr : s.time.upPort = none) (hh : s.time.sync ≠ .holdover)
include he hr hh

theorem runPpsEdge_first (ho : s.time.ppsOrigin = none) :
    runPpsEdge f s stamp = { s with time := { s.time with ppsOrigin := some (stamp / 16), ppsEdge := 0 } } := by
  simp [runPpsEdge, he, hr, hh, ho]

theorem runPpsEdge_later {o : Nat} (ho : s.time.ppsOrigin = some o) : runPpsEdge f s stamp =
    if ppsErr o stamp < -256000 ∨ 256000 < ppsErr o stamp then
      fault { s with time := { s.time with ppsLock := false, ppsFaults := s.time.ppsFaults + 1 } } 114 2 1
        (ppsErr o stamp / 16 % 2 ^ 64).toNat 0 0
    else { s with time := { s.time with
      ppsEdge := ppsSecond o stamp, ppsLock := true, rate := rateNext s.time.rate (ppsErr o stamp) } } := by
  simp only [runPpsEdge, he, hr, ho, hh, reduceCtorEq, ne_eq, not_true_eq_false, or_self, if_false]
  rfl

end

theorem runPpsEdge_elsewhere {f : FuseBank} {s : Sys} {stamp : Nat}
    (h : s.time.ppsEn = false ∨ s.time.upPort ≠ none ∨ s.time.sync = .holdover) : runPpsEdge f s stamp = s := if_pos h

/-- Settles O36: each row in each of its cases. -/
theorem timeIsExchanged : Obligations.TimeIsExchanged := by
  unfold Obligations.TimeIsExchanged
  intro s
  refine ⟨fun port hu he => ⟨fun h => ?send, fun f hf hl => ?soon⟩, fun port h => ?noPort,
    fun port h m cycle block => ⟨fun hg => ⟨fun hev hup => ?elected, fun hn => ?other⟩, fun hb => ?bad⟩,
    fun stamp he hr hh => ⟨fun ho => ?first, fun o ho => ⟨fun hlo hhi => ?near, fun hout => ?far⟩⟩, fun stamp h => ?noPulse⟩
  case send => exact exec_run rfl (runTimeSend_due hu he ((timeDue_iff _ _).mpr h))
  case soon =>
    refine exec_run rfl (runTimeSend_soon (Bool.eq_false_iff.mpr fun hd => ?_))
    rcases (timeDue_iff _ _).mp hd with hnone | ⟨g, hg, hle⟩
    · exact nomatch hf.symm.trans hnone
    · have hfg : f = g := Option.some.inj (hf.symm.trans hg)
      omega
  case noPort => exact exec_run rfl (runTimeSend_elsewhere h)
  case elected => exact execTimeReceive_eq ((timeIn_good hg).trans (if_pos ⟨hev, hup⟩))
  case other =>
    refine execTimeReceive_eq ((timeIn_good hg).trans (if_neg fun hboth => ?_))
    rcases hn with hev | hup
    · exact Bool.noConfusion (hev.symm.trans hboth.1)
    · exact hup hboth.2
  case bad => exact execTimeReceive_eq (timeIn_bad hb)
  case first => exact exec_run rfl (runPpsEdge_first he hr hh ho)
  case near => exact exec_run rfl ((runPpsEdge_later he hr hh ho).trans (if_neg (not_or.mpr ⟨Int.not_lt.mpr hlo, Int.not_lt.mpr hhi⟩)))
  case far => exact exec_run rfl ((runPpsEdge_later he hr hh ho).trans (if_pos hout))
  case noPulse => exact exec_run rfl (runPpsEdge_elsewhere h)

end Sys2Proof.Machine
end

section
/-! The step, the totality of the commands, and the envelope of the mailbox: what a refused request, a closed mailbox and a response do. -/
namespace Sys2Proof.Machine

/-- Settles O1, by the two equations of the step. -/
theorem stepRunsFrontCommand : Obligations.StepRunsFrontCommand :=
  ⟨fun c rest s => step_cons s c rest, step_nil⟩

/-- Settles O2: a command changes fuses and device alone. -/
theorem everyCommandAnswersNext : Obligations.EveryCommandAnswersNext := by
  unfold Obligations.EveryCommandAnswersNext
  intro c s
  obtain ⟨f, y, h⟩ := exec_next c s
  exact ⟨_, h, rfl⟩

/-- A request that is taken and fails a check is turned away. -/
theorem exec_turnedAway {i : Instr} {c : Spec} {s : State} {q : MbxReq} {e : Status} (hm : mailbox i = some (c, q))
    (ht : takes c.opcode s.sys q = true) (hp : preCheck c s.fuse (reached s.sys q) q = some e) :
    exec i s = .next (s.at (follows i (turnedAway c s.fuse q (reached s.sys q) e))) := by
  obtain ⟨g, hexec, hrefuse⟩ := mailbox_gated i c s q hm
  rw [hexec, mbxGate_takes _ _ _ _ ht, hrefuse _ _ hp]

/-- Settles O6: every mailbox command goes through the same gate and the same checks. -/
theorem refusedCommandHasNoEffect : Obligations.RefusedCommandHasNoEffect := by
  unfold Obligations.RefusedCommandHasNoEffect
  exact fun i c s q e hm ht hp => exec_turnedAway hm ht hp

/-! ### A response in its buffer (R43) -/

theorem Resp.bytes_length (r : Resp) : r.bytes.length = 16 + r.data.length := by
  simp only [Resp.bytes, List.length_append, le_length, zeros_length]

@[simp] theorem Status.code_beq_one (st : Status) : (st.code == 1) = (st == .accepted) := by cases st <;> rfl

@[simp] theorem Status.code_bne_one (st : Status) : (st.code != 1) = (st != .accepted) := by cases st <;> rfl

/-- The response of a command that ends: STATE_CONFLICT has no payload (R50). -/
def respOf (y : Sys) (q : MbxReq) (op : Nat) (st : Status) (named : Option Nat) (d : Bytes) : Resp :=
  mkResp y op q.tag st named (if st = .stateConflict then [] else d)

section
variable {y : Sys} {q : MbxReq} {op : Nat} {st : Status} {named : Option Nat} {d : Bytes} {evt : Bool} {hp fn : Nat} (hw : q.who = .fn hp fn)
include hw

/-- A command of a function ends with a response and, where it asked for one, an event. -/
theorem finishNow_def : finishNow y q op st named d evt =
    let t := respond y (.fn hp fn) q.tag (respOf y q op st named d)
    if (evt && q.flags.testBit 0) = true then adminFn t hp fn { AEv.of 0xE0 with tag := q.tag, opcode := op, status := st.code } else t := by
  simp only [finishNow, hw]
  rfl

/-- A command of a function that ends leaves of it the answered mailbox, but for the place of its ring and the pending interrupts. -/
theorem finishNow_fn : ∃ a l, getFn (finishNow y q op st named d evt) hp fn =
    { getFn y hp fn with
      mbx := { (getFn y hp fn).mbx.answered q.tag (respOf y q op st named d) with admin := a }, msixPend := l } := by
  obtain ⟨l, hr⟩ := respond_fn y hp fn q.tag (respOf y q op st named d)
  simp only [finishNow_def hw]
  split_ifs
  · obtain ⟨a, l', ha⟩ := adminFn_fn (respond y (.fn hp fn) q.tag (respOf y q op st named d)) hp fn
      { AEv.of 0xE0 with tag := q.tag, opcode := op, status := st.code }
    exact ⟨a, l', by rw [ha, hr]⟩
  · exact ⟨_, l, hr⟩

/-- What a command of a function that ends leaves of the device. -/
theorem finishNow_eq : finishNow y q op st named d evt =
    { y with fns := (finishNow y q op st named d evt).fns, out := (finishNow y q op st named d evt).out,
             cnt := (finishNow y q op st named d evt).cnt } := by
  simp only [finishNow_def hw]
  split_ifs
  · rw [adminFn_eq, respond_eq]
  · rw [respond_eq]

/-- A command of a function that ends leaves the other functions as they were. -/
theorem finishNow_other {hp' fn' : Nat} (hk : fnKey hp' fn' ≠ fnKey hp fn) :
    getFn (finishNow y q op st named d evt) hp' fn' = getFn y hp' fn' := by
  simp only [finishNow_def hw]
  split_ifs
  · rw [adminFn_other _ _ _ _ _ _ hk, respond_other _ _ _ _ _ _ _ hk]
  · rw [respond_other _ _ _ _ _ _ _ hk]

/-- The response stands at the start of the buffer. -/
theorem finishNow_rspBuf : Memory.readAll (getFn (finishNow y q op st named d evt) hp fn).mbx.rspBuf 0
    (16 + (if st = .stateConflict then [] else d).length) = (respOf y q op st named d).bytes := by
  obtain ⟨a, l, hf⟩ := finishNow_fn (y := y) (op := op) (st := st) (named := named) (d := d) (evt := evt) hw
  have hlen : (respOf y q op st named d).bytes.length = 16 + (if st = .stateConflict then [] else d).length := Resp.bytes_length _
  rw [hf, ← hlen]
  exact Memory.readAll_writeAll _ _ _

end

/-- Settles O5: the response is written at the start of the buffer and read back from there. -/
theorem responseLandsInItsBuffer : Obligations.ResponseLandsInItsBuffer := by
  unfold Obligations.ResponseLandsInItsBuffer
  intro y q op st named d evt hp fn hw hfn
  obtain ⟨a, l, hf⟩ := finishNow_fn (y := y) (op := op) (st := st) (named := named) (d := d) (evt := evt) hw
  refine ⟨finishNow_rspBuf hw, ?_, ?_, ?_, ?_, ?_, finishNow_eq hw,
    fun hp' fn' hfn' hne => finishNow_other hw fun hk => hne (Prod.ext_iff.mpr (fnKey_inj hfn' hfn hk))⟩
  all_goals rw [hf]
  · rfl
  · exact Status.code_bne_one st
  · exact Status.code_beq_one st
  · rfl
  · rfl

end Sys2Proof.Machine
end

section
/-! The gate of the mailbox service: what becomes of a request that is not served. -/
namespace Sys2Proof.Machine

/-! ### A function's mailbox (R43, R48, R451) -/

theorem mbxGate_shut {s : Sys} {op : Nat} {q : MbxReq} {serve : Sys → Sys} {hp fn : Nat} (hw : q.who = .fn hp fn)
    (h : mbxClosed s hp fn = true ∨ (getFn s hp fn).mbx.held = true) :
    mbxGate s op q serve = modMbx s hp fn fun m => { m with ovr := true } := by
  simp only [mbxGate, hw]
  exact if_pos h

theorem ccAway_iff (s : Sys) : ccAway s = true ↔ s.svc.ccUp = false ∨ s.pwr.tripped = true := by simp [ccAway]

theorem mbxGate_held {s : Sys} {op : Nat} {q : MbxReq} {serve : Sys → Sys} {hp fn : Nat} (hw : q.who = .fn hp fn)
    (hopen : mbxClosed s hp fn = false) (hfree : (getFn s hp fn).mbx.held = false) (ha : ccAway s = true) :
    mbxGate s op q serve =
      { modMbx s hp fn fun m => { m with held := true, accepted := false, rspReady := false } with
        svc := { s.svc with held := (s.svc.held.filter fun h => h.req.who != q.who) ++ [{ opcode := op, req := q }] } } := by
  simp [mbxGate, hw, hopen, hfree, ha]

/-! ### An MCTP endpoint (R94, R363 to R366) -/

/-- A message of the endpoint `e` is addressed to this device on a bus that carries it. -/
def arrives (s : Sys) (q : MbxReq) (e : Nat) : Bool := match q.via with | some v => viaOk s v | none => mctpUp s e

theorem mbxGate_unheard {s : Sys} {op : Nat} {q : MbxReq} {serve : Sys → Sys} {e : Nat} (hw : q.who = .mctp e)
    (h : 4080 < q.payload.length ∨ arrives s q e = false) : mbxGate s op q serve = s := by
  simp only [mbxGate, hw]
  exact if_pos h.symm

theorem mbxGate_heard {s : Sys} {op : Nat} {q : MbxReq} {serve : Sys → Sys} {e : Nat} (hw : q.who = .mctp e)
    (hl : q.payload.length ≤ 4080) (hh : arrives s q e = true) :
    mbxGate s op q serve =
      let x := reached s q
      if early s = true then (if op = 1 ∨ op = 2 then serve x else finishNow x q op .busy none [] false)
      else if (ccAway s && !tarnTakes s op q) = true then
        { x with svc := { x.svc with held := s.svc.held ++ [{ opcode := op, req := q }] } }
      else serve x := by
  have hgood : ¬ (arrives s q e = false ∨ 4080 < q.payload.length) := by simp [hh, hl]
  simp only [mbxGate, reached, hw]
  refine (if_neg hgood).trans ?_
  cases q.via <;> rfl

theorem viaOk_iff (y : Sys) (v : MctpVia) : viaOk y v = true ↔ v.iana = 0x00F42A91 ∧ v.kind = 1 ∧
    (v.dst = 0 ∨ tget y.svc.eids v.bus = some v.dst) ∧ (v.bus = 2 → (getHp y 0).a.up = true) := by
  simp [viaOk, and_assoc, imp_iff_not_or]

/-- What Tarn serves while the CC is away (R366). -/
theorem tarnTakes_iff (y : Sys) (op : Nat) (q : MbxReq) : tarnTakes y op q = true ↔
    op ∈ [1, 2, 0x07E0, 0x07E1, 0x07F0, 0x0B01] ∨ op / 256 = 0x0A ∨
      (op = 4 ∧ ∃ p, p ∈ y.svc.pend ∧ p.who = q.who ∧ p.tag = num q.payload 0 2 ∧ p.tarn = true) := by
  by_cases h4 : op = 4
  · simp [tarnTakes, tarnServes, h4, and_assoc]
  · simp [tarnTakes, tarnServes, h4, or_assoc, or_comm (a := op / 256 = 10) (b := op = 2817)]

/-- Settles O7: a mailbox command goes through the gate, and the gate decides each of these cases before anything is served. -/
theorem closedMailboxIgnoresRequests : Obligations.ClosedMailboxIgnoresRequests := by
  unfold Obligations.ClosedMailboxIgnoresRequests
  refine ⟨fun i c s q hm => ?_, viaOk_iff, tarnTakes_iff⟩
  obtain ⟨g, hexec, -⟩ := mailbox_gated i c s q hm
  refine ⟨fun hp fn hw => ⟨fun h => ?shut, fun hopen hfree ha => ?held⟩,
    fun e hw => ⟨fun h => ?unheard, fun hl hh he h1 h2 => ?early, fun hl hh he ha ht => ?away⟩⟩
  case shut => exact exec_run hexec (mbxGate_shut hw h)
  case held => exact ⟨_, exec_run hexec (mbxGate_held hw hopen hfree ((ccAway_iff _).mpr ha)), rfl, rfl, rfl⟩
  case unheard => exact exec_run hexec (mbxGate_unheard hw (h.imp_right Bool.eq_false_iff.mpr))
  case early =>
    refine exec_run hexec ((mbxGate_heard hw hl hh).trans ?_)
    simp [he, h1, h2]
  case away =>
    refine exec_run hexec ((mbxGate_heard hw hl hh).trans ?_)
    simp [he, (ccAway_iff _).mpr ha, ht]

end Sys2Proof.Machine
end

section
/-! Rings, results and sessions under the commands of the mailbox: what each body answers in each of its cases. -/
namespace Sys2Proof.Machine

/-- A well-made request whose requester may not use the command fails the check of privilege (Table 3.8). -/
theorem preCheck_of_priv {c : Spec} {s : State} {q : MbxReq} {e : Status} (hw : wellMade c s q = true)
    (hp : c.priv s.fuse (reached s.sys q) q = some e) : preCheck c s.fuse (reached s.sys q) q = some e := by
  simp only [wellMade, Bool.and_eq_true, decide_eq_true_eq, Bool.not_eq_true'] at hw
  obtain ⟨⟨⟨⟨⟨-, hlen⟩, hshort⟩, hflags⟩, hparam⟩, htag⟩ := hw
  simp [preCheck, hlen, hshort, Nat.mod_eq_of_lt hflags, hparam, htag, hp]

theorem takes_of_wellMade {c : Spec} {s : State} {q : MbxReq} (hw : wellMade c s q = true) : takes c.opcode s.sys q = true := by
  simp only [wellMade, Bool.and_eq_true] at hw
  obtain ⟨⟨⟨⟨⟨ht, -⟩, -⟩, -⟩, -⟩, -⟩ := hw
  exact ht

/-! ### Event rings and stored results (R51, R54, R116, R416) -/

theorem bodyAdminRingSet_fn {f : FuseBank} {y : Sys} {q : MbxReq} {hp fn : Nat} (hw : q.who = .fn hp fn) :
    bodyAdminRingSet f y q = .done (modMbx y hp fn fun m =>
      { m with adminHead := 0,
               admin := if num q.payload 0 8 = 0 then none else some (EvRing.new (num q.payload 0 8) (num q.payload 8 2) 0) }) [] := by
  simp only [bodyAdminRingSet, hw]

theorem bodyAdminRingSet_mctp {f : FuseBank} {y : Sys} {q : MbxReq} {e : Nat} (hw : q.who = .mctp e) :
    bodyAdminRingSet f y q = .done { y with svc := { y.svc with
      subs := (y.svc.subs.filter (· != e)) ++ (if num q.payload 0 8 = 0 then [] else [e]) } } [] := by
  simp only [bodyAdminRingSet, hw]
  split_ifs <;> simp

theorem bodyXlatFaultRingSet_fn {f : FuseBank} {y : Sys} {q : MbxReq} {hp fn : Nat} (hw : q.who = .fn hp fn) :
    bodyXlatFaultRingSet f y q = .done (modMbx y hp fn fun m =>
      { m with xfHead := 0,
               xfault := if num q.payload 0 8 = 0 then none else
                 some (EvRing.new (num q.payload 0 8) (num q.payload 8 2) (num q.payload 10 2)) }) [] := by
  simp only [bodyXlatFaultRingSet, hw]

theorem bodyFaultNotify_fn {f : FuseBank} {y : Sys} {q : MbxReq} {hp fn : Nat} (hw : q.who = .fn hp fn) :
    bodyFaultNotify f y q = .done (modFn y hp fn fun g =>
      { g with notifyMask := num q.payload 0 16, notifyVec := num q.payload 16 2 }) [] := by
  simp only [bodyFaultNotify, hw]

theorem bodyFaultNotify_mctp {f : FuseBank} {y : Sys} {q : MbxReq} {e : Nat} (hw : q.who = .mctp e) :
    bodyFaultNotify f y q = .done { y with flt := { y.flt with
      notify := if num q.payload 0 16 = 0 then tdel y.flt.notify e else tset y.flt.notify e (num q.payload 0 16) } } [] := by
  simp only [bodyFaultNotify, hw]

theorem execMbxResult_done {s : State} {q : MbxReq} {p : Pend} {r : Resp} (h : passes specMbxResult s q = true)
    (hp : pendOf (used s q) q.who (arg0 q.payload) = some p) (hr : p.res = some r) :
    exec (.mbxResult q) s = .next (s.at
      (let y := used s q
       let t := respond { y with svc := { y.svc with
         pend := y.svc.pend.filter fun p => !(p.who == q.who && p.tag == arg0 q.payload) } } q.who q.tag r
       if q.flags.testBit 0 then postDone t q.who q.tag 0x0004 0 else t)) := by
  refine exec_run rfl ((gate_passes (c := specMbxResult) h).trans ?_)
  have hp' : pendOf (touchSession (reached s.sys q) q.who q.token) q.who (arg0 q.payload) = some p := hp
  simp only [(passes_serve h).1, hp', Option.map_some, hr]
  rfl

theorem execMbxResult_busy {s : State} {q : MbxReq} {p : Pend} (h : passes specMbxResult s q = true)
    (hp : pendOf (used s q) q.who (arg0 q.payload) = some p) (hr : p.res = none) :
    exec (.mbxResult q) s = .next (s.at (refusedWith specMbxResult q (used s q) .busy)) := by
  refine exec_run rfl ((gate_passes (c := specMbxResult) h).trans ?_)
  have hp' : pendOf (touchSession (reached s.sys q) q.who q.token) q.who (arg0 q.payload) = some p := hp
  simp only [(passes_serve h).1, hp', Option.map_some, hr]
  rfl

/-- Settles O12: each body in each of its cases; over MCTP the fault ring is refused by the check of privilege. -/
theorem ringsAndResultsAreSet : Obligations.RingsAndResultsAreSet := by
  unfold Obligations.RingsAndResultsAreSet
  intro s q
  refine ⟨fun h => ⟨fun hp fn hw => ?adminFn, fun e hw => ?adminMctp⟩, fun h hp fn hw => ?xfault, fun e hw h => ?xfaultMctp,
    fun h => ⟨fun hp fn hw => ?notifyFn, fun e hw => ?notifyMctp⟩, fun h p hp => ⟨fun r hr => ?result, fun hr => ?busy⟩⟩
  case adminFn => exact run_done rfl rfl h (bodyAdminRingSet_fn hw)
  case adminMctp => exact run_done rfl rfl h (bodyAdminRingSet_mctp hw)
  case xfault => exact run_done rfl rfl h (bodyXlatFaultRingSet_fn hw)
  case xfaultMctp =>
    have hpriv : specXlatFaultRingSet.priv s.fuse (reached s.sys q) q = some .privilege := by
      simp [specXlatFaultRingSet, Spec.fast, needFn, hw]
    exact exec_turnedAway rfl (takes_of_wellMade h) (preCheck_of_priv h hpriv)
  case notifyFn => exact run_done rfl rfl h (bodyFaultNotify_fn hw)
  case notifyMctp => exact run_done rfl rfl h (bodyFaultNotify_mctp hw)
  case result => exact execMbxResult_done h hp hr
  case busy => exact execMbxResult_busy h hp hr

/-! ### Sessions (R56 to R59) -/

/-- A lifecycle in which sessions exist (R383). -/
def hasSessions (f : FuseBank) (y : Sys) : Prop := lifecycle f y ≠ .blank ∧ lifecycle f y ≠ .fieldDebug

theorem bodySessionOpen_plain {f : FuseBank} {y : Sys} {q : MbxReq} (h : hasSessions f y) :
    bodySessionOpen f y q =
      if epoch y < (keySlot y (num q.payload 0 1)).until_ then .no .busy
      else
        let n := le 32 (Config.nonce y.free).toNat
        .done { y with free := y.free + 1, sec := { y.sec with
          chals := (y.sec.chals.filter fun c => c.who != q.who) ++
            [{ who := q.who, slot := num q.payload 0 1, nonce := n, epoch := epoch y }] } } n := by
  obtain ⟨hb, hd⟩ := h
  unfold bodySessionOpen
  cases hl : lifecycle f y
  case blank => exact absurd hl hb
  case fieldDebug => exact absurd hl hd
  all_goals rfl

theorem bodySessionOpen_none {f : FuseBank} {y : Sys} {q : MbxReq} (h : ¬ hasSessions f y) : bodySessionOpen f y q = .no .stateConflict := by
  rcases not_and_or.mp h with hl | hl <;> simp only [bodySessionOpen, not_not.mp hl]

section
variable {f : FuseBank} {y : Sys} {q : MbxReq}

theorem bodySessionProve_closed (h : (y.sec.chals.find? fun c => c.who == q.who && c.slot == num q.payload 0 1) = none) :
    bodySessionProve f y q = .no .authFail := by
  simp only [bodySessionProve, h]

variable {c : Challenge} (h : (y.sec.chals.find? fun c => c.who == q.who && c.slot == num q.payload 0 1) = some c)
include h

theorem bodySessionProve_wrong (hk : proofOk f y q c = false) :
    bodySessionProve f y q = .doneAs (backOff y c.slot) .authFail [] := by
  simp only [bodySessionProve, h, hk, if_true]

theorem bodySessionProve_right (hk : proofOk f y q c = true) :
    bodySessionProve f y q =
      let good := modKey y c.slot fun x => { x with fails := 0, until_ := 0 }
      if 4 ≤ (y.sec.sessions.filter fun x => sameLimit x.who q.who).length then .doneAs good .noResource []
      else .done (openSession good q.who c).1 (openSession good q.who c).2 := by
  simp only [bodySessionProve, h, hk, Bool.true_eq_false, if_false]
  rfl

end

theorem execSessionProve_eq (s : State) (q : MbxReq) : exec (.sessionProve q) s =
    .next (s.at (mbxThen specSessionProve bodySessionProve (fun y => dropChal y q.who) s.fuse s.sys q)) := rfl

/-- Settles O13: SESSION_OPEN by lifecycle and back-off, SESSION_PROVE by the challenge, the proof and the limit of 4. -/
theorem sessionsOpenProveAndClose : Obligations.SessionsOpenProveAndClose := by
  unfold Obligations.SessionsOpenProveAndClose
  intro s q
  refine ⟨fun h => ⟨fun hl hu => ?opened, fun hl hu => ?backOff, fun hl => ?noSessions⟩,
    fun h => ⟨fun hc => ?noChallenge, fun c hc => ⟨fun hk => ?wrong, fun hk hn => ?full, fun hk hn => ?proved⟩⟩, fun h => ?closed⟩
  case opened => exact run_done rfl rfl h ((bodySessionOpen_plain hl).trans (if_neg (Nat.not_lt.mpr hu)))
  case backOff => exact run_no rfl h ((bodySessionOpen_plain hl).trans (if_pos hu))
  case noSessions => exact run_no rfl h (bodySessionOpen_none hl)
  case noChallenge => exact then_no (execSessionProve_eq s q) h (bodySessionProve_closed hc)
  case wrong => exact then_doneAs (execSessionProve_eq s q) rfl h (bodySessionProve_wrong hc hk)
  case full => exact then_doneAs (execSessionProve_eq s q) rfl h ((bodySessionProve_right hc hk).trans (if_pos hn))
  case proved => exact then_done (execSessionProve_eq s q) rfl h ((bodySessionProve_right hc hk).trans (if_neg (Nat.not_le.mpr hn)))
  case closed => exact run_done rfl rfl h rfl

end Sys2Proof.Machine
end

section
/-! Quiescence, aborts and the life of a context under the commands of the mailbox. -/
namespace Sys2Proof.Machine

/-! ### Quiescence and aborts (R61, R64 to R67) -/

theorem bodyDevQuiesce_live {f : FuseBank} {y : Sys} {q : MbxReq} (h : y.dev.st = .ready ∨ y.dev.st = .degraded) (hq : y.dev.quiescing = false) :
    bodyDevQuiesce f y q = .wait { y with dev := { y.dev with quiescing := true } } .quiesce := by
  refine if_neg ?_
  rcases h with h | h <;> simp [h, hq]

theorem bodyDevQuiesce_not {f : FuseBank} {y : Sys} {q : MbxReq}
    (h : ¬ (y.dev.st = .ready ∨ y.dev.st = .degraded) ∨ y.dev.quiescing = true) : bodyDevQuiesce f y q = .no .stateConflict :=
  if_pos (h.imp_left not_or.mp)

theorem bodyCtxAbort_eq (f : FuseBank) (y : Sys) (q : MbxReq) : bodyCtxAbort f y q =
    if abortable y (arg0 q.payload) = true then
      .wait (abortCtx y (arg0 q.payload) (!ownCtx y q (arg0 q.payload))) (.ctxAbort (arg0 q.payload) (frame y + 40))
    else .no .stateConflict := rfl

theorem bodyFnAbort_eq (f : FuseBank) (y : Sys) (q : MbxReq) : bodyFnAbort f y q =
    let fn := num q.payload 0 1
    let hp := num q.payload 1 1
    if (getFn y hp fn).fnAbort = true then .no .stateConflict
    else .wait (abortFn (modFn y hp fn fun g => { g with fnAbort := true }) hp fn (q.who != .fn hp fn))
      (.fnAbort hp fn (frame y + 400) 0 0 0 0) := rfl

/-- What follows FN_ABORT: an abort with nothing to abort is over at once (R66). -/
def fnAbortAfter (q : MbxReq) (y : Sys) : Sys := settle (fnAbortCheck y (num q.payload 1 1) (num q.payload 0 1))

/-- Settles O14: each body in each of its cases. -/
theorem quiesceAndAbortBegin : Obligations.QuiesceAndAbortBegin := by
  unfold Obligations.QuiesceAndAbortBegin
  intro s q hn
  refine ⟨fun h => ⟨fun hlive hq => ?quiesce, fun hnot => ?noQuiesce⟩, fun h => ⟨fun hst => ?resume, fun hst => ?noResume⟩,
    fun h => ⟨fun ha => ?ctxAbort, fun ha => ?noCtxAbort⟩, fun h => ⟨fun ha => ?fnAbort, fun ha => ?noFnAbort⟩⟩
  case quiesce => exact run_wait rfl h hn (bodyDevQuiesce_live hlive hq)
  case noQuiesce => exact run_no rfl h (bodyDevQuiesce_not hnot)
  case resume => exact run_slow rfl nofun h hn (if_pos hst)
  case noResume => exact run_no rfl h (if_neg hst)
  case ctxAbort => exact then_wait (a := settle) rfl h hn ((bodyCtxAbort_eq _ _ q).trans (if_pos ha))
  case noCtxAbort => exact then_no (a := settle) rfl h ((bodyCtxAbort_eq _ _ q).trans (if_neg (Bool.eq_false_iff.mp ha)))
  case fnAbort => exact then_wait (a := fnAbortAfter q) rfl h hn ((bodyFnAbort_eq _ _ q).trans (if_neg (Bool.eq_false_iff.mp ha)))
  case noFnAbort => exact then_no (a := fnAbortAfter q) rfl h ((bodyFnAbort_eq _ _ q).trans (if_pos ha))

/-! ### Contexts (R97 to R99) -/

theorem bodyCtxCreate_free {f : FuseBank} {y : Sys} {q : MbxReq} {hp fn k : Nat} (hw : q.who = .fn hp fn) (hk : freeCtxId y = some k) :
    bodyCtxCreate f y q = .done { y with ctxs := tset y.ctxs k (Ctx.new hp fn q.payload) } (le 2 k ++ zeros 2) := by
  simp only [bodyCtxCreate, hw, hk]

theorem bodyCtxCreate_full {f : FuseBank} {y : Sys} {q : MbxReq} (hk : freeCtxId y = none) : bodyCtxCreate f y q = .no .noResource := by
  cases hw : q.who <;> simp only [bodyCtxCreate, hw, hk]

section
variable {f : FuseBank} {y : Sys} {q : MbxReq} {x : Ctx} (hx : getCtx y (arg0 q.payload) = some x)
include hx

theorem ownCtx_eq : ownCtx y q (arg0 q.payload) = (q.who == .fn x.hp x.fn) := by
  simp only [ownCtx, hx]

theorem bodyCtxDestroy_eq : bodyCtxDestroy f y q =
    let c := arg0 q.payload
    if (x.st = .created ∨ x.st = .drained) ∧ inComm y c = false ∧ inSet y c = false then
      .done (if q.who = .fn x.hp x.fn then freeCtx y c
        else adminFn (freeCtx y c) x.hp x.fn { AEv.of 0xE2 with old := x.st.code, tag := c }) []
    else .no .stateConflict := by
  simp only [bodyCtxDestroy, hx, ownCtx_eq hx, beq_iff_eq]

theorem bodyCtxActivate_eq : bodyCtxActivate f y q =
    if x.st = .created then .done (ctxTo y (arg0 q.payload) .active (!ownCtx y q (arg0 q.payload))) [] else .no .stateConflict := by
  simp only [bodyCtxActivate, hx]

theorem bodyCtxResume_eq : bodyCtxResume f y q =
    let c := arg0 q.payload
    if x.st ≠ .stalled ∨ (x.ringSt = true ∧ x.cmdSt = false ∧ x.dataSt = false ∧ eqFull x = true) then .no .stateConflict
    else if eqFull x = true then .done y []
    else .done (unstall (modCtx y c fun z => { z with ringSt := false }) c (!ownCtx y q c)) [] := by
  simp only [bodyCtxResume, hx]

end

/-- Settles O15: each body in each of its cases; CTX_CREATE over MCTP is refused by the check of privilege, since an endpoint owns no PD. -/
theorem contextsAreMadeAndFreed : Obligations.ContextsAreMadeAndFreed := by
  unfold Obligations.ContextsAreMadeAndFreed
  intro s q
  refine ⟨fun h hp fn hw => ⟨fun k hk => ?created, fun hk => ?noneFree⟩, fun e hw h => ?overMctp,
    fun h x hx => ⟨fun hmay hw => ?freedByOwner, fun hmay hw => ?freed, fun hmay => ?inUse⟩,
    fun h x hx => ⟨fun hst => ?activated, fun hst => ?notCreated⟩,
    fun h x hx => ⟨fun hst he => ?resumed, fun hst he hr => ?stillFull, fun hno => ?notResumed⟩⟩
  case created => exact run_done rfl rfl h (bodyCtxCreate_free hw hk)
  case noneFree => exact run_no rfl h (bodyCtxCreate_full hk)
  case overMctp =>
    have hpriv : specCtxCreate.priv s.fuse (reached s.sys q) q = some .privilege := by
      simp only [specCtxCreate, ownPd, hw, reduceCtorEq, if_false]
      split <;> rfl
    exact exec_turnedAway rfl (takes_of_wellMade h) (preCheck_of_priv h hpriv)
  case freedByOwner => exact run_done rfl rfl h ((bodyCtxDestroy_eq hx).trans ((if_pos hmay).trans (by rw [if_pos hw])))
  case freed => exact run_done rfl rfl h ((bodyCtxDestroy_eq hx).trans ((if_pos hmay).trans (by rw [if_neg hw])))
  case inUse => exact run_no rfl h ((bodyCtxDestroy_eq hx).trans (if_neg hmay))
  case activated => exact then_done (a := settle) rfl rfl h ((bodyCtxActivate_eq hx).trans (if_pos hst))
  case notCreated => exact then_no (a := settle) rfl h ((bodyCtxActivate_eq hx).trans (if_neg hst))
  case resumed =>
    refine then_done (a := settle) rfl rfl h ((bodyCtxResume_eq hx).trans ?_)
    simp [hst, he]
  case stillFull =>
    refine then_done (a := settle) rfl rfl h ((bodyCtxResume_eq hx).trans ((if_neg ?_).trans (if_pos he)))
    rcases hr with hr | hr | hr <;> simp [hst, hr]
  case notResumed => exact then_no (a := settle) rfl h ((bodyCtxResume_eq hx).trans (if_pos hno))

end Sys2Proof.Machine
end

section
/-! What is idle expires (SESSION_IDLE_EXPIRY, CHALLENGE_EXPIRY, ATTEST_REPORT_EXPIRY): what messages to hosts and endpoints leave of the device,
and when the end of a session abandons a staging lock. -/
namespace Sys2Proof.Machine

/-! ### Messages to hosts and endpoints -/

/-- `t` is `s` after messages to hosts and endpoints: functions' rings and pending interrupts, the wires and the counters alone may differ. -/
def Posted (s t : Sys) : Prop := t = { s with fns := t.fns, out := t.out, cnt := t.cnt }

theorem Posted.refl (s : Sys) : Posted s s := rfl

theorem Posted.trans {s t u : Sys} (h : Posted s t) (h' : Posted t u) : Posted s u := by
  unfold Posted at *
  rw [h', h]

theorem Posted.sec {s t : Sys} (h : Posted s t) : t.sec = s.sec := by
  unfold Posted at h
  rw [h]
theorem Posted.upd {s t : Sys} (h : Posted s t) : t.upd = s.upd := by
  unfold Posted at h
  rw [h]
theorem Posted.dev {s t : Sys} (h : Posted s t) : t.dev = s.dev := by
  unfold Posted at h
  rw [h]

theorem Posted.foldl {α : Type} {f : Sys → α → Sys} (h : ∀ s a, Posted s (f s a)) (l : List α) (s : Sys) : Posted s (l.foldl f s) := by
  induction l generalizing s with
  | nil => exact Posted.refl s
  | cons a l ih => exact (h s a).trans (ih _)

theorem adminFn_posted (s : Sys) (hp fn : Nat) (e : AEv) : Posted s (adminFn s hp fn e) := adminFn_eq s hp fn e

theorem mctpOut_posted (s : Sys) (eid : Nat) (d : Bytes) : Posted s (mctpOut s eid d) := by
  unfold mctpOut
  split_ifs <;> rfl

theorem adminTo_posted (s : Sys) (w : Requester) (e : AEv) : Posted s (adminTo s w e) := by
  cases w with
  | fn hp fn => exact adminFn_posted s hp fn e
  | mctp eid =>
    simp only [adminTo]
    split_ifs
    · exact mctpOut_posted _ _ _
    · exact Posted.refl s

theorem adminAll_posted (s : Sys) (e : AEv) : Posted s (adminAll s e) := by
  unfold adminAll
  refine Posted.trans (Posted.foldl (f := fun s (g : Nat × Fn) => adminFn s (g.1 / 64) (g.1 % 64) e) (fun t g => ?_) _ _)
    (Posted.foldl (f := fun s eid => adminTo s (.mctp eid) e) (fun t eid => ?_) _ _)
  · exact adminFn_posted _ _ _ _
  · exact adminTo_posted _ _ _

/-- A change of the device's state posts to every ring and leaves the rest. -/
theorem setDev_posted (s : Sys) (st : DevState) : ∃ d, Posted { s with dev := d } (setDev s st) := by
  unfold setDev
  split_ifs
  · exact ⟨s.dev, Posted.refl s⟩
  · exact ⟨_, adminAll_posted _ _⟩

theorem setDev_upd (s : Sys) (st : DevState) : (setDev s st).upd = s.upd := (setDev_posted s st).choose_spec.upd
theorem setDev_sec (s : Sys) (st : DevState) : (setDev s st).sec = s.sec := (setDev_posted s st).choose_spec.sec

/-! ### A staging lock abandoned (R393) -/

@[simp] theorem bootWrite_sec (s t : Sys) : (bootWrite s t).sec = t.sec := by
  unfold bootWrite
  split_ifs <;> rfl

@[simp] theorem bootWrite_lock (s t : Sys) : (bootWrite s t).upd.lock = t.upd.lock := by
  unfold bootWrite
  simp only
  split_ifs <;> rfl

@[simp] theorem abandon_sec (s : Sys) : (abandon s).sec = s.sec := by
  unfold abandon
  split
  · rfl
  · simp only
    split_ifs
    · rw [setDev_sec, bootWrite_sec]
    · rw [bootWrite_sec]

@[simp] theorem abandon_lock (s : Sys) : (abandon s).upd.lock = none := by
  unfold abandon
  split
  · assumption
  · simp only
    split_ifs
    · rw [setDev_upd, bootWrite_lock]
    · rw [bootWrite_lock]

/-! ### The end of sessions (R59) -/

/-- Sessions taken away, and their requesters told. -/
def sessionsOut (s : Sys) (which : Session → Bool) (reason : Nat) (quiet : Requester → Bool) : Sys :=
  (s.sec.sessions.filter which).foldl (fun s x => if quiet x.who then s else adminTo s x.who { AEv.of 0xE4 with reason := reason })
    { s with sec := { s.sec with sessions := s.sec.sessions.filter fun x => !which x } }

section
variable (s : Sys) (which : Session → Bool) (reason : Nat) (quiet : Requester → Bool)

theorem sessionsOut_posted : Posted { s with sec := { s.sec with sessions := s.sec.sessions.filter fun x => !which x } }
    (sessionsOut s which reason quiet) := by
  refine Posted.foldl (fun s x => ?_) _ _
  split_ifs
  · exact Posted.refl s
  · exact adminTo_posted _ _ _

/-- The staging lock is held through one of the sessions that end, and its slot is being staged. -/
def lockEnds (s : Sys) (which : Session → Bool) : Prop :=
  ∃ l who tok, s.upd.lock = some l ∧ l.holder = .req who tok ∧ (∃ x ∈ s.sec.sessions, which x = true ∧ x.who = who ∧ x.token = tok) ∧
    ((getSlot s l.slot).st = .staging ∨ (getSlot s l.slot).st = .staged)

/-- The end of sessions, and of the lock that one of them held. -/
theorem endSessions_cases :
    (lockEnds s which ∧ endSessions s which reason quiet = abandon (sessionsOut s which reason quiet)) ∨
      (¬ lockEnds s which ∧ endSessions s which reason quiet = sessionsOut s which reason quiet) := by
  have hupd : (sessionsOut s which reason quiet).upd = s.upd := (sessionsOut_posted s which reason quiet).upd
  have hend : endSessions s which reason quiet =
      match (sessionsOut s which reason quiet).upd.lock with
      | some l =>
        match l.holder with
        | .req who token =>
          let st := ((sessionsOut s which reason quiet).upd.slots.getD l.slot Slot.reset).st
          if (s.sec.sessions.filter which).any (fun x => x.who == who && x.token == token) ∧ (st = .staging ∨ st = .staged) then
            abandon (sessionsOut s which reason quiet) else sessionsOut s which reason quiet
        | _ => sessionsOut s which reason quiet
      | none => sessionsOut s which reason quiet := rfl
  rw [hend, hupd]
  unfold lockEnds getSlot
  cases hl : s.upd.lock with
  | none => simp
  | some l =>
    cases hh : l.holder with
    | port p => simp [hh]
    | req who tok =>
      simp only [hh, List.any_eq_true, List.mem_filter, Bool.and_eq_true, beq_iff_eq, and_assoc]
      split_ifs with hc
      · exact .inl ⟨⟨l, who, tok, rfl, hh, hc⟩, rfl⟩
      · refine .inr ⟨?_, rfl⟩
        rintro ⟨l', who', tok', hl', hh', hx, hst⟩
        obtain rfl := Option.some.inj hl'
        obtain ⟨rfl, rfl⟩ := Holder.req.inj (hh.symm.trans hh')
        exact hc ⟨hx, hst⟩

end

theorem endSessions_sec (s : Sys) (which : Session → Bool) (reason : Nat) (quiet : Requester → Bool) :
    (endSessions s which reason quiet).sec = { s.sec with sessions := s.sec.sessions.filter fun x => !which x } := by
  rcases endSessions_cases s which reason quiet with ⟨-, h⟩ | ⟨-, h⟩
  · rw [h, abandon_sec, (sessionsOut_posted s which reason quiet).sec]
  · rw [h, (sessionsOut_posted s which reason quiet).sec]

/-- Where no session ends, nothing changes. -/
theorem endSessions_none {s : Sys} {which : Session → Bool} {reason : Nat} {quiet : Requester → Bool}
    (h : ∀ x ∈ s.sec.sessions, which x = false) : endSessions s which reason quiet = s := by
  have hkept : (s.sec.sessions.filter fun x => !which x) = s.sec.sessions := List.filter_eq_self.mpr fun x hx => by simp [h x hx]
  have hout : (s.sec.sessions.filter which) = [] := List.filter_eq_nil_iff.mpr fun x hx => by simp [h x hx]
  rcases endSessions_cases s which reason quiet with ⟨⟨_, _, _, -, -, ⟨x, hx, hw, -⟩, -⟩, -⟩ | ⟨-, he⟩
  · exact absurd hw (by simp [h x hx])
  · rw [he, sessionsOut, hout, hkept]
    rfl

/-! ### The rows -/

/-- The sessions that an idle expiry of a token ends. -/
def idleSession (s : Sys) (token : Nat) (x : Session) : Bool :=
  x.token == token && !s.time.epNow.testBit 10 && decide (x.lastEpoch + 1 + s.upd.idle ≤ epoch s)

theorem execSessionIdleExpiry_eq (s : State) (token : Nat) :
    exec (.sessionIdleExpiry token) s = .next (s.at (endSessions s.sys (idleSession s.sys token) 2 fun _ => false)) := rfl

/-- Settles O35: what each row keeps, and that nothing goes before its time. -/
theorem whatIsIdleExpires : Obligations.WhatIsIdleExpires := by
  unfold Obligations.WhatIsIdleExpires
  intro s
  refine ⟨fun token hb => ?idle, fun token h => ?early, fun which reason quiet => ⟨?ended, fun l who tok hl hh hx hst => ?lost, fun hp => ?kept⟩,
    fun who => rfl, fun who => rfl, fun who h => ?challenge, fun who h => ?report⟩
  case idle =>
    have hf : idleSession s.sys token = fun x => x.token == token && decide (x.lastEpoch + 1 + s.sys.upd.idle ≤ epoch s.sys) := by
      funext x
      simp [idleSession, hb]
    rw [execSessionIdleExpiry_eq, hf]
  case early =>
    refine exec_run (execSessionIdleExpiry_eq s token) (endSessions_none fun x hx => ?_)
    rcases h with h | h
    · have hlt := h x hx
      simp only [idleSession, Bool.and_eq_false_iff, decide_eq_false_iff_not, Nat.not_le, beq_eq_false_iff_ne]
      tauto
    · simp [idleSession, h]
  case ended => exact congrArg Sec.sessions (endSessions_sec s.sys which reason quiet)
  case lost =>
    rcases endSessions_cases s.sys which reason quiet with ⟨-, h⟩ | ⟨hno, -⟩
    · simp only [h, abandon_lock]
    · exact absurd ⟨l, who, tok, hl, hh, hx, hst⟩ hno
  case kept =>
    rcases endSessions_cases s.sys which reason quiet with ⟨⟨l, _, _, hl, hh, -⟩, -⟩ | ⟨-, h⟩
    · obtain ⟨p, hport⟩ := hp l hl
      exact nomatch hh.symm.trans hport
    · simp only [h]
      exact (sessionsOut_posted s.sys which reason quiet).upd
  case challenge =>
    have hkept : (s.sys.sec.chals.filter fun c => !(c.who == who && decide (c.epoch + 1024 ≤ epoch s.sys))) = s.sys.sec.chals :=
      List.filter_eq_self.mpr fun c hc => by simpa [imp_iff_not_or] using h c hc
    exact exec_run rfl (congrArg (fun l => { s.sys with sec := { s.sys.sec with chals := l } }) hkept)
  case report =>
    have hkept : (s.sys.sec.reports.filter fun r => !(r.who == who && decide (r.lastEpoch + 1024 ≤ epoch s.sys))) = s.sys.sec.reports :=
      List.filter_eq_self.mpr fun r hr => by simpa [imp_iff_not_or] using h r hr
    exact exec_run rfl (congrArg (fun l => { s.sys with sec := { s.sys.sec with reports := l } }) hkept)

end Sys2Proof.Machine
end

section
/-! The states that a response carries (R42, R50): bytes 8 and 9, the empty payload of STATE_CONFLICT, and what each command names. -/
namespace Sys2Proof.Machine

/-! ### The header of a response (Table 3.6) -/

theorem Resp.bytes_dev (r : Resp) : num r.bytes 8 1 = r.dev % 256 := by simp [Resp.bytes, num_append_of_le]
theorem Resp.bytes_ctx (r : Resp) : num r.bytes 9 1 = r.ctx % 256 := by simp [Resp.bytes, num_append_of_le]
theorem Resp.bytes_len (r : Resp) : num r.bytes 6 2 = r.data.length % 65536 := by simp [Resp.bytes, num_append_of_le]

@[simp] theorem CtxSt.code_mod (x : CtxSt) : x.code % 256 = x.code := by cases x <;> rfl

theorem ctxByte_ctx {y : Sys} {c : Nat} {x : Ctx} (hc : c < 65536) (hx : getCtx y c = some x) : ctxByte y (some c) = x.st.code := by
  unfold getCtx at hx
  simp only [ctxByte, Nat.not_le.mpr hc, if_false, hx]

/-- A function's key is taken apart again. -/
theorem fnKey_parts {hp fn : Nat} (h : fn < 64) : fnKey hp fn / 64 = hp ∧ fnKey hp fn % 64 = fn := by
  unfold fnKey
  omega

theorem ctxByte_fn {y : Sys} {hp fn : Nat} (h : fn < 64) :
    ctxByte y (some (namedFn hp fn)) = if (getFn y hp fn).fnAbort = true then 0xFE else 0xFF := by
  obtain ⟨hhp, hfn⟩ := fnKey_parts (hp := hp) h
  simp [ctxByte, namedFn, hhp, hfn]

/-! ### A refusal with STATE_CONFLICT (R50) -/

/-- A request that fails a check other than that of its length has a good length. -/
theorem lenOk_of_preCheck {c : Spec} {f : FuseBank} {s : Sys} {q : MbxReq} {e : Status} (h : preCheck c f s q = some e)
    (he : e ≠ .badLength) : c.lenOk q.payload.length = true := by
  unfold preCheck at h
  split_ifs at h with hlen
  case pos => exact absurd (Option.some.inj h).symm he
  all_goals simpa using (not_or.mp hlen).2

/-- What a refusal shows of what the command names, where its requester reaches that or it names nothing. -/
theorem turnedAway_eq {c : Spec} {s : State} {q : MbxReq} {e : Status} (hp : preCheck c s.fuse (reached s.sys q) q = some e)
    (he : e ≠ .badLength) (hpriv : e ≠ .privilege) (hr : c.priv s.fuse (reached s.sys q) q = none ∨ ∀ y b, c.named y b = none) :
    turnedAway c s.fuse q (reached s.sys q) e = refusedWith c q (used s q) e := by
  have hshown : shown c s.fuse (reached s.sys q) q e = c.named (used s q) q.payload := by
    rcases hr with hr | hn
    · simp [shown, used, lenOk_of_preCheck hp he, hpriv, hr]
    · simp [shown, hn]
  simp only [turnedAway, refusedWith, hshown, hpriv, if_false]
  rfl

theorem respond_mctp (s : Sys) (e lt : Nat) (r : Resp) : respond s (.mctp e) lt r = mctpOut s e (korfelMsg 2 r.bytes) := rfl

/-- A command of an endpoint that asked for no event ends with the response alone. -/
theorem refusedWith_mctp {c : Spec} {q : MbxReq} {y : Sys} {e : Nat} (hw : q.who = .mctp e) (hf : q.flags.testBit 0 = false) :
    refusedWith c q y .stateConflict =
      mctpOut y e (korfelMsg 2 (mkResp y c.opcode q.tag .stateConflict (c.named y q.payload) []).bytes) := by
  simp only [refusedWith, finishNow, hf, Bool.and_false, Bool.false_eq_true, reduceCtorEq, if_false, if_true, hw, respond_mctp]

theorem refusedWith_rspBuf {c : Spec} {q : MbxReq} {y : Sys} {hp fn : Nat} (hw : q.who = .fn hp fn) :
    Memory.readAll (getFn (refusedWith c q y .stateConflict) hp fn).mbx.rspBuf 0 16 =
      (mkResp y c.opcode q.tag .stateConflict (c.named y q.payload) []).bytes :=
  finishNow_rspBuf (st := .stateConflict) (d := []) hw

/-- Settles O56: the header's bytes, the refusal by a check, where it lands, and what each command names. -/
theorem responsesCarryTheStates : Obligations.ResponsesCarryTheStates := by
  unfold Obligations.ResponsesCarryTheStates
  refine ⟨fun y op tag st d => ⟨fun n => ?dev, ?unnamed, fun c x hc hx => ?ctx, fun hp fn hfn ha => ?fn⟩,
    fun i c s q hm ht hp hr => ?refused, fun c q y => ⟨Resp.bytes_length _, Resp.bytes_len _, fun hp fn hw _ => refusedWith_rspBuf hw,
      fun e hw hf => refusedWith_mctp hw hf⟩,
    fun q y => ⟨?namesCtx, ?namesFn, fun p hp => ?namesMember⟩⟩
  case dev => exact (Resp.bytes_dev _).trans (DevState.code_mod _)
  case unnamed => exact Resp.bytes_ctx _
  case ctx => exact (Resp.bytes_ctx _).trans ((congrArg (· % 256) (ctxByte_ctx hc hx)).trans (CtxSt.code_mod _))
  case fn => exact (Resp.bytes_ctx _).trans (congrArg (· % 256) ((ctxByte_fn hfn).trans (if_pos ha)))
  case refused =>
    have he : turnedAway c s.fuse q (reached s.sys q) .stateConflict = refusedWith c q (used s q) .stateConflict :=
      turnedAway_eq hp (by decide) (by decide) hr
    exact exec_run (exec_turnedAway hm ht hp) (congrArg (follows i) he)
  case namesCtx =>
    simp only [List.mem_cons, List.not_mem_nil, or_false, forall_eq_or_imp, forall_eq]
    exact ⟨rfl, rfl, rfl, rfl, rfl, rfl, rfl, rfl, rfl, rfl, rfl, rfl, rfl⟩
  case namesFn =>
    simp only [List.mem_cons, List.not_mem_nil, or_false, forall_eq_or_imp, forall_eq]
    exact ⟨rfl, rfl, rfl, rfl, rfl, rfl⟩
  case namesMember =>
    simp only [mailbox, specPsetAdd, Option.map_some, hp]

end Sys2Proof.Machine
end

section
/-! How accepted commands end: aborts, quiescence, time-outs, flash, attestation, self-test and fuses, in each of their cases. -/
namespace Sys2Proof.Machine

/-! ### Aborts (R66) -/

/-- The device as an abort's bound leaves the context's work: accesses given up, reads orphaned, events dropped. -/
def boundWork (y : Sys) (c : Nat) : Sys :=
  let t := forgetAccs y fun a => a.ctx == c
  let t := { t with hps := t.hps.map fun h => { h with
    rdWait := h.rdWait.filter fun r => r.ctx != c,
    reads := h.reads.map fun r => if r.ctx == c then { r with orphan := true } else r } }
  modCtx t c fun x => { x with abortDrop := x.abortDrop + x.waitEv.length, waitEv := [] }

section
variable {y : Sys} {c : Nat} {x : Ctx} (hx : getCtx y c = some x)
include hx

theorem abortComplete_over (hst : x.st = .aborting) (hw : x.waitEv = []) (hr : ctxReads y c = 0) (ha : y.xl.accs.any (fun a => a.ctx == c) = false) :
    abortComplete y c = abortEnd y c 0 := by
  simp [abortComplete, hx, hst, hw, hr, ha]

theorem abortComplete_waits (h : x.waitEv ≠ [] ∨ ctxReads y c ≠ 0 ∨ y.xl.accs.any (fun a => a.ctx == c) = true) :
    abortComplete y c = y := by
  simp only [abortComplete, hx]
  exact if_pos (.inr h)

theorem abortBound_reached {d : Nat} (hst : x.st = .aborting) (hd : abortDeadline y c = some d) (hf : d ≤ frame y) :
    abortBound y c = abortEnd (refuseDue (boundWork y c) fun a => a.due && a.head.dctx == c) c (ctxLive y c) := by
  simp only [abortBound, hx, hd]
  refine if_neg ?_
  simp [hst, hf]

theorem abortBound_early {d : Nat} (hd : abortDeadline y c = some d) (hf : frame y < d) : abortBound y c = y := by
  simp only [abortBound, hx, hd]
  exact if_pos (.inr hf)

end

/-! ### Quiescence (R61) and time-outs (R46) -/

theorem runQuiesceComplete_live {f : FuseBank} {y : Sys} (hq : y.dev.quiescing = true) (hquiet : quiet y = true)
    (hst : y.dev.st = .ready ∨ y.dev.st = .degraded) : runQuiesceComplete f y =
      endWait (setDev { y with dev := { y.dev with quiescing := false } } .quiesced) (fun w => w == .quiesce) .ok [] := by
  refine (if_pos ⟨hq, hquiet⟩).trans ?_
  rcases hst with h | h <;> simp only [h]

theorem runQuiesceComplete_left {f : FuseBank} {y : Sys} (hq : y.dev.quiescing = true) (hquiet : quiet y = true)
    (hr : y.dev.st ≠ .ready) (hd : y.dev.st ≠ .degraded) : runQuiesceComplete f y =
      endWait { y with dev := { y.dev with quiescing := false } } (fun w => w == .quiesce) .ok [] := by
  refine (if_pos ⟨hq, hquiet⟩).trans ?_
  cases h : y.dev.st
  case ready => exact absurd h hr
  case degraded => exact absurd h hd
  all_goals simp only [h]

theorem runQuiesceComplete_busy {f : FuseBank} {y : Sys} (h : y.dev.quiescing = false ∨ quiet y = false) : runQuiesceComplete f y = y := by
  refine if_neg ?_
  rcases h with h | h <;> simp [h]

section
variable {f : FuseBank} {y : Sys} {who : Requester} {tag : Nat} {p : Pend}
  (hp : (y.svc.pend.find? fun p => p.who == who && p.tag == tag && p.res.isNone) = some p)
include hp

theorem runCommandTimeout_bound {b : Nat} (hb : boundOf p.wait = some b) : runCommandTimeout f y who tag =
    if p.ft / 1024 + b ≤ frame y then settle (releaseReset (undo y p .timeout)) else y := by
  simp only [runCommandTimeout, hp, hb]

theorem runCommandTimeout_unbounded (hb : boundOf p.wait = none) : runCommandTimeout f y who tag = y := by
  simp only [runCommandTimeout, hp, hb]

end

/-! ### Flash (R406) and attestation (R380) -/

theorem runFlashOperationComplete_some {f : FuseBank} {y : Sys} {p : Pend} {op : FlashOp} (h : flashHead y = some (p, op)) (ok : Bool) :
    runFlashOperationComplete f y ok =
      if ok = true then endPend (op.apply y) p .ok [] else endPend (fault (op.failLog y) 119 1 1 (op.place y) 11 0) p .internal [] := by
  simp only [runFlashOperationComplete, h]

theorem runFlashOperationComplete_none {f : FuseBank} {y : Sys} (h : flashHead y = none) (ok : Bool) :
    runFlashOperationComplete f y ok = y := by
  simp only [runFlashOperationComplete, h]

theorem runAttestComplete_some {f : FuseBank} {y : Sys} {w : Requester} {k : Nat} {m : Bytes} (h : y.sec.signing = some (w, k, m)) :
    runAttestComplete f y =
      let r := m ++ fit 29792 (Config.slhSign (y.sec.ids.getD []) "JA64-ATTEST" m)
      endWait { y with sec := { y.sec with
        signing := none, nextHandle := y.sec.nextHandle % 65535 + 1,
        reports := y.sec.reports ++ [{ who := w, handle := y.sec.nextHandle, data := r, lastEpoch := epoch y }] } }
        (fun w => w == .attest) .ok (le 4 r.length ++ le 2 y.sec.nextHandle) := by
  simp only [runAttestComplete, h]

theorem runAttestComplete_none {f : FuseBank} {y : Sys} (h : y.sec.signing = none) : runAttestComplete f y = y := by
  simp only [runAttestComplete, h]

/-! ### Self-test (R430 to R432) -/

/-- A test's signature is not the one expected. -/
def bistWrong (f : FuseBank) (y : Sys) (g : Nat) (mem : Bool) (misr : Nat) : Prop :=
  ∃ e, bistExpect f y g = some e ∧ (if mem = true then e.2 else e.1) ≠ le 16 misr

/-- The end of a test whose result has been judged: it is recorded and told, and the last one ends the run. -/
def bistTested (p : Pend) (gs : List Nat) (l m : Bool) (r : Bytes) (u : Sys) : Sys :=
  let t : Sys := { u with svc := { u.svc with pend := u.svc.pend.map fun x => if x == p then { x with wait := .bist gs l m r } else x } }
  let t := adminTo t p.who
    { AEv.of 0xE1 with tag := p.tag, opcode := p.opcode, progress := 1000 * bistDoneMs gs l m r / max 1 (bistMs gs l m) }
  if gs.length * 40 ≤ r.length then endPend (gs.foldl bistReset t) p .ok r else t

section
variable {f : FuseBank} {y : Sys} {p : Pend} {gs : List Nat} {l m : Bool} {r : Bytes} (h : bistOf y = some (p, gs, l, m, r))
include h

theorem runBistTestComplete_other {g : Nat} {mem : Bool} {misr : Nat} (hn : bistNext gs l r ≠ some (g, mem)) :
    runBistTestComplete f y g mem misr = y := by
  simp only [runBistTestComplete, h]
  exact if_pos hn

theorem runBistTestComplete_due {g : Nat} {mem : Bool} {misr : Nat} (hn : bistNext gs l r = some (g, mem)) {u : Sys}
    (hbad : bistWrong f y g mem misr → u = fault y 121 1 2 (g + (if mem = true then 512 else 256)) 14 0)
    (hgood : ¬ bistWrong f y g mem misr → u = y) :
    runBistTestComplete f y g mem misr = bistTested p gs l m (bistRecord (bistExpect f y g) l m r g mem (le 16 misr)) u := by
  simp only [runBistTestComplete, h]
  refine (if_neg (not_not.mpr hn)).trans ?_
  unfold bistWrong at hbad hgood
  cases he : bistExpect f y g with
  | none =>
    obtain rfl := hgood (by simp [he])
    rfl
  | some e =>
    by_cases hb : (if mem = true then e.2 else e.1) = le 16 misr
    · obtain rfl := hgood (by simp [he, hb])
      simp [bistTested, hb]
    · obtain rfl := hbad ⟨e, he, hb⟩
      simp [bistTested, hb]

end

/-! ### Fuses (R373, R441) -/

/-- The bits that an operation blows: all of them, or a free part where its read-back fails or a chip reset cuts it short. -/
def fuseBits (f : FuseBank) (y : Sys) (op : FuseOp) (ok : Bool) : BitVec 3 × BitVec 64 × BitVec 64 × BitVec 1 :=
  if ok = true ∧ y.pins.deferred = none then op.bits f else maskBits (op.bits f) (Config.word y.free)

/-- The device once the operation's bits are blown, to take effect at the next reset (R382). -/
def fuseTaken (f : FuseBank) (y : Sys) (op : FuseOp) (ok : Bool) : Sys :=
  let b := fuseBits f y op ok
  let u := if ok = true ∧ y.pins.deferred = none then y else draw y
  { u with svc := { u.svc with fuseOp := none }, sec := { u.sec with
    lcNew := u.sec.lcNew ||| (b.1 &&& ~~~ f.lc), dbgNew := u.sec.dbgNew ||| (b.2.1 &&& ~~~ f.dbgCnt),
    udsNew := u.sec.udsNew ||| (b.2.2.2 &&& ~~~ f.udsLock) } }

/-- What follows an operation that no reset cuts short. -/
def fuseEnd (g : FuseBank) (v : Sys) (op : FuseOp) (ok : Bool) : Sys :=
  match op with
  | .lc k => lcFuseEnd g v k ok
  | .svn _ => if ok then svnFuseEnd (floorSlots g v) .ok else fault (svnFuseEnd (floorSlots g v) .internal) 117 2 3 0 12 0

theorem runFuseProgramComplete_none {f : FuseBank} {y : Sys} (h : y.svc.fuseOp = none) (ok : Bool) : runFuseProgramComplete f y ok = (f, y) := by
  simp only [runFuseProgramComplete, h]

theorem runFuseProgramComplete_some {f : FuseBank} {y : Sys} {op : FuseOp} (h : y.svc.fuseOp = some op) (ok : Bool) :
    runFuseProgramComplete f y ok =
      let g := f.blow (fuseBits f y op ok)
      let v := fuseTaken f y op ok
      (g, releaseReset (if y.pins.deferred.isSome = true then v else fuseEnd g v op ok)) := by
  cases hd : y.pins.deferred with
  | some k => cases ok <;> simp [runFuseProgramComplete, h, hd, fuseBits, fuseTaken]
  | none => cases ok <;> simp [runFuseProgramComplete, h, hd, fuseBits, fuseTaken, fuseEnd] <;> rfl

theorem execFuseProgramComplete_eq (ok : Bool) (s : State) : exec (.fuseProgramComplete ok) s =
    .next { s with fuse := (runFuseProgramComplete s.fuse s.sys ok).1, sys := (runFuseProgramComplete s.fuse s.sys ok).2 } := rfl

/-- Settles O54: each row in each of its cases. -/
theorem acceptedCommandsEnd : Obligations.AcceptedCommandsEnd := by
  unfold Obligations.AcceptedCommandsEnd
  intro s c
  refine ⟨fun x hx hst => ⟨fun hw hr ha => ?finished, fun h => ?outstanding, fun d hd hf => ?bound, fun d hd hf => ?early⟩,
    fun hq hquiet => ⟨fun hst => ?quiesced, fun hr hd => ?left⟩, fun h => ?busy,
    fun who tag p hp => ⟨fun b hb => ⟨fun hf => ?timeout, fun hf => ?inTime⟩, fun hb => ?unbounded⟩,
    fun p op h => ⟨?written, ?writeFailed⟩, fun h ok => ?noFlash, fun w k m h => ?attested, fun h => ?notSigning,
    fun p gs l m r h misr => ⟨fun g mem hn => ?notDue, fun g mem hn u hbad hgood => ?tested⟩, fun h ok => ?noFuse, fun op h ok => ?fused⟩
  case finished => exact exec_run rfl (congrArg settle (abortComplete_over hx hst hw hr ha))
  case outstanding => exact exec_run rfl (congrArg settle (abortComplete_waits hx h))
  case bound => exact exec_run rfl (congrArg settle (abortBound_reached hx hst hd hf))
  case early => exact exec_run rfl (congrArg settle (abortBound_early hx hd hf))
  case quiesced => exact exec_run rfl (runQuiesceComplete_live hq hquiet hst)
  case left => exact exec_run rfl (runQuiesceComplete_left hq hquiet hr hd)
  case busy => exact exec_run rfl (runQuiesceComplete_busy h)
  case timeout => exact exec_run rfl ((runCommandTimeout_bound hp hb).trans (if_pos hf))
  case inTime => exact exec_run rfl ((runCommandTimeout_bound hp hb).trans (if_neg (Nat.not_le.mpr hf)))
  case unbounded => exact exec_run rfl (runCommandTimeout_unbounded hp hb)
  case written => exact exec_run rfl (runFlashOperationComplete_some h true)
  case writeFailed => exact exec_run rfl (runFlashOperationComplete_some h false)
  case noFlash => exact exec_run rfl (runFlashOperationComplete_none h ok)
  case attested => exact exec_run rfl (runAttestComplete_some h)
  case notSigning => exact exec_run rfl (runAttestComplete_none h)
  case notDue => exact exec_run rfl (runBistTestComplete_other h hn)
  case tested => exact exec_run rfl (runBistTestComplete_due h hn hbad hgood)
  case noFuse => rw [execFuseProgramComplete_eq, runFuseProgramComplete_none h]
  case fused =>
    rw [execFuseProgramComplete_eq, runFuseProgramComplete_some h]
    refine ⟨_, rfl, rfl, rfl, fun hc => congrArg releaseReset (if_pos hc), fun k hk hd => ?lc, fun n hn hd => ⟨fun hok => ?svn, fun hok => ?svnFailed⟩⟩
    all_goals
      subst op
      have hwhole : ¬ s.sys.pins.deferred.isSome = true := by simp [hd]
    case lc => exact congrArg releaseReset (if_neg hwhole)
    case svn =>
      subst hok
      exact congrArg releaseReset (if_neg hwhole)
    case svnFailed =>
      subst hok
      exact congrArg releaseReset (if_neg hwhole)

end Sys2Proof.Machine
end

section
/-! The opcodes of the mailbox commands: a request taken out of a buffer runs the row of its opcode. -/
namespace Sys2Proof.Machine

/-- The mailbox commands on one request. Lean's compiler takes no constructor of an inductive this large, so the list is for proofs alone. -/
noncomputable def mailboxRows (q : MbxReq) : List Instr :=
  [.identify q, .getState q, .adminRingSet q, .mbxResult q, .devQuiesce q, .devResume q, .sessionOpen q, .sessionProve q, .sessionClose q,
   .ctxCreate q, .ctxDestroy q, .ctxActivate q, .ctxQuery q, .ctxResume q, .ctxModerate q, .ctxSched q, .fnShape q, .fnQuota q, .ctxAbort q,
   .fnAbort q, .pdCreate q, .pdDestroy q, .regionRegister q, .regionDeregister q, .fnTenant q, .fnS2Set q, .regtabSet q, .hostmapSet q,
   .xlatFaultRingSet q, .xlatResume q, .xlatInvalidate q, .xlatAge q, .frameConfig q, .timeStatus q, .teConfig q, .tblWrite q, .tblCommit q,
   .tblRead q, .routeConfig q, .dgramSend q, .dgramRecv q, .linkStatus q, .linkControl q, .slConfig q, .slStatus q, .slPrbs q, .slSlip q,
   .commCreate q, .commDestroy q, .commQuery q, .mgidGrant q, .colConfig q, .meCtxConfig q, .meQuery q, .psetCreate q, .psetDestroy q,
   .psetAdd q, .psetRemove q, .psetHint q, .psetQuery q, .pePolicy q, .peRouteQuery q, .cntConfig q, .cntRead q, .cntGrant q, .cntBw q,
   .fnCntRead q, .traceConfig q, .faultRead q, .faultClear q, .faultConfig q, .faultNotify q, .faultInject q, .logRead q, .logClear q,
   .chipReset q, .updateOpen q, .updateWrite q, .updateVerify q, .updateAbandon q, .updateActivate q, .updateConfirm q, .updateStatus q,
   .freshetConfig q, .settingsSave q, .settingsSet q, .bistRun q, .pwrStatus q, .pwrDomain q, .cageConfig q, .cageControl q, .cageStatus q,
   .cmisAccess q, .sensorRead q, .sensorLimits q, .lcStatus q, .attestRequest q, .attestRead q, .idCertRead q, .idCertWrite q, .keySet q,
   .lcTransition q]

/-- The opcodes defined in this release (Table 3.13 and its like), in the order of those rows. -/
def opcodes : List Nat :=
  [0x0001, 0x0002, 0x0003, 0x0004, 0x0005, 0x0006, 0x0010, 0x0011, 0x0012,
   0x0101, 0x0102, 0x0103, 0x0104, 0x0105, 0x0106, 0x0107, 0x0108, 0x0109, 0x0110, 0x0111,
   0x0201, 0x0202, 0x0203, 0x0204, 0x0205, 0x0206, 0x0207, 0x0208, 0x0209, 0x020A, 0x020B, 0x020C,
   0x0310, 0x0311, 0x0320, 0x0301, 0x0302, 0x0303, 0x0304, 0x0330, 0x0331, 0x0340, 0x0341, 0x0350, 0x0351, 0x0910, 0x0911,
   0x0401, 0x0402, 0x0403, 0x0410, 0x0411, 0x0120, 0x0121,
   0x0501, 0x0502, 0x0503, 0x0504, 0x0505, 0x0506, 0x0510, 0x0511,
   0x0601, 0x0602, 0x0603, 0x0604, 0x0605, 0x0606, 0x0701, 0x0702, 0x0703, 0x0704, 0x0920, 0x07E0, 0x07E1, 0x07F0,
   0x0801, 0x0802, 0x0803, 0x0804, 0x0805, 0x0806, 0x0807, 0x0808, 0x0810, 0x0811, 0x0901,
   0x0A01, 0x0A02, 0x0A10, 0x0A11, 0x0A12, 0x0A13, 0x0A03, 0x0A04,
   0x0B01, 0x0B30, 0x0B31, 0x0B32, 0x0B40, 0x0B41, 0x0B50]

/-- The rows have these opcodes. -/
theorem mailboxRows_opcodes (q : MbxReq) : (mailboxRows q).map (fun i => (mailbox i).map (·.1.opcode)) = opcodes.map some := rfl

/-- A defined opcode is that of a mailbox command. -/
theorem exists_row_of_mem_opcodes {op : Nat} (h : op ∈ opcodes) (q : MbxReq) : ∃ i c r, mailbox i = some (c, r) ∧ c.opcode = op := by
  have hmem : some op ∈ (mailboxRows q).map (fun i => (mailbox i).map (·.1.opcode)) := by
    rw [mailboxRows_opcodes]
    exact List.mem_map_of_mem h
  obtain ⟨i, -, hi⟩ := List.mem_map.mp hmem
  obtain ⟨⟨c, r⟩, hm, hop⟩ := Option.map_eq_some_iff.mp hi
  exact ⟨i, c, r, hm, hop⟩

set_option maxRecDepth 20000 in
/-- An opcode that is not defined receives BAD_OPCODE. -/
theorem serveOp_undefined {f : FuseBank} {s : Sys} {op : Nat} {q : MbxReq} (h : op ∉ opcodes) : serveOp f s op q =
    mbxGate s op q fun t => finishNow (touchSession t q.who q.token) q op .badOpcode none [] false := by
  unfold serveOp
  split
  case h_103 => rfl
  all_goals exact absurd (by decide) h

set_option maxRecDepth 20000 in
/-- A mailbox command is what its opcode serves. -/
theorem exec_mailbox {i : Instr} {c : Spec} {q : MbxReq} (s : State) (h : mailbox i = some (c, q)) :
    exec i s = .next (s.at (serveOp s.fuse s.sys c.opcode q)) := by
  unfold mailbox at h
  split at h
  case h_103 => exact nomatch h
  all_goals
    cases h
    rfl

end Sys2Proof.Machine
end

section
/-! What the host writes, and what a read answers: the doorbell pages, BAR0 and the configuration fields, in each of their cases. -/
namespace Sys2Proof.Machine

/-! ### Doorbell pages (R72, R75 to R78, R93) -/

theorem atPage_absent {s : Sys} {hp fn page : Nat} {g : Nat → Sys} (h : fnPresent s hp fn = false) : atPage s hp fn page g = s := if_pos h

section
variable {s : Sys} {hp fn page : Nat} (h : fnPresent s hp fn = true)
include h

theorem atPage_some {g : Nat → Sys} {c : Nat} (hc : pageCtx s hp fn page = some c) : atPage s hp fn page g = g c := by
  simp [atPage, h, hc]

theorem atPage_none {g : Nat → Sys} (hc : pageCtx s hp fn page = none) : atPage s hp fn page g = discard s hp fn 0x01 := by
  simp [atPage, h, hc]

end

/-- A push that fits the window of a page's context: it is kept where the context is ACTIVE and has room. -/
def pushed (s : Sys) (hp : Nat) (d : Bytes) (x : Ctx) : Ctx :=
  let keep := x.st == .active && decide (x.inl.length < 16) && decide (inlUsed s hp < 256)
  { x with inl := if keep then (x.inl.filter fun e => e.1 != x.tail) ++ [(x.tail, d)] else x.inl, tail := nextSlot x x.tail }

section
variable {f : FuseBank} {s : Sys} {hp fn page c : Nat} (h : fnPresent s hp fn = true) (hc : pageCtx s hp fn page = some c)
include h hc

theorem runSqTailWrite_some (v : Nat) :
    runSqTailWrite f s hp fn page v = modCtx s c fun x => { x with tail := v % 65536 % 2 ^ x.sqLog } := atPage_some h hc

theorem runEqHeadWrite_some (v : Nat) : runEqHeadWrite f s hp fn page v =
    let t := modCtx s c fun x => { x with eqUsed := eqUsedAt x (v % 65536 % 2 ^ x.eqLog), eqHead := v % 65536 % 2 ^ x.eqLog,
                                          armed := x.armed || v.testBit 31 }
    match getCtx t c with
    | some x => if modByCount x || modByTime t x then evInterrupt t c else t
    | none => t := atPage_some h hc

theorem runInlinePush_kept {d : Bytes} (hd : d.length = 64) : runInlinePush f s hp fn page 0x800 d = modCtx s c (pushed s hp d) :=
  (atPage_some h hc).trans ((if_neg (by decide)).trans (if_neg (by simp [hd])))

theorem runInlinePush_discarded {off : Nat} {d : Bytes} (hlo : 0x800 ≤ off) (hhi : off < 0x840) (hd : off ≠ 0x800 ∨ d.length ≠ 64) :
    runInlinePush f s hp fn page off d = discard s hp fn 0x02 :=
  (atPage_some h hc).trans ((if_neg (by omega)).trans (if_pos hd))

theorem runInlinePush_outside {off : Nat} {d : Bytes} (ho : off < 0x800 ∨ 0x840 ≤ off) : runInlinePush f s hp fn page off d = s :=
  (atPage_some h hc).trans (if_pos ho)

end

theorem pageRead_some {s : Sys} {hp fn page c : Nat} {x : Ctx} (hb : bar0Open s hp fn = true) (hc : pageCtx s hp fn page = some c)
    (hx : getCtx s c = some x) (off : Nat) : pageRead s hp fn page off =
      some (if off = 0x080 then x.head % 2 ^ 16
        else if off = 0x0C0 then x.eqTail % 2 ^ 16 + 2 ^ 16 * b2n x.eqPhase + 2 ^ 17 * b2n x.armed else 0) := by
  simp only [pageRead, hb, hc, Option.bind_some, hx, Bool.true_eq_false, if_false]

theorem pageRead_none {s : Sys} {hp fn page : Nat} (hb : bar0Open s hp fn = true) (hc : pageCtx s hp fn page = none) (off : Nat) :
    pageRead s hp fn page off = some 0 := by
  simp only [pageRead, hb, hc, Option.bind_none, Bool.true_eq_false, if_false]

/-- A head register takes a write of a function that is presented and in no reset. -/
theorem headTaken {s : Sys} {hp fn : Nat} (h : fnPresent s hp fn = true) (hf : (getFn s hp fn).flr = none) :
    ¬ (fnPresent s hp fn = false ∨ (getFn s hp fn).flr.isSome = true) := by
  simp [h, hf]

/-! ### Registers written (R6, R40, R43) -/

section
variable {f : FuseBank} {s : Sys} {hp fn : Nat}

theorem barWrite_four (hb : bar0Open s hp fn = true) {off : Nat} (ho : off % 4 = 0) (v : Nat) :
    barWrite f s hp fn off 4 v = regWrite32 f s hp fn off (v % 2 ^ 32) := by
  simp [barWrite, hb, ho]

theorem barWrite_eight (hb : bar0Open s hp fn = true) {off : Nat} (ho : off % 4 = 0) (v : Nat) :
    barWrite f s hp fn off 8 v =
      regWrite32 f (regWrite32 f s hp fn off (v % 2 ^ 32)) hp fn (off + 4) (v / 2 ^ 32 % 2 ^ 32) := by
  simp [barWrite, hb, ho]

theorem barWrite_ignored {off w : Nat} (h : bar0Open s hp fn = false ∨ off % 4 ≠ 0 ∨ (w ≠ 4 ∧ w ≠ 8)) (v : Nat) :
    barWrite f s hp fn off w v = s := by
  unfold barWrite
  rcases h with h | h | ⟨h4, h8⟩
  · exact if_pos (.inl h)
  · exact if_pos (.inr h)
  · simp only [h4, h8, if_false, ite_self]

theorem runRequestBufferWrite_stored {off : Nat} {d : Bytes} (hb : bar0Open s hp fn = true) (hlo : 0x1000 ≤ off) (hhi : off < 0x2000)
    (hc : mbxClosed s hp fn = false) (hh : (getFn s hp fn).mbx.held = false) :
    runRequestBufferWrite f s hp fn off d =
      modMbx s hp fn fun m => { m with reqBuf := Memory.writeAll m.reqBuf (off - 0x1000) (d.take (0x2000 - off)) } :=
  (if_neg (by simp [hb]; omega)).trans (if_neg (by simp [hc, hh]))

theorem runRequestBufferWrite_dropped {off : Nat} {d : Bytes} (hb : bar0Open s hp fn = true) (hlo : 0x1000 ≤ off) (hhi : off < 0x2000)
    (h : mbxClosed s hp fn = true ∨ (getFn s hp fn).mbx.held = true) :
    runRequestBufferWrite f s hp fn off d = modMbx s hp fn fun m => { m with drop := true } :=
  (if_neg (by simp [hb]; omega)).trans (if_pos h)

theorem runMbxDoorbell_go {v : Nat} {mem : List (Nat × Nat)} (hb : bar0Open s hp fn = true) (hv : v.testBit 0 = true) :
    runMbxDoorbell f s hp fn v mem = serveOp f s (bufRequest s hp fn mem).1 (bufRequest s hp fn mem).2 := if_neg (by simp [hb, hv])

theorem runMbxDoorbell_idle {v : Nat} {mem : List (Nat × Nat)} (hv : v.testBit 0 = false) : runMbxDoorbell f s hp fn v mem = s :=
  if_pos (.inr hv)

end

/-- A changed mailbox depends on the mailbox as it is alone. -/
theorem modMbx_congr {s : Sys} {hp fn : Nat} {g h : Mbx → Mbx} (e : g (getFn s hp fn).mbx = h (getFn s hp fn).mbx) :
    modMbx s hp fn g = modMbx s hp fn h := by
  simp only [modMbx, modFn, e]

/-! ### A string in a buffer, byte by byte -/

theorem Memory.read_writeAll_at (d : Bytes) (m : Memory) (a i : Nat) (h : i < d.length) : (m.writeAll a d).read (a + i) = d.getD i 0 := by
  induction d generalizing m a i with
  | nil => exact absurd h (Nat.not_lt_zero i)
  | cons b d ih =>
    cases i with
    | zero =>
      rw [Memory.writeAll, Nat.add_zero a, Memory.read_writeAll_before _ _ _ _ (by omega), Memory.read_write_same]
      rfl
    | succ i =>
      rw [Memory.writeAll, ← Nat.add_assoc, Nat.add_right_comm, ih _ _ _ (Nat.lt_of_succ_lt_succ h)]
      rfl

/-- The bytes of a write that lie in the buffer are stored. -/
theorem Memory.read_writeAll_take (d : Bytes) (m : Memory) {off i : Nat} (hi : i < d.length) (hin : off + i < 0x2000) :
    (m.writeAll (off - 0x1000) (d.take (0x2000 - off))).read (off - 0x1000 + i) = d.getD i 0 := by
  have hlt : i < (d.take (0x2000 - off)).length := by rw [List.length_take]; omega
  rw [Memory.read_writeAll_at _ _ _ _ hlt]
  simp only [List.getD_eq_getElem?_getD, List.getElem?_take]
  rw [if_pos (by omega)]

/-- No other byte changes. -/
theorem Memory.read_writeAll_take_other (d : Bytes) (m : Memory) {off a : Nat} (hlo : 0x1000 ≤ off)
    (ha : a < off - 0x1000 ∨ off - 0x1000 + d.length ≤ a ∨ 0x1000 ≤ a) :
    (m.writeAll (off - 0x1000) (d.take (0x2000 - off))).read a = m.read a := by
  by_cases hb : a < off - 0x1000
  · exact Memory.read_writeAll_before _ _ _ _ hb
  · refine Memory.read_writeAll_after _ _ _ _ ?_
    rw [List.length_take]
    omega

/-! ### What a read of BAR0 answers -/

section
variable {f : FuseBank} {s : Sys} {hp fn : Nat}

theorem barRead_shut (hb : bar0Open s hp fn = false) (off w : Nat) : barRead f s hp fn off w = none := if_pos hb

theorem barRead_word (hb : bar0Open s hp fn = true) {off : Nat} (ho : off % 4 = 0) : barRead f s hp fn off 4 = some (barWord f s hp fn off) := by
  simp [barRead, hb, ho]

theorem barRead_pair (hb : bar0Open s hp fn = true) {off : Nat} (ho : off % 4 = 0) :
    barRead f s hp fn off 8 = some (barWord f s hp fn off + 2 ^ 32 * barWord f s hp fn (off + 4)) := by
  simp [barRead, hb, ho]

theorem barRead_zero (hb : bar0Open s hp fn = true) {off w : Nat} (h : off % 4 ≠ 0 ∨ (w ≠ 4 ∧ w ≠ 8)) : barRead f s hp fn off w = some 0 := by
  rcases h with h | ⟨h4, h8⟩
  · simp [barRead, hb, h]
  · simp [barRead, hb, h4, h8]

theorem barWord_reserved {off : Nat} (hlo : 0x8 < off) (hhi : off < 0x100) : barWord f s hp fn off = 0 := by
  unfold barWord
  simp only
  repeat rw [if_neg (by omega)]

theorem barWord_rspBuf {i : Nat} (hi : i < 0x1000) :
    barWord f s hp fn (0x2000 + i) = num (Memory.readAll (getFn s hp fn).mbx.rspBuf i 4) 0 4 := by
  unfold barWord
  simp only
  repeat rw [if_neg (by omega)]
  rw [if_pos (by omega), Nat.add_sub_cancel_left]

end

/-! ### Configuration fields (R68 to R71, R93) -/

theorem linkCfg_busMaster (v : Nat) (l : HLink) : linkCfg .busMaster v l = l := rfl

theorem modLink_same {s : Sys} {hp : Nat} {b : Bool} {g : HLink → HLink} (h : ∀ l, g l = l) : modLink s hp b g = s := by
  have hid : (fun x : HPort => if b then { x with b := g x.b } else { x with a := g x.a }) = id := by
    funext x
    cases b <;> simp [h]
  rw [modLink, hid, modHp, List.modify_id]

/-- Bus Master Enable written: what waited for it goes out. -/
theorem cfgWrite_busMaster {s : Sys} {hp fn : Nat} (hu : (linkOf s hp fn).up = true) (hc : (linkOf s hp fn).crs = false) (hfn : fn < 64)
    (h : fnPresent s hp fn = true) (hf : (getFn s hp fn).flr = none) (v : Nat) :
    cfgWrite s hp fn .busMaster v = readNext (msixFlush (modFn s hp fn fun g => { g with bme := v.testBit 0 }) hp fn) hp := by
  have hne : fn ≠ 64 := Nat.ne_of_lt hfn
  have hl : getLink s hp (onLinkB s hp fn) = linkOf s hp fn := rfl
  unfold cfgWrite
  simp only [hne, if_false, hl, hu, hc, h, hf, Bool.true_eq_false, Bool.false_eq_true, false_and, or_self, Option.isSome_none, and_false, if_true,
    modLink_same (linkCfg_busMaster v), ite_self]
  rfl

/-- Settles O44: each write and each read in each of its cases. -/
theorem hostWritesThroughTheDoor : Obligations.HostWritesThroughTheDoor := by
  unfold Obligations.HostWritesThroughTheDoor
  intro s hp fn page
  refine ⟨fun h => ⟨fun c hc => ⟨fun v => ?tail, fun v x hx => ?eqHead, fun d hd => ?kept, fun off d hlo hhi hd => ?misshapen,
      fun off d ho => ?outside, fun x hx hb => ⟨?readHead, ?readTail, fun off h80 hC0 => ?readRest⟩⟩, fun hc hb off => pageRead_none hb hc off,
      fun hc => ⟨fun v => ⟨?noTail, ?noHead⟩, fun off d => ?noPush⟩, fun hf v => ⟨?adminHead, ?xfaultHead⟩⟩,
    fun h v off d => ⟨?absentTail, ?absentHead, ?absentPush⟩,
    fun hb => ⟨fun off v ho => ⟨?four, ?eight⟩, fun off w v h => ?otherWidth⟩, fun hb off w v => ⟨?shutWrite, barRead_shut hb off w⟩,
    fun hb => ⟨fun off w h => barRead_zero hb h, fun off ho hlo hhi => ?reserved, barRead_word hb rfl, fun i hi4 hi => ?rspBuf,
      fun off ho => ⟨_, _, barRead_word hb ho, barRead_word hb ?next, barRead_pair hb ho⟩⟩,
    fun r w v => rfl, fun hu hc hfn h hf v => cfgWrite_busMaster hu hc hfn h hf v,
    fun hb off d hlo hhi => ⟨fun hc hh => ⟨?stored, fun i hi hin => ?storedByte, fun a ha => ?otherByte⟩, fun h => ?dropped⟩,
    fun hb v mem => ⟨fun hv => ?doorbell, fun hv => ?noDoorbell⟩, fun i c q hm => exec_mailbox s hm, fun op q h => ?undefined⟩
  case tail => exact exec_run rfl (runSqTailWrite_some h hc v)
  case eqHead =>
    refine exec_run rfl ((runEqHeadWrite_some h hc v).trans ?_)
    simp only [hx]
  case kept => exact exec_run rfl (runInlinePush_kept h hc hd)
  case misshapen => exact exec_run rfl (runInlinePush_discarded h hc hlo hhi hd)
  case outside => exact exec_run rfl (runInlinePush_outside h hc ho)
  case readHead => exact pageRead_some hb hc hx 0x080
  case readTail => exact pageRead_some hb hc hx 0x0C0
  case readRest => exact (pageRead_some hb hc hx off).trans (by rw [if_neg h80, if_neg hC0])
  case noTail => exact exec_run rfl (atPage_none h hc)
  case noHead => exact exec_run rfl (atPage_none h hc)
  case noPush => exact exec_run rfl (atPage_none h hc)
  case adminHead => exact exec_run rfl (if_neg (headTaken h hf))
  case xfaultHead => exact exec_run rfl (if_neg (headTaken h hf))
  case absentTail => exact exec_run rfl (atPage_absent h)
  case absentHead => exact exec_run rfl (atPage_absent h)
  case absentPush => exact exec_run rfl (atPage_absent h)
  case four => exact exec_run rfl (barWrite_four hb ho v)
  case eight => exact exec_run rfl (barWrite_eight hb ho v)
  case otherWidth => exact exec_run rfl (barWrite_ignored (.inr h) v)
  case shutWrite => exact exec_run rfl (barWrite_ignored (.inl hb) v)
  case reserved => exact (barRead_word hb ho).trans (congrArg some (barWord_reserved hlo hhi))
  case rspBuf => exact (barRead_word hb (by omega)).trans (congrArg some (barWord_rspBuf hi))
  case next => omega
  case stored => exact exec_run rfl ((runRequestBufferWrite_stored hb hlo hhi hc hh).trans (modMbx_congr rfl))
  case storedByte => exact Memory.read_writeAll_take d _ hi hin
  case otherByte => exact Memory.read_writeAll_take_other d _ hlo ha
  case dropped => exact exec_run rfl (runRequestBufferWrite_dropped hb hlo hhi h)
  case doorbell => exact exec_run rfl (runMbxDoorbell_go hb hv)
  case noDoorbell => exact exec_run rfl (runMbxDoorbell_idle hv)
  case undefined =>
    refine serveOp_undefined fun hop => ?_
    obtain ⟨i, c, r, hm, he⟩ := exists_row_of_mem_opcodes hop q
    exact h i c r hm he

end Sys2Proof.Machine
end

section
/-! Ring indices, mailbox buffers and sessions within their bounds: each shared operation keeps them there, and so does each row that moves one. -/
namespace Sys2Proof.Machine

/-! ### Rings and mailboxes (R52, R53) -/

theorem EvRing.new_fits {base count vector : Nat} (h : 0 < count) : (EvRing.new base count vector).Fits := ⟨h, Nat.zero_le _⟩

theorem EvRing.push_fits {r : EvRing} (h : r.Fits) : r.push.2.2.2.Fits :=
  ⟨Nat.mod_lt _ (Nat.zero_lt_of_lt h.1), Nat.min_le_left _ _⟩

theorem EvRing.headTo_fits {r : EvRing} (h : r.Fits) (head : Nat) : (r.headTo head).Fits := by
  refine ⟨h.1, ?_⟩
  have hu := h.2
  simp only [EvRing.headTo]
  split_ifs <;> omega

theorem Mbx.reset_fits : Mbx.reset.Fits := by
  simp [Mbx.Fits, Mbx.reset, Memory.wf]

theorem Mbx.answered_fits {m : Mbx} (h : m.Fits) (lt : Nat) (r : Resp) : (m.answered lt r).Fits := by
  obtain ⟨hreq, hrsp, hrest⟩ := h
  exact ⟨hreq, Memory.writeAll_wf _ _ _ hrsp, hrest⟩

section
variable {m : Mbx} (h : m.Fits)
include h

theorem Mbx.adminHead_lt : m.adminHead < 4096 := by
  obtain ⟨-, -, had, -⟩ := h
  exact had

theorem Mbx.admin_ring : ∀ r, m.admin = some r → r.Fits := by
  obtain ⟨-, -, -, -, hadmin, -⟩ := h
  exact hadmin

theorem Mbx.xfault_ring : ∀ r, m.xfault = some r → r.Fits := by
  obtain ⟨-, -, -, -, -, hx⟩ := h
  exact hx

end

/-- A mailbox with another admin ring. -/
theorem Mbx.admin_fits {m : Mbx} (h : m.Fits) {head : Nat} (hh : head < 4096) {a : Option EvRing} (ha : ∀ r, a = some r → r.Fits) :
    { m with adminHead := head, admin := a }.Fits := by
  obtain ⟨hreq, hrsp, -, hxf, -, hx⟩ := h
  exact ⟨hreq, hrsp, hh, hxf, ha, hx⟩

/-- A mailbox with another translation fault ring. -/
theorem Mbx.xfault_fits {m : Mbx} (h : m.Fits) {head : Nat} (hh : head < 4096) {a : Option EvRing} (ha : ∀ r, a = some r → r.Fits) :
    { m with xfHead := head, xfault := a }.Fits := by
  obtain ⟨hreq, hrsp, had, -, hadmin, -⟩ := h
  exact ⟨hreq, hrsp, had, hh, hadmin, ha⟩

/-- A ring whose head is written. -/
theorem headTo_map_fits {a : Option EvRing} (ha : ∀ r, a = some r → r.Fits) (head : Nat) : ∀ r, (a.map fun r => r.headTo head) = some r → r.Fits := by
  intro r hr
  obtain ⟨r', hr', rfl⟩ := Option.map_eq_some_iff.mp hr
  exact EvRing.headTo_fits (ha r' hr') head

/-- A ring as its command sets it, or none. -/
theorem ringSet_fits {none_ : Prop} [Decidable none_] {base count vector : Nat} (h : ¬ none_ → 0 < count) :
    ∀ r, (if none_ then none else some (EvRing.new base count vector)) = some r → r.Fits := by
  intro r hr
  split_ifs at hr with hn
  obtain rfl := Option.some.inj hr
  exact EvRing.new_fits (h hn)

/-! ### The plain updates of the device -/

/-- A function's mailbox depends on the table of functions alone. -/
theorem getFn_mbx_of_fns {s t : Sys} (h : t.fns = s.fns) (hp fn : Nat) : (getFn t hp fn).mbx = (getFn s hp fn).mbx := by
  unfold getFn
  rw [h]
  cases tget s.fns (fnKey hp fn) <;> rfl

/-- What leaves functions, contexts and sessions alone leaves the bounds alone. -/
theorem Fits.of_eq {s t : Sys} (h : Fits s) (hf : t.fns = s.fns) (hc : t.ctxs = s.ctxs) (hs : t.sec.sessions = s.sec.sessions) : Fits t := by
  obtain ⟨hmbx, hctx, hsess⟩ := h
  refine ⟨fun hp fn => ?_, fun c x hx => hctx c x ?_, fun who => ?_⟩
  · rw [getFn_mbx_of_fns hf]
    exact hmbx hp fn
  · rwa [getCtx, hc] at hx
  · rw [hs]
    exact hsess who

theorem foldl_fits {α : Type} {f : Sys → α → Sys} (hf : ∀ s a, Fits s → Fits (f s a)) (l : List α) {s : Sys} (h : Fits s) : Fits (l.foldl f s) := by
  induction l generalizing s with
  | nil => exact h
  | cons a l ih => exact ih (hf s a h)

theorem modFn_fits {s : Sys} {hp fn : Nat} {g : Fn → Fn} (h : Fits s) (hg : ∀ x, x.mbx.Fits → (g x).mbx.Fits) : Fits (modFn s hp fn g) := by
  obtain ⟨hmbx, hctx, hsess⟩ := h
  refine ⟨fun hp' fn' => ?_, hctx, hsess⟩
  by_cases hk : fnKey hp' fn' = fnKey hp fn
  · have he : getFn (modFn s hp fn g) hp' fn' = g (getFn s hp fn) := by simp [getFn, modFn, setFn, hk]
    rw [he]
    exact hg _ (hmbx hp fn)
  · have he : getFn (modFn s hp fn g) hp' fn' = getFn s hp' fn' := getFn_setFn_other _ _ _ _ _ _ hk
    rw [he]
    exact hmbx hp' fn'

theorem modMbx_fits {s : Sys} {hp fn : Nat} {g : Mbx → Mbx} (h : Fits s) (hg : ∀ m, m.Fits → (g m).Fits) : Fits (modMbx s hp fn g) :=
  modFn_fits h fun x => hg x.mbx

theorem modCtx_fits {s : Sys} {c : Nat} {g : Ctx → Ctx} (h : Fits s) (hg : ∀ x, getCtx s c = some x → x.Fits → (g x).Fits) :
    Fits (modCtx s c g) := by
  obtain ⟨hmbx, hctx, hsess⟩ := h
  unfold modCtx
  split
  · exact ⟨hmbx, hctx, hsess⟩
  · next x hx =>
    refine ⟨hmbx, fun c' x' hx' => ?_, hsess⟩
    by_cases hk : c' = c
    · subst hk
      obtain rfl : g x = x' := by simpa [getCtx] using hx'
      exact hg x hx (hctx c' x hx)
    · rw [getCtx, tget_tset_other _ _ _ _ hk] at hx'
      exact hctx c' x' hx'

/-! ### What reaches hosts and endpoints -/

theorem hostWrite_fits {s : Sys} (h : Fits s) (hp fn a : Nat) (d : Bytes) (ro : Bool) (st : Option Nat) : Fits (hostWrite s hp fn a d ro st) := by
  rw [hostWrite_eq]
  exact h.of_eq rfl rfl rfl

theorem msix_fits {s : Sys} (h : Fits s) (hp fn v : Nat) : Fits (msix s hp fn v) := by
  unfold msix
  simp only
  split_ifs
  · exact h
  · exact h.of_eq rfl rfl rfl
  · exact h
  · exact modFn_fits (g := fun g => { g with msixPend := (getFn s hp fn).msixPend ++ [v] }) h fun _ hm => hm

theorem adminFn_fits {s : Sys} (h : Fits s) (hp fn : Nat) (e : AEv) : Fits (adminFn s hp fn e) := by
  unfold adminFn
  split
  · exact h
  · next r hr =>
    have hring : ∀ r', some r.push.2.2.2 = some r' → r'.Fits := fun r' h' => Option.some.inj h' ▸ EvRing.push_fits (Mbx.admin_ring (h.1 hp fn) r hr)
    have hpush : Fits (modMbx s hp fn fun m => { m with admin := some r.push.2.2.2 }) :=
      modMbx_fits h fun m hm => Mbx.admin_fits hm (Mbx.adminHead_lt hm) hring
    simp only
    split_ifs
    · exact msix_fits (hostWrite_fits hpush _ _ _ _ _ _) _ _ _
    · exact hostWrite_fits hpush _ _ _ _ _ _

theorem mctpOut_fits {s : Sys} (h : Fits s) (eid : Nat) (d : Bytes) : Fits (mctpOut s eid d) := by
  unfold mctpOut
  split_ifs
  · exact h.of_eq rfl rfl rfl
  · exact h.of_eq rfl rfl rfl
  · exact h

theorem adminTo_fits {s : Sys} (h : Fits s) (w : Requester) (e : AEv) : Fits (adminTo s w e) := by
  cases w with
  | fn hp fn => exact adminFn_fits h hp fn e
  | mctp eid =>
    simp only [adminTo]
    split_ifs
    · exact mctpOut_fits h _ _
    · exact h

theorem adminAll_fits {s : Sys} (h : Fits s) (e : AEv) : Fits (adminAll s e) := by
  unfold adminAll
  exact foldl_fits (fun t eid ht => adminTo_fits ht (.mctp eid) e) _
    (foldl_fits (f := fun t (g : Nat × Fn) => adminFn t (g.1 / 64) (g.1 % 64) e) (fun t g ht => adminFn_fits ht _ _ e) _ h)

theorem setDev_fits {s : Sys} (h : Fits s) (st : DevState) : Fits (setDev s st) := by
  unfold setDev
  split_ifs
  · exact h
  · refine adminAll_fits ?_ _
    exact h.of_eq rfl rfl rfl

theorem respond_fits {s : Sys} (h : Fits s) (w : Requester) (lt : Nat) (r : Resp) : Fits (respond s w lt r) := by
  cases w with
  | fn hp fn =>
    have hm : Fits (modMbx s hp fn fun m => m.answered lt r) := modMbx_fits h fun m hm => Mbx.answered_fits hm lt r
    rw [respond_def]
    simp only
    split_ifs
    · exact msix_fits hm _ _ _
    · exact hm
  | mctp eid => exact mctpOut_fits h _ _

theorem finishNow_fits {s : Sys} (h : Fits s) (q : MbxReq) (op : Nat) (st : Status) (named : Option Nat) (d : Bytes) (evt : Bool) :
    Fits (finishNow s q op st named d evt) := by
  simp only [finishNow]
  split_ifs
  · exact adminTo_fits (respond_fits h _ _ _) _ _
  · exact adminTo_fits (respond_fits h _ _ _) _ _
  · exact respond_fits h _ _ _
  · exact respond_fits h _ _ _

/-! ### Contexts' rings (R77, R79, R85 to R88) -/

/-- An index taken modulo a ring lies in it. -/
theorem mod_two_pow_lt (v n : Nat) : v % 2 ^ n < 2 ^ n := Nat.mod_lt _ (Nat.two_pow_pos n)

theorem passHead_fits {s : Sys} (h : Fits s) (c n : Nat) : Fits (passHead s c n) :=
  modCtx_fits h fun _ _ ⟨_, htail, hrest⟩ => ⟨mod_two_pow_lt _ _, htail, hrest⟩

theorem evInterrupt_fits {s : Sys} (h : Fits s) (c : Nat) : Fits (evInterrupt s c) := by
  unfold evInterrupt
  split
  · exact h
  · refine msix_fits (modCtx_fits h ?_) _ _ _
    exact fun _ _ hx => hx

theorem evWritten_fits {s : Sys} (h : Fits s) (c : Nat) : Fits (evWritten s c) := by
  unfold evWritten
  split
  · exact h
  · next x hx =>
    have hwritten : Fits (modCtx s c fun y =>
        { y with waitEv := y.waitEv.drop 1, eqTail := (y.eqTail + 1) % 2 ^ x.eqLog,
                 eqPhase := if y.eqTail + 1 = 2 ^ x.eqLog then !y.eqPhase else y.eqPhase,
                 eqUsed := min (2 ^ x.eqLog) (y.eqUsed + 1), unsig := y.unsig ++ [frame s] }) := by
      refine modCtx_fits h fun y hy ⟨hhead, htail, heq, _, _⟩ => ?_
      obtain rfl := Option.some.inj (hx.symm.trans hy)
      exact ⟨hhead, htail, heq, mod_two_pow_lt _ _, Nat.min_le_left _ _⟩
    have hcount := modFn_fits (hp := x.hp) (fn := x.fn) (g := fun g => { g with ctrs := g.ctrs.modify 5 fun v => (v + 1) % 2 ^ 48 }) hwritten
      fun _ hm => hm
    simp only
    split
    · split_ifs
      · exact evInterrupt_fits hcount c
      · exact hcount
    · exact hcount

/-! ### Sessions (R59, R365) -/

theorem touchSession_fits {s : Sys} (h : Fits s) (w : Requester) (token : Nat) : Fits (touchSession s w token) := by
  obtain ⟨hmbx, hctx, hsess⟩ := h
  refine ⟨fun hp fn => hmbx hp fn, hctx, fun who => ?_⟩
  have hwho : (fun x : Session => sameLimit x.who who) ∘
      (fun x => if x.who == w && x.token == token then { x with lastEpoch := epoch s } else x) = fun x => sameLimit x.who who := by
    funext x
    simp only [Function.comp_apply]
    split_ifs <;> rfl
  simp only [touchSession, List.filter_map, List.length_map, hwho]
  exact hsess who

theorem bootWrite_fits {s t : Sys} (h : Fits t) : Fits (bootWrite s t) := by
  unfold bootWrite
  split_ifs
  · exact h
  · exact h.of_eq rfl rfl rfl

theorem abandon_fits {s : Sys} (h : Fits s) : Fits (abandon s) := by
  unfold abandon
  split
  · exact h
  · next l hl =>
    have hboot := bootWrite_fits (s := s) (t := { s with upd := { s.upd with
      lock := none, pulls := [], slots := s.upd.slots.modify l.slot fun x => { x with st := .invalid } } }) (h.of_eq rfl rfl rfl)
    simp only
    split_ifs
    · exact setDev_fits hboot _
    · exact hboot

theorem sessionsOut_fits {s : Sys} (h : Fits s) (which : Session → Bool) (reason : Nat) (quiet : Requester → Bool) :
    Fits (sessionsOut s which reason quiet) := by
  obtain ⟨hmbx, hctx, hsess⟩ := h
  refine foldl_fits (fun t x ht => ?_) _ ⟨fun hp fn => hmbx hp fn, hctx, fun who => ?_⟩
  · split_ifs
    · exact ht
    · exact adminTo_fits ht _ _
  · exact (List.filter_sublist.filter _).length_le.trans (hsess who)

theorem endSessions_fits {s : Sys} (h : Fits s) (which : Session → Bool) (reason : Nat) (quiet : Requester → Bool) :
    Fits (endSessions s which reason quiet) := by
  rcases endSessions_cases s which reason quiet with ⟨-, he⟩ | ⟨-, he⟩ <;> rw [he]
  · exact abandon_fits (sessionsOut_fits h _ _ _)
  · exact sessionsOut_fits h _ _ _

/-- What requesters that count together have in common: a function its place, all endpoints nothing. -/
def limitKey : Requester → Option (Nat × Nat)
  | .fn hp fn => some (hp, fn)
  | .mctp _ => none

theorem sameLimit_iff (a b : Requester) : sameLimit a b = true ↔ limitKey a = limitKey b := by
  cases a <;> cases b <;> simp [sameLimit, limitKey]

/-- Requesters that count together count the same sessions. -/
theorem sameLimit_congr {a b : Requester} (h : sameLimit a b = true) (x : Requester) : sameLimit x a = sameLimit x b := by
  rw [Bool.eq_iff_iff, sameLimit_iff, sameLimit_iff, (sameLimit_iff a b).mp h]

/-- A session opened below its limit keeps every limit. -/
theorem openSession_fits {s : Sys} (h : Fits s) {who : Requester} (c : Challenge)
    (hn : (s.sec.sessions.filter fun x => sameLimit x.who who).length < 4) : Fits (openSession s who c).1 := by
  obtain ⟨hmbx, hctx, hsess⟩ := h
  refine ⟨fun hp fn => hmbx hp fn, hctx, fun who' => ?_⟩
  simp only [openSession, List.filter_append, List.length_append, draw_sec]
  by_cases hw : sameLimit who who' = true
  · simp only [sameLimit_congr hw] at hn
    simp [hw]
    omega
  · simpa [hw] using hsess who'

/-! ### A mailbox command -/

/-- What a body leaves of the device keeps the bounds. -/
def Ans.Fits : Ans → Prop
  | .no _ => True
  | .done y _ => Machine.Fits y
  | .doneAs y _ _ => Machine.Fits y
  | .wait y _ => Machine.Fits y

theorem mbxServe_fits {c : Spec} {b : FuseBank → Sys → MbxReq → Ans} {f : FuseBank} {s : Sys} {q : MbxReq} (h : Fits s)
    (hb : preCheck c f s q = none → (b f (touchSession s q.who q.token) q).Fits) : Fits (mbxServe c b f s q) := by
  have ht := touchSession_fits h q.who q.token
  unfold mbxServe
  cases hp : preCheck c f s q with
  | some e => exact finishNow_fits ht _ _ _ _ _ _
  | none =>
    have hans := hb hp
    cases ha : b f (touchSession s q.who q.token) q with
    | no e => exact finishNow_fits ht _ _ _ _ _ _
    | done y d =>
      rw [ha] at hans
      simp only
      split_ifs
      · exact finishNow_fits ht _ _ _ _ _ _
      · exact finishNow_fits hans _ _ _ _ _ _
      · refine adminTo_fits ?_ _ _
        exact (respond_fits hans _ _ _).of_eq rfl rfl rfl
    | doneAs y e d =>
      rw [ha] at hans
      simp only
      split_ifs
      · exact finishNow_fits ht _ _ _ _ _ _
      · exact finishNow_fits hans _ _ _ _ _ _
      · exact finishNow_fits hans _ _ _ _ _ _
    | wait y w =>
      rw [ha] at hans
      simp only
      split_ifs
      · exact finishNow_fits ht _ _ _ _ _ _
      · exact (respond_fits hans _ _ _).of_eq rfl rfl rfl

theorem reached_fits {s : Sys} (h : Fits s) (q : MbxReq) : Fits (reached s q) := h.of_eq (by simp) (by simp) (by simp)

theorem mbxGate_fits {s : Sys} {op : Nat} {q : MbxReq} {g : Sys → Sys} (h : Fits s) (hg : ∀ x, Fits x → Fits (g x)) : Fits (mbxGate s op q g) := by
  have hx := reached_fits h q
  cases hw : q.who with
  | fn hp fn =>
    simp only [mbxGate, hw]
    split_ifs
    · exact modMbx_fits h fun _ hm => hm
    · refine Fits.of_eq (s := modMbx s hp fn fun m => { m with held := true, accepted := false, rspReady := false }) ?_ rfl rfl rfl
      exact modMbx_fits h fun _ hm => hm
    · exact hg s h
  | mctp e =>
    by_cases hl : q.payload.length ≤ 4080
    · cases ha : arrives s q e with
      | false => rwa [mbxGate_unheard hw (.inr ha)]
      | true =>
        rw [mbxGate_heard hw hl ha]
        simp only
        split_ifs
        · exact hg _ hx
        · exact finishNow_fits hx _ _ _ _ _ _
        · exact hx.of_eq rfl rfl rfl
        · exact hg _ hx
    · rwa [mbxGate_unheard hw (.inl (Nat.not_le.mp hl))]

/-- A request that passes the checks has good parameters. -/
theorem param_of_preCheck {c : Spec} {f : FuseBank} {s : Sys} {q : MbxReq} (h : preCheck c f s q = none) : c.param f s q = true := by
  unfold preCheck at h
  split_ifs at h with hlen hflags hparam
  all_goals exact Bool.not_eq_false _ ▸ hparam

/-- A mailbox command keeps the bounds where its body does, on a request that has passed the checks. -/
theorem mbxThen_fits {c : Spec} {b : FuseBank → Sys → MbxReq → Ans} {a : Sys → Sys} {f : FuseBank} {s : Sys} {q : MbxReq} (h : Fits s)
    (ha : ∀ x, Fits x → Fits (a x)) (hb : ∀ x y, c.param f x q = true → Fits y → (b f y q).Fits) : Fits (mbxThen c b a f s q) :=
  mbxGate_fits h fun x hx => ha _ (mbxServe_fits hx fun hp => hb x _ (param_of_preCheck hp) (touchSession_fits hx _ _))

theorem mbxRun_fits {c : Spec} {b : FuseBank → Sys → MbxReq → Ans} {f : FuseBank} {s : Sys} {q : MbxReq} (h : Fits s)
    (hb : ∀ x y, c.param f x q = true → Fits y → (b f y q).Fits) : Fits (mbxRun c b f s q) := mbxThen_fits (a := fun x => x) h (fun _ hx => hx) hb

theorem ringCount_pos {n hi : Nat} (h : pow2In n 64 hi = true) : 0 < n := by
  simp only [pow2In, Bool.and_eq_true, decide_eq_true_eq] at h
  omega

theorem bodyAdminRingSet_fits {f : FuseBank} {y : Sys} {q : MbxReq} (h : Fits y) (hok : adminRingOk q = true) :
    (bodyAdminRingSet f y q).Fits := by
  cases hw : q.who with
  | fn hp fn =>
    have hcount : ¬ num q.payload 0 8 = 0 → 0 < num q.payload 8 2 := by
      intro hne
      simp only [adminRingOk, hw, Bool.and_eq_true, Bool.or_eq_true, beq_iff_eq, hne, false_or] at hok
      obtain ⟨-, -, hcount⟩ := hok
      exact ringCount_pos hcount
    rw [bodyAdminRingSet_fn hw]
    exact modMbx_fits h fun m hm => Mbx.admin_fits hm (by decide) (ringSet_fits hcount)
  | mctp e =>
    rw [bodyAdminRingSet_mctp hw]
    exact h.of_eq rfl rfl rfl

theorem bodyXlatFaultRingSet_fits {f : FuseBank} {x y : Sys} {q : MbxReq} (h : Fits y) (hok : specXlatFaultRingSet.param f x q = true) :
    (bodyXlatFaultRingSet f y q).Fits := by
  cases hw : q.who with
  | fn hp fn =>
    have hcount : ¬ num q.payload 0 8 = 0 → 0 < num q.payload 8 2 := by
      intro hne
      simp only [specXlatFaultRingSet, Spec.fast, Bool.and_eq_true, Bool.or_eq_true, beq_iff_eq, hne, false_or] at hok
      obtain ⟨-, -, hcount⟩ := hok
      exact ringCount_pos hcount
    rw [bodyXlatFaultRingSet_fn hw]
    exact modMbx_fits h fun m hm => Mbx.xfault_fits hm (by decide) (ringSet_fits hcount)
  | mctp e =>
    simp only [bodyXlatFaultRingSet, hw]
    trivial

theorem bodySessionOpen_fits {f : FuseBank} {y : Sys} {q : MbxReq} (h : Fits y) : (bodySessionOpen f y q).Fits := by
  by_cases hl : hasSessions f y
  · rw [bodySessionOpen_plain hl]
    split_ifs
    · trivial
    · exact h.of_eq rfl rfl rfl
  · rw [bodySessionOpen_none hl]
    trivial

theorem bodySessionProve_fits {f : FuseBank} {y : Sys} {q : MbxReq} (h : Fits y) : (bodySessionProve f y q).Fits := by
  cases hc : y.sec.chals.find? fun c => c.who == q.who && c.slot == num q.payload 0 1 with
  | none =>
    rw [bodySessionProve_closed hc]
    trivial
  | some c =>
    have hgood : Fits (modKey y c.slot fun x => { x with fails := 0, until_ := 0 }) := h.of_eq rfl rfl rfl
    cases hk : proofOk f y q c with
    | false =>
      rw [bodySessionProve_wrong hc hk]
      exact h.of_eq rfl rfl rfl
    | true =>
      rw [bodySessionProve_right hc hk]
      simp only
      split_ifs with hn
      · exact hgood
      · exact openSession_fits hgood c (Nat.not_le.mp hn)

/-! ### Doorbell pages and registers (R40, R43, R75 to R78) -/

theorem discard_fits {s : Sys} (h : Fits s) (hp fn ev : Nat) : Fits (discard s hp fn ev) :=
  modFn_fits (s := count s (64 + hp) ev 1 (fnFilter fn)) (h.of_eq rfl rfl rfl) fun _ hm => hm

theorem atPage_fits {s : Sys} {hp fn page : Nat} {g : Nat → Sys} (h : Fits s) (hg : ∀ c, Fits (g c)) : Fits (atPage s hp fn page g) := by
  unfold atPage
  split_ifs
  · exact h
  · split
    · exact hg _
    · exact discard_fits h _ _ _

theorem eqUsedAt_le (x : Ctx) (head : Nat) : eqUsedAt x head ≤ 2 ^ x.eqLog := by
  have hlt := mod_two_pow_lt (x.eqTail + 2 ^ x.eqLog - head) x.eqLog
  simp only [eqUsedAt]
  split_ifs <;> omega

section
variable {f : FuseBank} {s : Sys} (h : Fits s) (hp fn : Nat)
include h

theorem runSqTailWrite_fits (page v : Nat) : Fits (runSqTailWrite f s hp fn page v) :=
  atPage_fits h fun _ => modCtx_fits h fun _ _ ⟨hhead, _, hrest⟩ => ⟨hhead, mod_two_pow_lt _ _, hrest⟩

theorem runEqHeadWrite_fits (page v : Nat) : Fits (runEqHeadWrite f s hp fn page v) := by
  refine atPage_fits h fun c => ?_
  have ht : Fits (modCtx s c fun x => { x with eqUsed := eqUsedAt x (v % 65536 % 2 ^ x.eqLog), eqHead := v % 65536 % 2 ^ x.eqLog,
                                               armed := x.armed || v.testBit 31 }) :=
    modCtx_fits h fun x _ ⟨hhead, htail, _, heq, _⟩ => ⟨hhead, htail, mod_two_pow_lt _ _, heq, eqUsedAt_le x _⟩
  simp only
  split
  · split_ifs
    · exact evInterrupt_fits ht c
    · exact ht
  · exact ht

theorem runInlinePush_fits (page off : Nat) (d : Bytes) : Fits (runInlinePush f s hp fn page off d) := by
  refine atPage_fits h fun c => ?_
  split_ifs
  · exact h
  · exact discard_fits h _ _ _
  · exact modCtx_fits h fun _ _ ⟨hhead, _, hrest⟩ => ⟨hhead, mod_two_pow_lt _ _, hrest⟩

theorem runAdminHeadWrite_fits (v : Nat) : Fits (runAdminHeadWrite f s hp fn v) := by
  unfold runAdminHeadWrite
  split_ifs
  · exact h
  · exact modMbx_fits h fun m hm => Mbx.admin_fits hm (Nat.mod_lt _ (by decide)) (headTo_map_fits (Mbx.admin_ring hm) _)

theorem runXfaultHeadWrite_fits (v : Nat) : Fits (runXfaultHeadWrite f s hp fn v) := by
  unfold runXfaultHeadWrite
  split_ifs
  · exact h
  · exact modMbx_fits h fun m hm => Mbx.xfault_fits hm (Nat.mod_lt _ (by decide)) (headTo_map_fits (Mbx.xfault_ring hm) _)

theorem runRequestBufferWrite_fits (off : Nat) (d : Bytes) : Fits (runRequestBufferWrite f s hp fn off d) := by
  unfold runRequestBufferWrite
  split_ifs
  · exact h
  · exact modMbx_fits h fun _ hm => hm
  · exact modMbx_fits h fun m ⟨hreq, hrest⟩ => ⟨Memory.writeAll_wf _ _ _ hreq, hrest⟩

/-- A register other than the doorbell of the mailbox. -/
theorem regWrite32_fits {off : Nat} (ho : off ≠ 0x10) (v : Nat) : Fits (regWrite32 f s hp fn off v) := by
  unfold regWrite32
  split_ifs
  · exact modMbx_fits h fun _ hm => hm
  · exact runAdminHeadWrite_fits h hp fn v
  · exact runXfaultHeadWrite_fits h hp fn v
  · exact runRequestBufferWrite_fits h hp fn off _
  · exact h.of_eq rfl rfl rfl
  · exact h
  · exact modFn_fits h fun _ hm => hm
  · exact h

theorem barWrite_fits {off w : Nat} (ho : (off != 0x10 && !(w == 8 && off == 0xC)) = true) (v : Nat) : Fits (barWrite f s hp fn off w v) := by
  simp only [Bool.and_eq_true, bne_iff_ne, Bool.not_eq_true', Bool.and_eq_false_iff, beq_eq_false_iff_ne] at ho
  obtain ⟨hbell, hwide⟩ := ho
  unfold barWrite
  split_ifs
  · exact h
  · exact regWrite32_fits h hp fn hbell _
  · exact regWrite32_fits (regWrite32_fits h hp fn hbell _) hp fn (by omega) _
  · exact h

end

/-! ### The rows -/

/-- A row whose next device is known. -/
theorem fits_of_exec {i : Instr} {s t : State} {y : Sys} (hx : exec i s = .next (s.at y)) (h : exec i s = .next t) (hy : Fits y) : Fits t.sys := by
  obtain rfl := Host.Outcome.next.inj (hx.symm.trans h)
  exact hy

set_option maxRecDepth 20000 in
/-- Each row that moves an index, writes a buffer, sets a ring, or opens or ends sessions keeps the bounds. -/
theorem exec_fits {c : Instr} {s t : State} (hm : movesBounds c = true) (hx : exec c s = .next t) (h : Fits s.sys) : Fits t.sys := by
  unfold movesBounds at hm
  split at hm
  case h_1 => exact fits_of_exec rfl hx (runSqTailWrite_fits h _ _ _ _)
  case h_2 => exact fits_of_exec rfl hx (runEqHeadWrite_fits h _ _ _ _)
  case h_3 => exact fits_of_exec rfl hx (runInlinePush_fits h _ _ _ _ _)
  case h_4 => exact fits_of_exec rfl hx (runAdminHeadWrite_fits h _ _ _)
  case h_5 => exact fits_of_exec rfl hx (runXfaultHeadWrite_fits h _ _ _)
  case h_6 => exact fits_of_exec rfl hx (runRequestBufferWrite_fits h _ _ _ _)
  case h_7 => exact fits_of_exec rfl hx (mbxRun_fits h fun _ _ hok hy => bodyAdminRingSet_fits hy hok)
  case h_8 => exact fits_of_exec rfl hx (mbxRun_fits h fun _ _ hok hy => bodyXlatFaultRingSet_fits hy hok)
  case h_9 => exact fits_of_exec rfl hx (mbxRun_fits (b := bodyIdentify) h fun _ _ _ hy => hy)
  case h_10 => exact fits_of_exec rfl hx (mbxRun_fits (b := bodyGetState) h fun _ _ _ hy => hy)
  case h_11 => exact fits_of_exec rfl hx (mbxRun_fits h fun _ _ _ hy => bodySessionOpen_fits hy)
  case h_12 =>
    exact fits_of_exec (execSessionProve_eq s _) hx
      (mbxThen_fits h (fun _ hy => hy.of_eq rfl rfl rfl) fun _ _ _ hy => bodySessionProve_fits hy)
  case h_13 => exact fits_of_exec rfl hx (mbxRun_fits (b := bodySessionClose) h fun _ _ _ hy => endSessions_fits hy _ _ _)
  case h_14 => exact fits_of_exec rfl hx (endSessions_fits h _ _ _)
  case h_15 who => exact fits_of_exec (y := runChallengeExpiry s.fuse s.sys who) rfl hx (h.of_eq rfl rfl rfl)
  case h_16 who => exact fits_of_exec (y := runAttestReportExpiry s.fuse s.sys who) rfl hx (h.of_eq rfl rfl rfl)
  case h_17 => exact fits_of_exec rfl hx (barWrite_fits h _ _ hm _)
  case h_18 => exact nomatch hm

/-- Settles O59: the rows, the shared operations, and the rings themselves. -/
theorem indicesBuffersAndSessionsStayInBounds : Obligations.IndicesBuffersAndSessionsStayInBounds := by
  unfold Obligations.IndicesBuffersAndSessionsStayInBounds
  refine ⟨fun s t c rest hq hm hstep h => ?rows, fun y h => ⟨respond_fits h, adminTo_fits h, msix_fits h, passHead_fits h, evWritten_fits h,
    evInterrupt_fits h, touchSession_fits h, endSessions_fits h, fun who c hn => openSession_fits h c hn⟩,
    fun r h => ⟨EvRing.push_fits h, EvRing.headTo_fits h⟩⟩
  case rows =>
    rw [step_cons s c rest hq] at hstep
    exact exec_fits hm hstep h

end Sys2Proof.Machine
end

section
/-! Settings of contexts, functions and the transport (Chapters 4 to 7): what each command's body answers in each of its cases. -/
namespace Sys2Proof.Machine

/-! ### Moderation, scheduling and quotas (R89, R92, R100) -/

theorem bodyCtxModerate_some {f : FuseBank} {y : Sys} {q : MbxReq} {x : Ctx} (hx : getCtx y (arg0 q.payload) = some x) :
    bodyCtxModerate f y q = .done (modCtx y (arg0 q.payload) fun x =>
      { x with modPend := some (num q.payload 2 2, num q.payload 4 2, num q.payload 6 2) }) [] := by
  simp only [bodyCtxModerate, hx]

theorem bodyCtxModerate_none {f : FuseBank} {y : Sys} {q : MbxReq} (hx : getCtx y (arg0 q.payload) = none) :
    bodyCtxModerate f y q = .no .stateConflict := by
  simp only [bodyCtxModerate, hx]

theorem bodyCtxSched_some {f : FuseBank} {y : Sys} {q : MbxReq} {x : Ctx} (hx : getCtx y (arg0 q.payload) = some x) :
    bodyCtxSched f y q = .done (modCtx y (arg0 q.payload) fun x =>
      { x with weightPend := some (num q.payload 2 1),
               shaper := { x.shaper with pend := some (num q.payload 4 4, num q.payload 8 4) } }) [] := by
  simp only [bodyCtxSched, hx]

theorem bodyCtxSched_none {f : FuseBank} {y : Sys} {q : MbxReq} (hx : getCtx y (arg0 q.payload) = none) :
    bodyCtxSched f y q = .no .stateConflict := by
  simp only [bodyCtxSched, hx]

/-! ### Matching settings (R181) -/

/-- An ME_CTX_CONFIG that moves a context's overflow area. -/
abbrev movesOverflow (b : Bytes) (x : Ctx) : Prop := num b 16 8 ≠ x.ovfBase ∨ num b 24 4 ≠ x.ovfPages

/-- What the context holds finds room in the new limits, and an area in use stays where it is. -/
def matchRoom (b : Bytes) (y : Sys) (x : Ctx) : Prop :=
  x.posted.length ≤ num b 8 2 ∧ (unexpOf y (arg0 b)).length ≤ num b 10 2 ∧ (movesOverflow b x → ovfUsed x = 0)

section
variable {f : FuseBank} {y : Sys} {q : MbxReq} {x : Ctx} (hx : getCtx y (arg0 q.payload) = some x)
include hx

theorem bodyMeCtxConfig_room (hr : matchRoom q.payload y x) :
    bodyMeCtxConfig f y q = .done (modCtx y (arg0 q.payload) fun z =>
      { z with eager := num q.payload 4 4, postedMax := num q.payload 8 2, unexpMax := num q.payload 10 2, onchip := num q.payload 12 4,
               ovfBase := num q.payload 16 8, ovfPages := num q.payload 24 4,
               ovfNext := if movesOverflow q.payload x then 0 else z.ovfNext }) [] := by
  obtain ⟨hp, hu, ho⟩ := hr
  have hno : ¬ (num q.payload 8 2 < x.posted.length ∨ num q.payload 10 2 < (unexpOf y (arg0 q.payload)).length ∨
      (movesOverflow q.payload x ∧ ovfUsed x ≠ 0)) := by
    rintro (h | h | ⟨hm, h⟩)
    · omega
    · omega
    · exact h (ho hm)
  simpa only [bodyMeCtxConfig, hx, Bool.or_eq_true, bne_iff_ne] using if_neg hno

theorem bodyMeCtxConfig_noRoom (hr : ¬ matchRoom q.payload y x) : bodyMeCtxConfig f y q = .no .stateConflict := by
  have hno : num q.payload 8 2 < x.posted.length ∨ num q.payload 10 2 < (unexpOf y (arg0 q.payload)).length ∨
      (movesOverflow q.payload x ∧ ovfUsed x ≠ 0) := by
    by_contra h
    simp only [not_or, not_and, Nat.not_lt, ne_eq, not_not] at h
    exact hr h
  simpa only [bodyMeCtxConfig, hx, Bool.or_eq_true, bne_iff_ne] using if_pos hno

end

theorem bodyMeCtxConfig_none {f : FuseBank} {y : Sys} {q : MbxReq} (hx : getCtx y (arg0 q.payload) = none) :
    bodyMeCtxConfig f y q = .no .stateConflict := by
  simp only [bodyMeCtxConfig, hx]

/-- Settles O16: each body in each of its cases; FN_SHAPE and TE_CONFIG store their values whatever the state. -/
theorem contextSettingsAreStored : Obligations.ContextSettingsAreStored := by
  unfold Obligations.ContextSettingsAreStored
  intro s q
  refine ⟨fun h => ⟨fun x hx => ?moderate, fun hx => ?moderateFree⟩, fun h => ⟨fun x hx => ?sched, fun hx => ?schedFree⟩,
    fun h => run_done rfl rfl h rfl, fun h => ⟨fun hq => ?quota, fun hq => ?quotaBelow⟩,
    fun h x hx => ⟨fun hk => ?matching, fun hk => ?matchingBelow⟩, fun h hx => ?matchingFree, fun h => run_done rfl rfl h rfl⟩
  case moderate => exact run_done rfl rfl h (bodyCtxModerate_some hx)
  case moderateFree => exact run_no rfl h (bodyCtxModerate_none hx)
  case sched => exact run_done rfl rfl h (bodyCtxSched_some hx)
  case schedFree => exact run_no rfl h (bodyCtxSched_none hx)
  case quota => exact run_done rfl rfl h (if_neg hq)
  case quotaBelow => exact run_no rfl h (if_pos hq)
  case matching => exact run_done rfl rfl h (bodyMeCtxConfig_room hx hk)
  case matchingBelow => exact run_no rfl h (bodyMeCtxConfig_noRoom hx hk)
  case matchingFree => exact run_no rfl h (bodyMeCtxConfig_none hx)

end Sys2Proof.Machine
end

section
/-! The descriptors of a context's ring (Chapter 4): what is fetched next, and what each descriptor that may start does. -/
namespace Sys2Proof.Machine

/-! ### Operations toward another endpoint (R84, R134 to R137, R158) -/

/-- The event of an operation that finds no way to its target (R258, R452). -/
def noRouteEvent (c opc : Nat) (p : PDesc) : Ev :=
  { plainEvent c p.d 8 with w16 := if opc = 0x10 then (plainEvent c p.d 8).w16 else p.roff,
                            w28 := evW28 false none (if opc = 0x10 then none else p.member.map (·.2)) }

theorem startOp_waits {s : Sys} {c opc : Nat} (h : canStart s c opc = none) : startOp s c opc = s := by
  simp only [startOp, h]

section
variable {s : Sys} {c opc : Nat} {x : Ctx} {p : PDesc} (h : canStart s c opc = some (x, p))
include h

theorem startOp_routed {f coord : Nat} (hf : (getHp (popDesc s c) x.hp).ownFeid = some f)
    (hc : epCoord (popDesc s c).rt.act p.dfeid = some coord) (hr : hasRoute (popDesc s c) x.hp p.dfeid coord = true) :
    startOp s c opc = { popDesc s c with te := { (popDesc s c).te with
      nextOp := (popDesc s c).te.nextOp + 1, ops := (popDesc s c).te.ops ++ [opOf (popDesc s c) c x p coord] } } := by
  simp only [startOp, h, hf, hc, hr, if_true]

/-- Only SEND, whose opcode is not among 1 to 6, shows its match bits in place of the remote address. -/
theorem startOp_noRoute (ho : (1 ≤ opc ∧ opc ≤ 6) ∨ opc = 0x10)
    (hn : (getHp (popDesc s c) x.hp).ownFeid = none ∨ epCoord (popDesc s c).rt.act p.dfeid = none ∨
      ∃ coord, epCoord (popDesc s c).rt.act p.dfeid = some coord ∧ hasRoute (popDesc s c) x.hp p.dfeid coord = false) :
    startOp s c opc = endDesc (popDesc s c) c p.seq p.d.event (noRouteEvent c opc p) := by
  have hw : (if 1 ≤ opc ∧ opc ≤ 6 then p.roff else (plainEvent c p.d 8).w16) =
      if opc = 0x10 then (plainEvent c p.d 8).w16 else p.roff := by
    rcases ho with ho | rfl
    · rw [if_pos ho, if_neg (by omega)]
    · rfl
  simp only [startOp, h, hw]
  rcases hn with hf | hc | ⟨coord, hc, hr⟩
  · rw [hf]; rfl
  · rw [hc]
    cases (getHp (popDesc s c) x.hp).ownFeid <;> rfl
  · rw [hc]
    cases (getHp (popDesc s c) x.hp).ownFeid
    · rfl
    · exact if_neg (Bool.eq_false_iff.mp hr)

end

/-! ### Receives, fences and the ring's invalidation (R123, R160, R166, R177) -/

theorem startRecv_waits {s : Sys} {c : Nat} (h : canStart s c 0x12 = none) : startRecv s c = s := by
  simp only [startRecv, h]

theorem startCancel_waits {s : Sys} {c : Nat} (h : canStart s c 0x13 = none) : startCancel s c = s := by
  simp only [startCancel, h]

theorem startCol_waits {s : Sys} {c : Nat} (h : canStart s c 0x20 = none) : startCol s c = s := by
  simp only [startCol, h]

theorem startFence_waits {s : Sys} {c : Nat} (h : canStart s c 0x3F = none) : startFence s c = s := by
  simp only [startFence, h]

theorem startInval_waits {s : Sys} {c : Nat} (h : canStart s c 0x40 = none) : startInval s c = s := by
  simp only [startInval, h]

section
variable {s : Sys} {c : Nat} {x : Ctx} {p : PDesc}

theorem startRecv_posted {t : Sys} (h : canStart s c 0x12 = some (x, p)) (hp : post (popDesc s c) c (recvOf p) = some t) :
    startRecv s c = t := by
  simp only [startRecv, h, hp]

theorem startRecv_deferred (h : canStart s c 0x12 = some (x, p)) (hp : post (popDesc s c) c (recvOf p) = none) :
    startRecv s c =
      count (modCtx (popDesc s c) c fun z => { z with deferred := z.deferred ++ [recvOf p] }) (68 + c % 16) 0x04 1 := by
  simp only [startRecv, h, hp]

/-- The end of a RECV_CANCEL that found `n` receives. -/
def cancelEnd (s : Sys) (c : Nat) (p : PDesc) (n : Nat) : Sys :=
  endDesc s c p.seq p.d.event { Ev.zero c with type := 0x13, cookie := p.d.cookie, len := n }

theorem startCancel_hit {r : Recv} (h : canStart s c 0x13 = some (x, p)) (hr : (x.posted.find? fun r => r.cookie == p.d.w16) = some r) :
    startCancel s c = cancelEnd (endDesc (unpost (popDesc s c) c r) c r.seq r.event
      { Ev.zero c with type := 0x12, status := 9, cookie := r.cookie, w16 := r.mtch }) c p 1 := by
  simp only [startCancel, h, hr]
  rfl

theorem startCancel_miss (h : canStart s c 0x13 = some (x, p)) (hr : (x.posted.find? fun r => r.cookie == p.d.w16) = none) :
    startCancel s c = cancelEnd (popDesc s c) c p 0 := by
  simp only [startCancel, h, hr]
  rfl

theorem startCol_starts (h : canStart s c 0x20 = some (x, p)) : startCol s c = (colStart (popDesc s c) c p.seq p.d).getD s := by
  simp only [startCol, h]

theorem startFence_starts (h : canStart s c 0x3F = some (x, p)) : startFence s c =
    endDesc (popDesc s c) c p.seq p.d.event { Ev.zero c with type := 0x3F, cookie := p.d.cookie } := by
  simp only [startFence, h]

theorem startInval_starts (h : canStart s c 0x40 = some (x, p)) : startInval s c =
    let t := popDesc s c
    let lo := if p.d.w24 = 0 then 0 else p.d.w16 / 4096 * 4096
    let hi := if p.d.w24 = 0 then 2 ^ 64 else lo + 4096 * p.d.w24
    modCtx (invalRange t x.pd lo hi) c fun z => { z with ringInval := some (p, invalWaits t fun a => usesRange t a x.pd lo hi) } := by
  simp only [startInval, h]

end

/-! ### Entering a collective (R195 to R197, R452) -/

/-- The operation that a COL_START makes for a member. -/
def colOpOf (c seq : Nat) (d : Desc) (k : Comm) (m : ColMember) : ColOp :=
  let o : ColOp :=
    { ctx := c, seq, event := d.flags.testBit 0, cookie := d.cookie, cseq := m.nextCseq, saddr := d.w16, raddr := d.w24, count := d.w36,
      cop := d.w40 % 8, rop := bits d.w40 8 4, etype := bits d.w40 12 4, mode := bits d.w40 16 2, root := bits d.w40 32 32,
      readX := 0, read := 0, empty := false, done := false, pend := 0, wrote := 0, want := 0, recs := [] }
  { o with want := writeElems k o m.rank * elemSize o.etype }

/-- A collective that its codes, its communicator or its lengths forbid (R195, R196). -/
abbrev colBad (d : Desc) (k : Comm) (m : ColMember) (o : ColOp) : Prop :=
  colCodesOk d = false ∨ k.st = .joining ∨ ((o.cop = 1 ∨ o.cop = 2) ∧ k.n ≤ o.root) ∨
    2 ^ 32 ≤ readElems k o m.rank * elemSize o.etype ∨ 2 ^ 32 ≤ o.want ∨ 2 ^ 32 ≤ upLen k o m.rank ∨
    2 ^ 32 ≤ expoLen k o m.rank ∨ 2 ^ 32 ≤ downElems k o.cop o.count * elemSize o.etype

/-- A COL_START that ends at once with a status. -/
def colRefused (s : Sys) (c seq : Nat) (d : Desc) (st origin : Nat) : Sys :=
  endDesc s c seq (d.flags.testBit 0) { Ev.zero c with type := 0x20, status := st, cookie := d.cookie, w16 := 2 ^ 32 * origin }

/-- The communicator with a further operation, and its member with the next number. -/
def colEntered (s : Sys) (c : Nat) (d : Desc) (o : ColOp) : Sys :=
  modComm (modColMember (modComm s d.dctx fun k => { k with ops := k.ops ++ [o] }) d.dctx c fun x =>
    { x with nextCseq := (x.nextCseq + 1) % 2 ^ 32 }) d.dctx fun k => { k with early := k.early.filter fun p => colLate k p }

theorem colStart_stranger {s : Sys} {c seq : Nat} {d : Desc} (hm : memberOf s d.dctx c = none) :
    colStart s c seq d = some (colRefused s c seq d 4 0) := by
  simp only [colStart, hm]
  rfl

/-- What a member's COL_START does, its conditions in the order in which they are looked at. -/
theorem colStart_member {s : Sys} {c seq : Nat} {d : Desc} {k : Comm} {m : ColMember} (hm : memberOf s d.dctx c = some (k, m)) :
    colStart s c seq d =
      let o := colOpOf c seq d k m
      if colBad d k m o then some (colRefused s c seq d 4 0)
      else if k.st = .failed then some (colRefused s c seq d 2 k.origin)
      else if hasFeid s c = false then some (colRefused s c seq d 8 0)
      else if colFull k m = true then none
      else some ((k.early.filter fun p => p.w56 % 65536 == o.cseq % 65536).foldl (fun s p => downFor s d.dctx p m) (colEntered s c d o)) := by
  simp only [colStart, hm]
  refine if_congr ?_ rfl rfl
  simp only [colBad, colOpOf, Bool.or_eq_true, decide_eq_true_eq, or_assoc]

section
variable {s : Sys} {c seq : Nat} {d : Desc} {k : Comm} {m : ColMember} (hm : memberOf s d.dctx c = some (k, m))
include hm

theorem colStart_bad (hb : colBad d k m (colOpOf c seq d k m)) : colStart s c seq d = some (colRefused s c seq d 4 0) :=
  (colStart_member hm).trans (if_pos hb)

variable (hb : ¬ colBad d k m (colOpOf c seq d k m))
include hb

theorem colStart_failed (hf : k.st = .failed) : colStart s c seq d = some (colRefused s c seq d 2 k.origin) :=
  (colStart_member hm).trans ((if_neg hb).trans (if_pos hf))

theorem colStart_noFeid (hf : k.st ≠ .failed) (hn : hasFeid s c = false) : colStart s c seq d = some (colRefused s c seq d 8 0) :=
  (colStart_member hm).trans ((if_neg hb).trans ((if_neg hf).trans (if_pos hn)))

theorem colStart_notFailed (hf : k.st ≠ .failed) (hn : hasFeid s c = true) : colStart s c seq d =
    if colFull k m = true then none
    else some ((k.early.filter fun p => p.w56 % 65536 == (colOpOf c seq d k m).cseq % 65536).foldl (fun s p => downFor s d.dctx p m)
      (colEntered s c d (colOpOf c seq d k m))) :=
  (colStart_member hm).trans ((if_neg hb).trans ((if_neg hf).trans (if_neg (ne_false_of_eq_true hn))))

theorem colStart_entered (hf : k.st ≠ .failed) (hn : hasFeid s c = true) (hfull : colFull k m = false) (he : k.early = []) :
    colStart s c seq d = some (colEntered s c d (colOpOf c seq d k m)) := by
  rw [colStart_notFailed hm hb hf hn, if_neg (Bool.eq_false_iff.mp hfull), he]
  rfl

end

/-! ### Fetching (R78, R79) -/

section
variable {s : Sys} {c : Nat} {x : Ctx} (hx : getCtx s c = some x) (hst : x.st = .active) (hs : fetching s = true) (hf : x.fetching = false)
  (hd : x.deferred = []) (hh : colHeld s c x = false) (ht : x.head ≠ x.tail)
include hx hst hs hf hd hh ht

theorem fetchNext_pushed {e : Nat × Bytes} (he : (x.inl.find? fun e => e.1 == x.head) = some e) :
    fetchNext s c = takeDesc (passHead (modCtx s c fun z => { z with inl := z.inl.erase e }) c 1) c e.2 := by
  simp only [fetchNext, hx, hst, hs, hf, hd, hh, ht, he, ne_eq, not_true_eq_false, Bool.false_eq_true, reduceCtorEq, or_self, if_false]

theorem fetchNext_read (he : (x.inl.find? fun e => e.1 == x.head) = none) :
    fetchNext s c = startAcc (modCtx s c fun z => { z with fetching := true }) c .fetch ((x.sqBase + 64 * x.head) % 2 ^ 64)
      (64 * fetchRun x 8 x.head) [] 0 (.fetchDesc x.head (fetchRun x 8 x.head)) none := by
  simp only [fetchNext, hx, hst, hs, hf, hd, hh, ht, he, ne_eq, not_true_eq_false, Bool.false_eq_true, reduceCtorEq, or_self, if_false]

end

/-- A row whose work is settled. -/
theorem exec_settle {i : Instr} {s : State} {x y : Sys} (h : exec i s = .next (s.at (settle x))) (hx : x = y) :
    exec i s = .next (s.at (settle y)) := exec_run h (congrArg settle hx)

/-- Settles O45: seven rows start an operation in one way, each of the others in its own; none of them does anything before its descriptor may
    start. -/
theorem descriptorsAreCarriedOut : Obligations.DescriptorsAreCarriedOut := by
  unfold Obligations.DescriptorsAreCarriedOut
  intro s c y start
  have starts : ∀ i opc, exec i s = .next (s.at (settle (startOp y c opc))) → (1 ≤ opc ∧ opc ≤ 6) ∨ opc = 0x10 → start i opc :=
    fun i opc hi ho =>
      ⟨fun x p h => ⟨fun f coord hf hc hr => exec_settle hi (startOp_routed h hf hc hr), fun hn => exec_settle hi (startOp_noRoute h ho hn)⟩,
        fun h => exec_settle hi (startOp_waits h)⟩
  refine ⟨starts _ 1 rfl (by decide), starts _ 2 rfl (by decide), starts _ 3 rfl (by decide), starts _ 4 rfl (by decide),
    starts _ 5 rfl (by decide), starts _ 6 rfl (by decide), starts _ 0x10 rfl (by decide),
    fun x p h => ⟨fun u hu => ?posted, fun hn => ?deferred⟩, fun x p h => ⟨fun r hr => ?cancelled, fun hr => ?noneToCancel⟩,
    fun x p h => ?colStart, fun i opc hi h => ?waits,
    fun t seq d => ⟨fun hm => ?stranger, fun k m hm => ⟨fun hb => ?colBad, fun hb hf => ?colFailed, fun hb hf hn => ?colNoFeid,
      fun hb hf hn hfull => ?colFull, fun hb hf hn hfull he => ?colEntered⟩⟩,
    fun x p h => ?fence, fun x p h => ?inval, fun x hx hst hs hf hd hh ht => ⟨fun e he => ?pushed, fun he => ?read⟩⟩
  case posted => exact exec_settle rfl (startRecv_posted h hu)
  case deferred => exact exec_settle rfl (startRecv_deferred h hn)
  case cancelled => exact exec_settle rfl (startCancel_hit h hr)
  case noneToCancel => exact exec_settle rfl (startCancel_miss h hr)
  case colStart => exact exec_settle rfl (startCol_starts h)
  case waits =>
    simp only [List.mem_cons, Prod.mk.injEq, List.not_mem_nil, or_false] at hi
    obtain ⟨rfl, rfl⟩ | ⟨rfl, rfl⟩ | ⟨rfl, rfl⟩ | ⟨rfl, rfl⟩ | ⟨rfl, rfl⟩ := hi
    · exact exec_settle rfl (startRecv_waits h)
    · exact exec_settle rfl (startCancel_waits h)
    · exact exec_settle rfl (startCol_waits h)
    · exact exec_settle rfl (startFence_waits h)
    · exact exec_settle rfl (startInval_waits h)
  case stranger => exact colStart_stranger hm
  case colBad => exact colStart_bad hm hb
  case colFailed => exact colStart_failed hm hb hf
  case colNoFeid => exact colStart_noFeid hm hb hf hn
  case colFull => exact (colStart_notFailed hm hb hf hn).trans (if_pos hfull)
  case colEntered => exact colStart_entered hm hb hf hn hfull he
  case fence => exact exec_settle rfl (startFence_starts h)
  case inval => exact exec_settle rfl (startInval_starts h)
  case pushed => exact exec_settle rfl (fetchNext_pushed hx hst hs hf hd hh ht he)
  case read => exact exec_settle rfl (fetchNext_read hx hst hs hf hd hh ht he)

end Sys2Proof.Machine
end

section
/-! The transport engine as a source (Chapters 4, 6, 7, 9): segments, pulls and packets on their way, and what had to wait. -/
namespace Sys2Proof.Machine

/-- In no other state than FAULT a row of the transport engine does its work. -/
theorem unlessFault_live {s t : Sys} (h : s.dev.st ≠ .fault) : unlessFault s t = t := if_neg h

theorem unlessFault_fault {s t : Sys} (h : s.dev.st = .fault) : unlessFault s t = s := if_pos h

/-! ### Segments (R140, R141) -/

/-- The next segment of an operation is the one that takes its sequence numbers. -/
def takesNumbers (o : Op) : Bool := o.segNext == 0 && usesOsn o.opc

/-- The first number of an operation's block. -/
def baseOsn (s : Sys) (o : Op) : Nat := if takesNumbers o then (getPeer s (opDev o)).nextOsn else o.firstOsn

/-- The block is taken from the peer's numbers with the first segment, and the last SEND is noted. -/
def numbered (s : Sys) (o : Op) : Sys :=
  if takesNumbers o then modPeer s (opDev o) fun x =>
    { x with nextOsn := (x.nextOsn + o.nseg) % 2 ^ 32, lastSend := if takesNumbers o && o.opc == 0x10 then baseOsn s o else x.lastSend }
  else s

/-- The operation once its next segment is issued. -/
def advanced (s : Sys) (o x : Op) : Op :=
  { x with firstOsn := baseOsn s o, segNext := x.segNext + 1,
           prev := if takesNumbers o && o.opc == 0x10 then (getPeer s (opDev o)).lastSend else x.prev }

/-- The next segment of operation `k`, which is `o`. -/
def nextSeg (s : Sys) (k : Nat) (o : Op) (idx : Nat) : Seg :=
  { idx, gen := 0, kind := if o.opc = 3 then .get else .osn, op := k, no := o.segNext, dev := opDev o, ctx := o.ctx, hp := o.hp,
    dfeid := o.dfeid, osn := (baseOsn s o + o.segNext) % 2 ^ 32, pcnt := segPkts o o.segNext - 1,
    off := if isAtomicOp o.opc = true then 0 else 262144 * o.segNext, bytes := segBytes o o.segNext,
    built := 0, sent := 0, mask := 0, timed := false, start := 0, retry := 0, nacks := [], writes := 0, sfeid := feidOf s o.hp,
    coord := o.dcoord }

/-- The numbers of peers and operations do not say what endpoint a port has. -/
theorem feidOf_modOp_numbered (s : Sys) (o : Op) (k hp : Nat) (g : Op → Op) : feidOf (modOp (numbered s o) k g) hp = feidOf s hp := by
  unfold numbered
  split <;> rfl

section
variable {s : Sys} {k : Nat} {o : Op} (ho : getOp s k = some o) (hst : o.status = 0) (hn : o.segNext < o.nseg)
include ho hst hn

theorem issueSeg_sync (hv : (getPeer s (opDev o)).valid = false) :
    issueSeg s k = startSync s o.hp o.ctx o.dfeid o.dcoord o.dctx := by
  have hgo : ¬ (o.status ≠ 0 ∨ o.nseg ≤ o.segNext) := by omega
  simp only [issueSeg, ho, if_neg hgo, hv, if_true]

theorem issueSeg_takes (hv : (getPeer s (opDev o)).valid = true) (hl : peerLoad s (opDev o) < s.te.peerIssue) (hh : heldBack s o = false)
    {idx : Nat} (hi : freeEntry s = some idx) :
    issueSeg s k = buildMore (takeEntry (modOp (numbered s o) k (advanced s o)) idx (nextSeg s k o idx)) idx := by
  have hgo : ¬ (o.status ≠ 0 ∨ o.nseg ≤ o.segNext) := by omega
  have hroom : ¬ (s.te.peerIssue ≤ peerLoad s (opDev o) ∨ heldBack s o = true) := by simp [hh, hl]
  have hseg : nextSeg s k o idx =
      { nextSeg s k o idx with sfeid := feidOf (modOp (numbered s o) k (advanced s o)) o.hp } := by
    rw [feidOf_modOp_numbered]
    rfl
  rw [hseg]
  simp only [issueSeg, ho, if_neg hgo, hv, Bool.true_eq_false, if_false, if_neg hroom, hi]
  rfl

end

/-! ### Pulls (R173) -/

/-- The host port of the context that receives a message. -/
def pullHp (s : Sys) (m : Msg) : Nat := ((getCtx s m.buf.1).map (·.hp)).getD 0

/-- Where a message came from. -/
def pullCoord (s : Sys) (m : Msg) : Nat := (epCoord s.rt.act m.head.sfeid).getD (m.src * 4)

/-- A taken rendezvous message that has pulls left, with fewer than 16 of them out. -/
def pullable (s : Sys) (k : Nat) (m : Msg) : Prop :=
  m.st = .taken ∧ m.rts = true ∧ m.recv.isSome = true ∧ m.wait = false ∧ m.pullNext < pullCount m ∧
    (s.te.segs.filter fun g => g.kind == .pull k).length < 16

/-- The next pull of message `k`, which is `m`. -/
def nextPull (s : Sys) (k : Nat) (m : Msg) (idx : Nat) : Seg :=
  let off := 262144 * m.pullNext
  let bytes := min 262144 (m.want - off)
  { idx, gen := 0, kind := .pull k, op := 2 ^ 64, no := m.pullNext, dev := m.src, ctx := m.buf.1, hp := pullHp s m,
    dfeid := m.head.sfeid, osn := m.osn, pcnt := max 1 ((bytes + 4095) / 4096) - 1, off, bytes, built := 0, sent := 0, mask := 0,
    timed := false, start := 0, retry := 0, nacks := [], writes := 0, sfeid := feidOf s (pullHp s m), coord := pullCoord s m }

theorem pullable_goes {s : Sys} {k : Nat} {m : Msg} (hp : pullable s k m) :
    ¬ (m.st ≠ .taken ∨ m.rts = false ∨ m.recv.isNone = true ∨ m.wait = true ∨ pullCount m ≤ m.pullNext ∨
      16 ≤ (s.te.segs.filter fun g => g.kind == .pull k).length) := by
  obtain ⟨hst, hrts, hrecv, hwait, hnext, hout⟩ := hp
  simp [hst, hrts, hwait, hnext, hout, Option.isSome_iff_ne_none.mp hrecv]

section
variable {s : Sys} {k : Nat} {m : Msg} (hm : getMsg s k = some m) (hp : pullable s k m)
include hm hp

theorem pullIssue_sync (hv : (getPeer s m.src).valid = false) :
    pullIssue s k = startSync s (pullHp s m) m.buf.1 m.head.sfeid (pullCoord s m) m.head.sctx := by
  simp only [pullIssue, hm, if_neg (pullable_goes hp), hv, if_true]
  rfl

theorem pullIssue_takes (hv : (getPeer s m.src).valid = true) (hl : peerLoad s m.src < s.te.peerIssue) {idx : Nat}
    (hi : freeEntry s = some idx) : pullIssue s k =
      buildMore (takeEntry (modMsg s k fun m => { m with pullNext := m.pullNext + 1 }) idx (nextPull s k m idx)) idx := by
  simp only [pullIssue, hm, if_neg (pullable_goes hp), hv, Bool.true_eq_false, if_false, if_neg (Nat.not_le.mpr hl), hi]
  rfl

end

/-! ### Packets (R90, R91, R260) -/

/-- A request leaves the queue of its port, whose virtual time moves to its finish tag. -/
def dequeued (s : Sys) (hp : Nat) (e : InjPkt) : Sys := modHp s hp fun h => { h with reqQ := h.reqQ.erase e, vtime := e.finish }

section
variable {s : Sys} {hp : Nat} (ht : s.rt.transfer = none)
include ht

theorem injectNext_response {e : InjPkt} {rest : List InjPkt} (hq : (getHp s hp).respQ = e :: rest) :
    injectNext s hp = inject (modHp s hp fun h => { h with respQ := rest }) hp e := by
  simp only [injectNext, ht, hq, Option.isSome_none, Bool.false_eq_true, if_false]

variable (hq : (getHp s hp).respQ = [])
include hq

theorem injectNext_idle (hb : bestHead (heads s (getHp s hp).reqQ) = none) : injectNext s hp = s := by
  simp only [injectNext, ht, hq, hb, Option.isSome_none, Bool.false_eq_true, if_false]

variable {e : InjPkt} (hb : bestHead (heads s (getHp s hp).reqQ) = some e)
include hb

theorem injectNext_own (hx : getCtx (dequeued s hp e) e.ctx = none) : injectNext s hp = inject (dequeued s hp e) hp e := by
  unfold dequeued at *
  simp only [injectNext, ht, hq, hb, hx, Option.isSome_none, Bool.false_eq_true, if_false]

theorem injectNext_request {x : Ctx} (hx : getCtx (dequeued s hp e) e.ctx = some x) : injectNext s hp =
    inject (modFn (modCtx (dequeued s hp e) e.ctx fun z => { z with shaper := z.shaper.take (e.pkt.len * 64) }) x.hp x.fn fun g =>
      { g with shaper := g.shaper.take (e.pkt.len * 64) }) hp e := by
  unfold dequeued at *
  simp only [injectNext, ht, hq, hb, hx, Option.isSome_none, Bool.false_eq_true, if_false]

end

/-! ### What had to wait (R88, R166, R220) -/

theorem memberChoice_waiting {s : Sys} {k : Nat} {m : Msg} {r : Recv} (hm : getMsg s k = some m) (hr : m.recv = some r)
    (hw : m.wait = true) : memberChoice s k = msgCheck (takeMsg s k r) k := by
  simp only [memberChoice, hm, hr, hw]

theorem releasePost_posted {s u : Sys} {k : Nat} {x : Ctx} {r : Recv} {rest : List Recv} (hx : getCtx s k = some x)
    (hd : x.deferred = r :: rest) (hp : post (modCtx s k fun z => { z with deferred := rest }) k r = some u) : releasePost s k = u := by
  simp only [releasePost, hx, hd, hp, Option.getD_some]

theorem runModerationTimerExpiry_some {f : FuseBank} {s : Sys} {k : Nat} {x : Ctx} (hx : getCtx s k = some x) :
    runModerationTimerExpiry f s k = if modByTime s x = true then evInterrupt s k else s := by
  simp only [runModerationTimerExpiry, hx]

/-- A row of the transport engine outside FAULT. -/
theorem exec_live {i : Instr} {s : State} {x y : Sys} (h : exec i s = .next (s.at (unlessFault s.sys (settle x))))
    (hf : s.sys.dev.st ≠ .fault) (hx : x = y) : exec i s = .next (s.at (settle y)) :=
  exec_run h ((unlessFault_live hf).trans (congrArg settle hx))

/-- Settles O46: each row in each of its cases. -/
theorem operationsAreIssued : Obligations.OperationsAreIssued := by
  unfold Obligations.OperationsAreIssued
  intro s k
  refine ⟨fun hf o ho hst hn => ⟨fun hv => ?sync, fun hv hl hh idx hi => ?segment⟩,
    fun hf ht => ⟨fun e rest hq => ?response, fun e hq hb => ⟨fun hx => ?own, fun x hx => ?request⟩, fun hq hb => ?idle⟩,
    fun hf m hm hst hrts hrecv hwait hnext hout => ?pull, fun hf => ?fault, fun m r hm hr hw => ?member,
    fun x r rest u hx hd hp => ?deferred, fun x hx => ⟨fun ht => ?timeOver, fun ht => ?timeLeft⟩⟩
  case sync => exact exec_live rfl hf (issueSeg_sync ho hst hn hv)
  case segment => exact exec_live rfl hf (issueSeg_takes ho hst hn hv hl hh hi)
  case response => exact exec_live rfl hf (injectNext_response ht hq)
  case own => exact exec_live rfl hf (injectNext_own ht hq hb hx)
  case request => exact exec_live rfl hf (injectNext_request ht hq hb hx)
  case idle => exact exec_live rfl hf (injectNext_idle ht hq hb)
  case pull =>
    have hp : pullable s.sys k m := ⟨hst, hrts, hrecv, hwait, hnext, hout⟩
    exact ⟨fun hv => exec_live rfl hf (pullIssue_sync hm hp hv), fun hv hl idx hi => exec_live rfl hf (pullIssue_takes hm hp hv hl hi)⟩
  case fault =>
    exact ⟨exec_run rfl (unlessFault_fault hf), exec_run rfl (unlessFault_fault hf), exec_run rfl (unlessFault_fault hf)⟩
  case member => exact exec_settle rfl (memberChoice_waiting hm hr hw)
  case deferred => exact exec_settle rfl (releasePost_posted hx hd hp)
  case timeOver => exact exec_run rfl ((runModerationTimerExpiry_some hx).trans (if_pos ht))
  case timeLeft => exact exec_run rfl ((runModerationTimerExpiry_some hx).trans (if_neg (Bool.eq_false_iff.mp ht)))

end Sys2Proof.Machine
end

section
/-! The PCI Express side of a host port (Chapter 4): resets, links, virtual functions, device reads and MSI-X, in each of their cases. -/
namespace Sys2Proof.Machine

/-! ### Functions reset (R93) -/

theorem runFunctionLevelReset_present {f : FuseBank} {s : Sys} {hp fn : Nat} (h : fnPresent s hp fn = true) :
    runFunctionLevelReset f s hp fn = settle (if fn = 0 then vfClear (flrStart s hp 0) hp false else flrStart s hp fn) :=
  if_neg (ne_false_of_eq_true h)

theorem runFunctionLevelReset_absent {f : FuseBank} {s : Sys} {hp fn : Nat} (h : fnPresent s hp fn = false) :
    runFunctionLevelReset f s hp fn = s := if_pos h

/-- A reset that runs is not begun again. -/
theorem flrStart_running {s : Sys} {hp fn : Nat} (h : (getFn s hp fn).flr.isSome = true) : flrStart s hp fn = s := if_pos h

/-- No context of a function is being aborted. -/
def abortsOver (s : Sys) (hp fn : Nat) : Prop := ∀ c ∈ ctxsOf s hp fn, ∀ x, getCtx s c = some x → x.st ≠ .aborting

/-- The function with its sessions, contexts and PDs gone and its registers at reset values (R93, steps 3 and 4). -/
def cleanedUp (s : Sys) (hp fn : Nat) : Sys :=
  let t := endSessions s (fun x => x.who == .fn hp fn) 3 (fun w => w == .fn hp fn)
  let t := (ctxsOf t hp fn).foldl (fun s c => freeCtx (dropSets s c) c) t
  modFn (dropPds t hp fn) hp fn Fn.afterFlr

/-- A function of the link is being reset. -/
def linkBusy (s : Sys) (hp : Nat) (b : Bool) : Bool :=
  (List.range 64).any fun k => onLinkB s hp k == b && (getFn s hp k).flr.isSome

theorem runFlrCleanup_over {f : FuseBank} {s : Sys} {hp fn : Nat} (h : (getFn s hp fn).flr.isSome = true) (ha : abortsOver s hp fn) :
    runFlrCleanup f s hp fn =
      let t := cleanedUp s hp fn
      let b := onLinkB t hp fn
      settle (if linkBusy t hp b = true then t else modLink t hp b fun l => { l with crs := !l.up || !served t, inReset := !l.up }) := by
  refine if_neg (not_or.mpr ⟨by simp [Option.isSome_iff_ne_none.mp h], fun hany => ?_⟩)
  obtain ⟨c, hc, hab⟩ := List.any_eq_true.mp hany
  cases hx : getCtx s c with
  | none => simp [hx] at hab
  | some x => exact ha c hc x hx (by simpa [hx] using hab)

theorem runFlrCleanup_idle {f : FuseBank} {s : Sys} {hp fn : Nat} (h : (getFn s hp fn).flr = none) : runFlrCleanup f s hp fn = s :=
  if_pos (.inl (Option.isNone_iff_eq_none.mpr h))

/-! ### Links (R68, R94, R325) -/

/-- A link that may not come up: in phase 1, its PERST low, its port off or a domain of it not ON. -/
def linkShut (s : Sys) (hp : Nat) (b : Bool) : Prop :=
  s.dev.st = .wiping ∨ (getLink s hp b).perst = true ∨ s.pwr.hpOff.contains hp = true ∨ swdState s (96 + hp) ≠ 2 ∨ swdState s (100 + hp) ≠ 2

/-- The reference clock of the port runs. -/
def refRuns (s : Sys) (hp : Nat) : Sys := { s with pins := { s.pins with refHp := s.pins.refHp.set hp true } }

section
variable {f : FuseBank} {s : Sys} {hp : Nat} {b : Bool} {rate width : Nat} {flit : Bool}

theorem runHostLinkTrained_shut (h : linkShut s hp b) : runHostLinkTrained f s hp b rate width flit = s := if_pos h

theorem runHostLinkTrained_up (h : ¬ linkShut s hp b) : runHostLinkTrained f s hp b rate width flit =
    let t := refRuns s hp
    modLink t hp b fun l =>
      { l with up := true, crs := linkBusy t hp b || !served t, inReset := linkBusy t hp b, rate,
               width := if (getHp t hp).bifd = true then min 8 width else width, flit := flit || decide (64 ≤ rate) } := if_neg h

end

theorem runVfEnableSet_off {f : FuseBank} {s : Sys} {hp : Nat} {b : Bool} (h : (getLink s hp b).vfEn = false) :
    runVfEnableSet f s hp b = modLink ((vfsOfLink s hp b).foldl (fun s fn => modFn s hp fn fun g =>
      { Fn.reset fn s.upd.vfDb s.upd.msixPf s.upd.msixVf with flr := g.flr, bme := g.bme, fnAbort := g.fnAbort }) s)
      hp b fun l => { l with vfEn := true } := if_neg (Bool.eq_false_iff.mp h)

theorem runVfEnableSet_on {f : FuseBank} {s : Sys} {hp : Nat} {b : Bool} (h : (getLink s hp b).vfEn = true) :
    runVfEnableSet f s hp b = s := if_pos h

/-! ### Device reads (R69, R108) -/

section
variable {f : FuseBank} {s : Sys} {hp tag : Nat}

theorem runHostReadCompletion_unknown (h : readOf s hp tag = none) (ok po : Bool) (d : Bytes) :
    runHostReadCompletion f s hp tag ok po d = s := by
  simp only [runHostReadCompletion, h]

theorem runHostCompletionTimeout_unknown (h : readOf s hp tag = none) : runHostCompletionTimeout f s hp tag = s := by
  simp only [runHostCompletionTimeout, h]

variable {r : ReadE} (h : readOf s hp tag = some r)
include h

theorem runHostReadCompletion_good (d : Bytes) :
    runHostReadCompletion f s hp tag true false d = readOver (count s (64 + hp) 0x41 r.len) hp r (.inr d) := by
  simp [runHostReadCompletion, h]

theorem runHostReadCompletion_poisoned (d : Bytes) :
    runHostReadCompletion f s hp tag true true d = readOver (readFault s hp r 5) hp r (.inl .hostBus) := by
  simp [runHostReadCompletion, h]

theorem runHostReadCompletion_failed (po : Bool) (d : Bytes) :
    runHostReadCompletion f s hp tag false po d = readOver s hp r (.inl .hostBus) := by
  simp [runHostReadCompletion, h]

theorem runHostCompletionTimeout_some : runHostCompletionTimeout f s hp tag =
    if frame s < r.at_ + ctoFrames s hp r then s else readOver (readFault s hp r 4) hp r (.inl .hostTimeout) := by
  simp only [runHostCompletionTimeout, h]

end

/-! ### MSI-X (R73) -/

theorem runMsixVectorUnmask_fresh {f : FuseBank} {s : Sys} {hp fn v : Nat} (hpr : fnPresent s hp fn = true)
    (hv : v < (getFn s hp fn).msixSize) (hm : (getFn s hp fn).unmasked.contains v = false) (hf : (getFn s hp fn).flr = none) :
    runMsixVectorUnmask f s hp fn v =
      msixFlush (setFn s hp fn { getFn s hp fn with unmasked := (getFn s hp fn).unmasked ++ [v] }) hp fn := by
  refine if_neg ?_
  simp only [hpr, hm, hf, Nat.not_le.mpr hv, Bool.true_eq_false, Bool.false_eq_true, Option.isSome_none, or_self, not_false_eq_true]

theorem runMsixVectorUnmask_ignored {f : FuseBank} {s : Sys} {hp fn v : Nat}
    (h : fnPresent s hp fn = false ∨ (getFn s hp fn).msixSize ≤ v ∨ (getFn s hp fn).unmasked.contains v = true ∨
      (getFn s hp fn).flr ≠ none) : runMsixVectorUnmask f s hp fn v = s := by
  rw [← Option.isSome_iff_ne_none] at h
  exact if_pos h

section
variable {s : Sys} {hp fn : Nat}

theorem msixFlush_quiet (h : (getFn s hp fn).bme = false ∨ (linkOf s hp fn).up = false) : msixFlush s hp fn = s := by
  refine if_neg ?_
  rcases h with h | h <;> simp [h]

theorem msixFlush_sends (hb : (getFn s hp fn).bme = true) (hu : (linkOf s hp fn).up = true) :
    msixFlush s hp fn = ((getFn s hp fn).msixPend.filter (getFn s hp fn).unmasked.contains).foldl (fun s v => msix s hp fn v)
      (setFn s hp fn { getFn s hp fn with
        msixPend := (getFn s hp fn).msixPend.filter fun v => !(getFn s hp fn).unmasked.contains v }) := by
  refine if_pos ?_
  rw [hb, hu]
  rfl

theorem msix_beyond {v : Nat} (hv : (getFn s hp fn).msixSize ≤ v) : msix s hp fn v = s := if_pos hv

/-- A message goes out at once: its vector is not masked, and the function is a bus master on a link that is up. -/
def msixOpen (s : Sys) (hp fn v : Nat) : Prop :=
  (getFn s hp fn).unmasked.contains v = true ∧ (getFn s hp fn).bme = true ∧ (linkOf s hp fn).up = true

theorem msixOpen_iff (s : Sys) (hp fn v : Nat) :
    ((getFn s hp fn).unmasked.contains v && (getFn s hp fn).bme && (linkOf s hp fn).up) = true ↔ msixOpen s hp fn v := by
  simp only [msixOpen, Bool.and_eq_true, and_assoc]

variable {v : Nat} (hv : v < (getFn s hp fn).msixSize)
include hv

theorem msix_open (ho : msixOpen s hp fn v) : msix s hp fn v = emit s (.msix hp fn v) :=
  (if_neg (Nat.not_le.mpr hv)).trans (if_pos ((msixOpen_iff s hp fn v).mpr ho))

theorem msix_shut (ho : ¬ msixOpen s hp fn v) : msix s hp fn v =
    if (getFn s hp fn).msixPend.contains v = true then s
    else setFn s hp fn { getFn s hp fn with msixPend := (getFn s hp fn).msixPend ++ [v] } :=
  (if_neg (Nat.not_le.mpr hv)).trans (if_neg (mt (msixOpen_iff s hp fn v).mp ho))

end

/-- Settles O47: each row and each shared operation in each of its cases. -/
theorem hostPortsComeAndGo : Obligations.HostPortsComeAndGo := by
  unfold Obligations.HostPortsComeAndGo
  intro s hp fn
  refine ⟨fun h => ?flr, fun h => ?flrAbsent, fun h ha => ?cleanup, fun h => ?noReset, fun b cause => rfl, fun b => rfl,
    fun b rate width flit hw hperst hoff h96 h100 => ?trained, fun b rate width flit h => ?shut, fun h => ?flrRuns,
    fun h => ?flrStart, fun b => rfl, fun b h => ?vfSet, fun b h => ?vfOn,
    fun tag r h => ⟨fun d => ?good, fun d => ?poisoned, fun po d => ?failed, fun ht => ?timeOver, fun ht => ?timeLeft⟩,
    fun tag h => ⟨fun ok po d => ?noRead, ?noTimeout⟩, fun v hpr hv hm hf => ?unmask,
    ⟨fun h => ?quiet, fun hb hu => ?flush, fun v => ⟨fun hv => ?beyond, fun hv hm hb hu => ?sent,
      fun hv ho => ⟨fun hc => ?pends, fun hc => ?noted⟩⟩⟩, fun v h => ?ignored⟩
  case flr => exact exec_run rfl (runFunctionLevelReset_present h)
  case flrAbsent => exact exec_run rfl (runFunctionLevelReset_absent h)
  case cleanup => exact exec_run rfl (runFlrCleanup_over h ha)
  case noReset => exact exec_run rfl (runFlrCleanup_idle h)
  case trained =>
    have hopen : ¬ linkShut s.sys hp b := by
      simp only [linkShut, hw, hperst, hoff, h96, h100, ne_eq, not_true_eq_false, Bool.false_eq_true, or_self, not_false_eq_true]
    exact exec_run rfl (runHostLinkTrained_up hopen)
  case shut => exact exec_run rfl (runHostLinkTrained_shut h)
  case flrRuns => exact flrStart_running h
  case flrStart => exact if_neg (by simp [h])
  case vfSet => exact exec_run rfl (runVfEnableSet_off h)
  case vfOn => exact exec_run rfl (runVfEnableSet_on h)
  case good => exact exec_run rfl (runHostReadCompletion_good h d)
  case poisoned => exact exec_run rfl (runHostReadCompletion_poisoned h d)
  case failed => exact exec_run rfl (runHostReadCompletion_failed h po d)
  case timeOver => exact exec_run rfl ((runHostCompletionTimeout_some h).trans (if_neg (Nat.not_lt.mpr ht)))
  case timeLeft => exact exec_run rfl ((runHostCompletionTimeout_some h).trans (if_pos ht))
  case noRead => exact exec_run rfl (runHostReadCompletion_unknown h ok po d)
  case noTimeout => exact exec_run rfl (runHostCompletionTimeout_unknown h)
  case unmask => exact exec_run rfl (runMsixVectorUnmask_fresh hpr hv hm hf)
  case quiet => exact msixFlush_quiet h
  case flush => exact msixFlush_sends hb hu
  case beyond => exact msix_beyond hv
  case sent => exact msix_open hv ⟨hm, hb, hu⟩
  case pends => exact (msix_shut hv ho).trans (if_pos hc)
  case noted => exact (msix_shut hv ho).trans (if_neg (Bool.eq_false_iff.mp hc))
  case ignored => exact exec_run rfl (runMsixVectorUnmask_ignored h)

end Sys2Proof.Machine
end

section
/-! Protection domains, tenants, regions, address maps and translation under the commands of the mailbox (Chapter 5): what each body answers in each of
its cases. -/
namespace Sys2Proof.Machine

/-! ### Protection domains (R101) -/

section
variable {f : FuseBank} {y : Sys} {q : MbxReq} {hp fn : Nat} (hw : q.who = .fn hp fn)
include hw

theorem bodyPdCreate_free {k : Nat} (hk : freePdId y = some k) (hroom : pdCount y hp fn < (getFn y hp fn).pdQuota) :
    bodyPdCreate f y q =
      .done { y with xl := { y.xl with pds := tset y.xl.pds k (Pd.new y hp fn q.payload) } } (le 2 k ++ zeros 2) := by
  simp only [bodyPdCreate, hw, hk, Nat.not_le.mpr hroom, if_false]

/-- A function at its quota, and a device without a free PDID. -/
theorem bodyPdCreate_full (h : freePdId y = none ∨ (getFn y hp fn).pdQuota ≤ pdCount y hp fn) : bodyPdCreate f y q = .no .noResource := by
  cases hk : freePdId y with
  | none => simp only [bodyPdCreate, hw, hk]
  | some k =>
    have hquota : (getFn y hp fn).pdQuota ≤ pdCount y hp fn := h.resolve_left (by simp [hk])
    simp only [bodyPdCreate, hw, hk, hquota, if_true]

end

/-- Some context or some region names a PD. -/
abbrev pdNamed (y : Sys) (k : Nat) : Prop := (y.ctxs.any fun e => e.2.pd == k) = true ∨ pdHasRegion y k = true

theorem bodyPdDestroy_eq (f : FuseBank) (y : Sys) (q : MbxReq) : bodyPdDestroy f y q =
    if pdNamed y (arg0 q.payload) then .no .stateConflict
    else
      let t := invalPdAll y (arg0 q.payload)
      .done { t with xl := { t.xl with pds := tdel t.xl.pds (arg0 q.payload) } } [] := by
  simp only [bodyPdDestroy, Bool.or_eq_true]

/-- Settles O17: each body in each of its cases; PD_CREATE over MCTP is refused by the check of privilege. -/
theorem domainsAndTenants : Obligations.DomainsAndTenants := by
  unfold Obligations.DomainsAndTenants
  intro s q
  refine ⟨fun h hp fn hw => ⟨fun k hk hroom => ?created, fun hfull => ?full⟩, fun e hw h => ?overMctp,
    fun h => ⟨fun hfree => ?destroyed, fun hnamed => ?named⟩, fun h => ⟨fun hnone => ?tenant, fun hsome => ?tenantHeld⟩,
    fun h => ⟨fun hnone => ?stage2, fun hsome => ?stage2Held⟩⟩
  case created => exact run_done rfl rfl h (bodyPdCreate_free hw hk hroom)
  case full => exact run_no rfl h (bodyPdCreate_full hw hfull)
  case overMctp =>
    have hpriv : specPdCreate.priv s.fuse (reached s.sys q) q = some .privilege := by
      simp only [specPdCreate, Spec.fast, needFn, hw]
    exact exec_turnedAway rfl (takes_of_wellMade h) (preCheck_of_priv h hpriv)
  case destroyed => exact run_done rfl rfl h ((bodyPdDestroy_eq _ _ q).trans (if_neg hfree))
  case named => exact run_no rfl h ((bodyPdDestroy_eq _ _ q).trans (if_pos hnamed))
  case tenant => exact run_done rfl rfl h (if_neg (not_not.mpr hnone))
  case tenantHeld => exact run_no rfl h (if_pos hsome)
  case stage2 => exact run_done rfl rfl h (if_neg (not_not.mpr hnone))
  case stage2Held => exact run_no rfl h (if_pos hsome)

/-! ### Remote regions (R102 to R104) -/

section
variable {f : FuseBank} {y : Sys} {q : MbxReq} {p : Pd} (hp : tget y.xl.pds (num q.payload 0 2) = some p)
include hp

theorem bodyRegionRegister_noTable (ht : (getHp y p.hp).regtab = none) : bodyRegionRegister f y q = .no .noResource := by
  simp only [bodyRegionRegister, hp, ht]

variable {t : RegTab} (ht : (getHp y p.hp).regtab = some t)
include ht

theorem bodyRegionRegister_full (hn : t.next = none) : bodyRegionRegister f y q = .no .noResource := by
  simp only [bodyRegionRegister, hp, ht, hn]

theorem bodyRegionRegister_free {i : Nat} (hn : t.next = some i) : bodyRegionRegister f y q =
    let g := genAfter (t.at_ i).lgen
    .done (putRegion y p.hp i
      { base := num q.payload 8 8, len := num q.payload 16 8, pd := num q.payload 0 2, rights := num q.payload 2 1, gen := g, fn := p.fn,
        lgen := (t.at_ i).lgen } true) (le 4 (g * 2 ^ 24 + i)) := by
  simp only [bodyRegionRegister, hp, ht, hn]

end

theorem bodyRegionDeregister_fn {f : FuseBank} {y : Sys} {q : MbxReq} {hp fn : Nat} {r : Region} (hw : q.who = .fn hp fn)
    (hr : regionOf y hp (num q.payload 0 4) = some r) : bodyRegionDeregister f y q =
      .wait (putRegion y hp (num q.payload 0 4 % 2 ^ 24) { r with gen := 0, lgen := r.gen } false)
        (.deregister hp (num q.payload 0 4 % 2 ^ 24)) := by
  have hport : rkeyHp q = some hp := by simp only [rkeyHp, hw]
  have hregion : rkeyRegion y q = some r := by simp only [rkeyRegion, hport, Option.bind_some, hr]
  simp only [bodyRegionDeregister, hport, hregion]

/-- The table of a port holds a region. -/
def holdsRegion (y : Sys) (hp : Nat) : Prop := ∃ t, (getHp y hp).regtab = some t ∧ ∃ e ∈ t.ents, e.2.gen ≠ 0

/-- The device once nothing of a port's earlier table is cached, and the reads of it in flight bring nothing. -/
def tableForgotten (y : Sys) (hp : Nat) : Sys :=
  staleReads { y with xl := { y.xl with l2 := y.xl.l2.filter fun e => match e with | .reg h _ _ => h != hp | .comb _ => true } } hp fun _ => true

theorem bodyRegtabSet_held {f : FuseBank} {y : Sys} {q : MbxReq} (h : holdsRegion y (num q.payload 0 1)) :
    bodyRegtabSet f y q = .no .busy := by
  obtain ⟨t, ht, e, he, hg⟩ := h
  have hany : (t.ents.any fun e => e.2.gen != 0) = true := List.any_eq_true.mpr ⟨e, he, bne_iff_ne.mpr hg⟩
  simp only [bodyRegtabSet, ht, hany, if_true]

theorem bodyRegtabSet_free {f : FuseBank} {y : Sys} {q : MbxReq} (h : ¬ holdsRegion y (num q.payload 0 1)) :
    bodyRegtabSet f y q = .done (modHp (tableForgotten y (num q.payload 0 1)) (num q.payload 0 1) fun h =>
      { h with regtab := if num q.payload 8 8 = 0 then none else
                 some { bus := num q.payload 8 8, log2 := num q.payload 1 1, last := 2 ^ num q.payload 1 1 - 1,
                        ents := regEnts (num q.payload 1 1) q.mem } }) [] := by
  cases ht : (getHp y (num q.payload 0 1)).regtab with
  | none =>
    simp only [bodyRegtabSet, ht, Bool.false_eq_true, if_false]
    rfl
  | some t =>
    have hany : (t.ents.any fun e => e.2.gen != 0) = false :=
      Bool.eq_false_iff.mpr fun ha =>
        let ⟨e, he, hg⟩ := List.any_eq_true.mp ha
        h ⟨t, ht, e, he, bne_iff_ne.mp hg⟩
    simp only [bodyRegtabSet, ht, hany, Bool.false_eq_true, if_false]
    rfl

/-- What goes on at once after REGION_DEREGISTER (log entry 110). -/
theorem follows_regionDeregister (q : MbxReq) (y : Sys) : follows (.regionDeregister q) y = settle y := rfl

/-- Settles O18: each body in each of its cases; REGION_DEREGISTER over MCTP is refused by the check of privilege, since an endpoint has no port. -/
theorem regionsAndWindows : Obligations.RegionsAndWindows := by
  unfold Obligations.RegionsAndWindows
  intro s q
  refine ⟨fun h p hp => ⟨fun t ht => ⟨fun i hn => ?registered, fun hn => ?full⟩, fun ht => ?noTable⟩, fun h hn hp fn r hw hr => ?deregistered,
    fun e hw h => ?overMctp, fun h => ⟨fun hfree => ?tableSet, fun hheld => ?tableHeld⟩, fun h => run_done rfl rfl h rfl⟩
  case registered => exact run_done rfl rfl h (bodyRegionRegister_free hp ht hn)
  case full => exact run_no rfl h (bodyRegionRegister_full hp ht hn)
  case noTable => exact run_no rfl h (bodyRegionRegister_noTable hp ht)
  case deregistered => exact then_wait (a := settle) rfl h hn (bodyRegionDeregister_fn hw hr)
  case overMctp =>
    have hpriv : specRegionDeregister.priv s.fuse (reached s.sys q) q = some .privilege := by
      simp only [specRegionDeregister, rkeyHp, hw]
    exact exec_run (exec_turnedAway rfl (takes_of_wellMade h) (preCheck_of_priv h hpriv)) (follows_regionDeregister _ _)
  case tableSet => exact run_done rfl rfl h (bodyRegtabSet_free hfree)
  case tableHeld => exact run_no rfl h (bodyRegtabSet_held hheld)

/-! ### Translation faults, invalidation and age (R121, R122, R125) -/

/-- The device once a held fault is taken up: what was cached for its address and the hold itself are gone. -/
def holdTaken (y : Sys) (h : Hold) : Sys := dropHolds (dropFor y h) fun x => x.id == h.id

section
variable {f : FuseBank} {y : Sys} {q : MbxReq} {h : Hold} (hh : holdOf y q.payload = some h)
include hh

theorem bodyXlatResume_own (hk : h.kind = .cmd ∨ h.kind = .data) : bodyXlatResume f y q =
    .done (resumeAcc (holdTaken y h) h (num q.payload 4 1 == 1) (ownCtx (holdTaken y h) q h.ctx)) [] := by
  rcases hk with hk | hk <;> simp only [bodyXlatResume, hh, hk, holdTaken]

/-- A hold of an inbound access. -/
theorem bodyXlatResume_inbound (hc : h.kind ≠ .cmd) (hd : h.kind ≠ .data) : bodyXlatResume f y q = .done (holdTaken y h) [] := by
  cases hk : h.kind
  case cmd => exact absurd hk hc
  case data => exact absurd hk hd
  all_goals simp only [bodyXlatResume, hh, hk, holdTaken]

end

/-- The first address that an XLAT_INVALIDATE names: of a range where its scope has one, else 0. -/
def invalLo (b : Bytes) (pages : Bool) : Nat := if pages then num b 8 8 else 0

/-- The end of the addresses that an XLAT_INVALIDATE names. -/
def invalHi (b : Bytes) (pages : Bool) : Nat := if pages then num b 8 8 + 4096 * num b 16 8 else 2 ^ 64

/-- Scopes 0 and 1 of Table 5.9: a PD, or a range of it. -/
theorem invalidate_pd {y : Sys} {b : Bytes} (h : num b 0 1 ≤ 1) :
    let lo := invalLo b (num b 0 1 == 0)
    let hi := invalHi b (num b 0 1 == 0)
    invalidate y b = (invalRange y (num b 4 2) lo hi, invalWaits y fun a => usesRange y a (num b 4 2) lo hi) := by
  have hscope : (num b 0 1 == 2) = false := beq_false_of_ne (by omega)
  simp only [invalidate, invalLo, invalHi, h, hscope, Bool.or_false, if_true]

/-- Scopes 2 to 4 of Table 5.9: the second stage of a function, a function, or everything. -/
theorem invalidate_fns {y : Sys} {b : Bytes} (h : 2 ≤ num b 0 1) :
    let which := fun k : Nat => num b 0 1 == 4 || k == fnKey (num b 2 1) (num b 1 1)
    invalidate y b = (invalFns y which (invalLo b (num b 0 1 == 2)) (invalHi b (num b 0 1 == 2)) (num b 0 1 != 2),
      invalWaits y fun a => which (fnKey a.hp a.fn)) := by
  have hscope : (num b 0 1 == 0) = false := beq_false_of_ne (by omega)
  have hbig : ¬ num b 0 1 ≤ 1 := by omega
  simp only [invalidate, invalLo, invalHi, hbig, hscope, Bool.false_or, if_false]

theorem bodyXlatInvalidate_of {f : FuseBank} {y t : Sys} {q : MbxReq} {ids : List Nat} (h : invalidate y q.payload = (t, ids)) :
    bodyXlatInvalidate f y q = .wait t (.invalidate ids) := by
  simp only [bodyXlatInvalidate, h]

/-- Settles O19: each body in each of its cases; what XLAT_INVALIDATE drops and waits for is decided by its scope. -/
theorem translationCommands : Obligations.TranslationCommands := by
  unfold Obligations.TranslationCommands
  intro s q
  refine ⟨fun h x hx => ⟨fun hk => ?resumed, fun hc hd => ?ended⟩, fun h hn => ⟨fun hs => ?ofPd, fun hs => ?ofFns⟩,
    fun h => run_done rfl rfl h rfl⟩
  case resumed => exact then_done (a := settle) rfl rfl h (bodyXlatResume_own hx hk)
  case ended => exact then_done (a := settle) rfl rfl h (bodyXlatResume_inbound hx hc hd)
  case ofPd => exact then_wait (a := settle) rfl h hn (bodyXlatInvalidate_of (invalidate_pd hs))
  case ofFns => exact then_wait (a := settle) rfl h hn (bodyXlatInvalidate_of (invalidate_fns hs))

end Sys2Proof.Machine
end

section
/-! Requests at the target (Chapter 6): what each of the checks of Tables 5.5 and 6.6 answers, and the rows that take a request through them. -/
namespace Sys2Proof.Machine

/-! ### The oldest packet of a port (R131, R262) -/

section
variable {s : Sys} {hp cx : Nat} {f : Nat → Bool} {p : Packet} {rest : List (Nat × Packet)} (he : (getHp s hp).ej = (cx, p) :: rest)
include he

theorem ejCx_head : ejCx s hp = cx := by
  simp only [ejCx, he, List.head?_cons, Option.map_some, Option.getD_some]

theorem takeEj_head (hf : f p.op = true) : takeEj s hp f =
    let t := modHp s hp fun h => { h with ej := rest }
    if tooOld t p = true then some (trace (count t cx 0x10 1) p 8 cx 0x10, none) else some (trace t p 5 cx 0, some p) := by
  simp only [takeEj, he, hf, Bool.true_eq_false, if_false]

end

theorem takeEj_none {s : Sys} {hp : Nat} {f : Nat → Bool} (h : ∀ e, (getHp s hp).ej.head? = some e → f e.2.op = false) :
    takeEj s hp f = none := by
  cases he : (getHp s hp).ej with
  | nil => simp only [takeEj, he]
  | cons e rest =>
    have hf : f e.2.op = false := h e (by rw [he, List.head?_cons])
    simp only [takeEj, he, hf, if_true]

/-! ### Checks 1 to 5 (Table 6.6) -/

/-- An operation, or an atomic's form, that is not assigned (check 3). -/
abbrev unassigned (p : Packet) : Prop :=
  opAssigned p.op = false ∨ (isAtomicOp p.op = true ∧ atomicOk p.op (p.w56 % 16) (bits p.w56 4 4) p.offset = false)

/-- A packet of another incarnation, or from a source whose SYNC has not come (check 4). -/
abbrev stranger (t : Sys) (dev : Nat) (p : Packet) : Prop := p.tinc ≠ t.start.incarn ∨ getSrcDev t dev = none

theorem checks5_dropped {t : Sys} {p : Packet} (h : lenCheck p = false ∨ senderDev t p = none) :
    checks5 t p = (count t 86 0x01 1, none) := by
  cases hl : lenCheck p with
  | false => simp only [checks5, hl, if_true]
  | true =>
    have hd : senderDev t p = none := h.resolve_left (by simp [hl])
    simp only [checks5, hl, hd, Bool.true_eq_false, if_false]

section
variable {t : Sys} {dev : Nat} {p : Packet} (hl : lenCheck p = true) (hd : senderDev t p = some dev)
include hl hd

theorem checks5_unassigned (hb : unassigned p) : checks5 t p = (fatal t p 4, none) := by
  simp only [checks5, hl, hd, Bool.true_eq_false, if_false]
  exact if_pos hb

theorem checks5_stranger (hb : ¬ unassigned p) (hop : p.op ≠ 0x0A) (hs : stranger t dev p) : checks5 t p = (fatal t p 3, none) := by
  simp only [checks5, hl, hd, Bool.true_eq_false, if_false]
  exact (if_neg hb).trans ((if_neg hop).trans (if_pos (by simpa only [Option.isNone_iff_eq_none] using hs)))

theorem checks5_passed (hb : ¬ unassigned p) (h : p.op = 0x0A ∨ (p.tinc = t.start.incarn ∧ (getSrcDev t dev).isSome = true)) :
    checks5 t p = (if p.op = 0x0A then t else luoRelease t dev p.luo, some dev) := by
  simp only [checks5, hl, hd, Bool.true_eq_false, if_false]
  refine (if_neg hb).trans ?_
  split_ifs with hop hs
  · rfl
  · obtain ⟨hinc, hsrc⟩ := h.resolve_left hop
    exact absurd hs (by simp [hinc, Option.isNone_eq_false_iff.mpr hsrc])
  · rfl

end

/-! ### Check 6: the duplicate window (R145) -/

section
variable {u : Sys} {dev : Nat} {p : Packet} {r : Src} (hr : getSrcDev u dev = some r)
include hr

/-- What is answered to a packet whose number was done before. -/
theorem checkDup_done (hd : osnDone r p.osn = true) : checkDup u dev p =
    let v := count u 86 0x02 1
    if (p.op = 5 ∨ p.op = 6) ∧ resultOf v dev p.osn = none then (fatal v p 6, false)
    else (ack v p ((resultOf v dev p.osn).getD 0), false) := by
  simp only [checkDup, hr, hd, if_true]

variable (hd : osnDone r p.osn = false)
include hd

theorem checkDup_ahead (ha : 1024 < osnDiff p.osn r.hc) : checkDup u dev p = (nack u p 1 0 8, false) := by
  simp only [checkDup, hr, hd, ha, Bool.false_eq_true, if_false, if_true]

theorem checkDup_fresh (ha : ¬ 1024 < osnDiff p.osn r.hc) : checkDup u dev p = (u, true) := by
  simp only [checkDup, hr, hd, ha, Bool.false_eq_true, if_false]

end

/-! ### Check 7: the state of the destination context -/

theorem checkCtx_absent {u : Sys} {p : Packet} (hx : getCtx u p.dctx = none) : checkCtx u p = (fatal u p 4, false) := by
  simp only [checkCtx, hx]

section
variable {u : Sys} {p : Packet} {x : Ctx} (hx : getCtx u p.dctx = some x)
include hx

theorem checkCtx_closed (h : x.st = .created ∨ x.hp ≠ portOf p) : checkCtx u p = (fatal u p 4, false) := by
  simp only [checkCtx, hx]
  exact if_pos h

theorem checkCtx_ending (h : ¬ (x.st = .created ∨ x.hp ≠ portOf p)) (ha : x.st ≠ .active) (hs : x.st ≠ .stalled) :
    checkCtx u p = (fatal u p 2, false) := by
  simp only [checkCtx, hx]
  exact (if_neg h).trans (if_neg (not_or.mpr ⟨ha, hs⟩))

theorem checkCtx_live (hport : x.hp = portOf p) (hst : x.st = .active ∨ x.st = .stalled) : checkCtx u p = (u, true) := by
  have hopen : ¬ (x.st = .created ∨ x.hp ≠ portOf p) := by
    rcases hst with h | h <;> simp [h, hport]
  simp only [checkCtx, hx]
  exact (if_neg hopen).trans (if_pos hst)

end

/-! ### A request through its checks (R144) -/

/-- A request that has passed checks 1 to 5: checks 6 and 7 where its row takes them, and what the row does with it. -/
def afterFive (dup ctx : Bool) (body : Sys → Nat → Packet → Sys) (u : Sys) (dev : Nat) (p : Packet) : Sys :=
  match (if dup then checkDup u dev p else (u, true)) with
  | (v, false) => v
  | (v, true) =>
    match (if ctx then checkCtx v p else (v, true)) with
    | (w, false) => w
    | (w, true) => body w dev p

section
variable {dup ctx : Bool} {body : Sys → Nat → Packet → Sys} {u v : Sys} {dev : Nat} {p : Packet}

theorem afterFive_answered (hdup : dup = true) (h : checkDup u dev p = (v, false)) : afterFive dup ctx body u dev p = v := by
  simp only [afterFive, hdup, if_true, h]

theorem afterFive_fresh (h : dup = true → checkDup u dev p = (u, true)) :
    afterFive dup ctx body u dev p = afterFive false ctx body u dev p := by
  cases dup with
  | false => rfl
  | true => simp only [afterFive, h rfl, if_true, Bool.false_eq_true, if_false]

theorem afterFive_refused (hctx : ctx = true) (h : checkCtx u p = (v, false)) : afterFive false ctx body u dev p = v := by
  simp only [afterFive, hctx, Bool.false_eq_true, if_false, if_true, h]

theorem afterFive_served (h : ctx = true → checkCtx u p = (u, true)) : afterFive false ctx body u dev p = body u dev p := by
  cases ctx with
  | false => rfl
  | true => simp only [afterFive, h rfl, Bool.false_eq_true, if_false, if_true]

end

section
variable {s t u : Sys} {hp : Nat} {fam : Nat → Bool} {dup ctx : Bool} {body : Sys → Nat → Packet → Sys}

theorem inbound_none (h : takeEj s hp fam = none) : inbound s hp fam dup ctx body = s := by
  simp only [inbound, h]

theorem inbound_old (h : takeEj s hp fam = some (t, none)) : inbound s hp fam dup ctx body = t := by
  simp only [inbound, h]

variable {p : Packet} (ht : takeEj s hp fam = some (t, some p))
include ht

theorem inbound_dropped (h : lenCheck p = false ∨ senderDev t p = none) :
    inbound s hp fam dup ctx body = settle (trace (count t 86 0x01 1) p 8 (ejCx s hp) 0x01) := by
  have hlost : (lenCheck p && (senderDev t p).isSome) = false := by
    rcases h with h | h <;> simp [h]
  simp only [inbound, ht, checks5_dropped h, hlost, Bool.false_eq_true, if_false]

theorem inbound_refused {dev : Nat} (hl : lenCheck p = true) (hd : senderDev t p = some dev) (h : checks5 t p = (u, none)) :
    inbound s hp fam dup ctx body = settle u := by
  simp only [inbound, ht, h, hl, hd, Option.isSome_some, Bool.and_self, if_true]

theorem inbound_passed {dev : Nat} (h : checks5 t p = (u, some dev)) :
    inbound s hp fam dup ctx body = settle (afterFive dup ctx body u dev p) := by
  simp only [inbound, ht, h]
  rfl

end

/-! ### Keys and regions (Table 5.5) -/

theorem readRegion_closed {u : Sys} {p : Packet} (h : (getFn u (portOf p) 0).bme = false ∨ (getHp u (portOf p)).a.up = false) :
    readRegion u p = nack u p 2 0 64 := by
  refine if_pos ?_
  rcases h with h | h <;> simp [h]

section
variable {s : Sys} {p : Packet} {need extent : Nat} {go : Sys → Region → Sys}

theorem keyChecks_miss (ht : checkTid s p = true) (hm : regionMiss s p = true) : keyChecks s p need extent go = readRegion s p :=
  if_pos (by simp [ht, hm])

variable (h : checkTid s p = false ∨ regionMiss s p = false)
include h

theorem keyChecks_held : keyChecks s p need extent go = (checkKey s p need extent).elim (fatal s p 4) (go s) := by
  have hno : ¬ (checkTid s p && regionMiss s p) = true := by
    rcases h with h | h <;> simp [h]
  refine (if_neg hno).trans ?_
  cases checkKey s p need extent <;> rfl

theorem keyChecks_refused (hk : checkKey s p need extent = none) : keyChecks s p need extent go = fatal s p 4 := by
  rw [keyChecks_held h, hk, Option.elim_none]

theorem keyChecks_passed {r : Region} (hk : checkKey s p need extent = some r) : keyChecks s p need extent go = go s r := by
  rw [keyChecks_held h, hk, Option.elim_some]

end

/-! ### What a request does that passes (R142, R146, R148, R172) -/

/-- A PUT is held back by no event ring: its key checks follow at once. -/
theorem putIn_put {u : Sys} {dev : Nat} {p : Packet} (hop : p.op = 1) : putIn u dev p =
    keyChecks (asmTouch u dev p) p 1 p.plen fun s r =>
      startAcc s p.dctx .iwrite ((r.base + p.offset) % 2 ^ 64) p.payload.length p.payload p.sfeid (.checkIn p) none :=
  if_neg (by simp [hop])

/-- The access that writes a packet of an assembly entry at the bus addresses found for it. -/
def placeAcc (u : Sys) (p : Packet) (bus : List (Nat × Nat)) : Acc :=
  { id := u.xl.nextAcc, ctx := p.dctx, hp := portOf p, fn := ((getCtx u p.dctx).map (·.fn)).getD 0, kind := .iwrite, addr := 0,
    len := p.payload.length, data := p.payload, sfeid := p.sfeid, cont := .place p, bus, walk := none, got := [], want := 0, steer := none,
    held := false, retry := none }

/-- The device that tracks one more access. -/
def withAcc (u : Sys) (a : Acc) : Sys := { u with xl := { u.xl with accs := u.xl.accs ++ [a], nextAcc := u.xl.nextAcc + 1 } }

section
variable {u : Sys} {dev : Nat} {p : Packet} {bus : List (Nat × Nat)}

theorem putAdmit_repeated (hh : asmHas u dev p = true) : putAdmit u dev p bus = u := if_pos hh

variable (hh : asmHas u dev p = false)
include hh

theorem putAdmit_full (hf : asmFull u dev p.osn = true) : putAdmit u dev p bus = retryLater u p 4 := by
  simp only [putAdmit, hh, hf, Bool.false_eq_true, if_false, if_true]

variable (hf : asmFull u dev p.osn = false)
include hf

theorem putAdmit_empty (hp : p.payload = []) : putAdmit u dev p bus = asmMark (asmTake u dev p) dev p := by
  simp only [putAdmit, hh, hf, hp, List.isEmpty_nil, Bool.false_eq_true, if_false, if_true]

theorem putAdmit_places (hp : p.payload ≠ []) : putAdmit u dev p bus =
    perform (withAcc (asmTake u dev p) (placeAcc (asmTake u dev p) p bus)) (placeAcc (asmTake u dev p) p bus) := by
  simp only [putAdmit, hh, hf, List.isEmpty_iff, hp, Bool.false_eq_true, if_false]
  rfl

end

/-- A message is held (R171, R172). -/
theorem isHeld_iff (u : Sys) (m : Msg) : isHeld u m = true ↔
    m.st = .parked ∨ m.st = .unexp ∨ m.recv.isSome = true ∨ ∃ a, getAsm u m.src m.osn = some a ∧ a.due = true := by
  cases hst : m.st <;> cases ha : getAsm u m.src m.osn <;> simp [isHeld, hst, ha]

theorem held_iff (u : Sys) (dev : Nat) (p : Packet) : ((msgOf u dev p.osn).map (isHeld u)).getD false = true ↔
    ∃ m, msgOf u dev p.osn = some m ∧
      (m.st = .parked ∨ m.st = .unexp ∨ m.recv.isSome = true ∨ ∃ a, getAsm u m.src m.osn = some a ∧ a.due = true) := by
  simp only [← isHeld_iff]
  cases msgOf u dev p.osn <;> simp

/-- A PROBE answers with the arrival mask, and with HELD where the message is held. -/
theorem probeIn_eq : probeIn = fun u dev p => sack u p
    (((getAsm u dev p.osn).map (·.mask)).getD 0 + (if (∃ m, msgOf u dev p.osn = some m ∧
      (m.st = .parked ∨ m.st = .unexp ∨ m.recv.isSome = true ∨ (∃ a, getAsm u m.src m.osn = some a ∧ a.due = true))) then 2 ^ 63 else 0)) :=
  funext fun u => funext fun dev => funext fun p =>
    congrArg (fun n => sack u p (((getAsm u dev p.osn).map (·.mask)).getD 0 + n)) (if_congr (held_iff u dev p) rfl rfl)

/-- Settles O48: each check in each of its cases, a row from its checks, and what the eight rows do with what passes. -/
theorem requestsAreReceived : Obligations.RequestsAreReceived := by
  unfold Obligations.RequestsAreReceived
  intro s hp y row
  have hrow {i : Instr} {fam : Nat → Bool} {dup ctx : Bool} {body : Sys → Nat → Packet → Sys}
      (h : exec i s = .next (s.at (inbound s.sys hp fam dup ctx body))) : row i fam dup ctx body := by
    refine ⟨fun ht => exec_run h (inbound_none ht), fun t ht => exec_run h (inbound_old ht), fun t p ht => ⟨fun hlost => ?dropped,
      fun dev hl hd => ⟨fun hb => ?unassigned, fun hb hop hs => ?stranger, fun hb hin => ?passed⟩⟩⟩
    case dropped => exact exec_run h (inbound_dropped ht hlost)
    case unassigned => exact exec_run h (inbound_refused ht hl hd (checks5_unassigned hl hd hb))
    case stranger => exact exec_run h (inbound_refused ht hl hd (checks5_stranger hl hd hb hop hs))
    case passed =>
      have hpass {v : Sys} (hv : afterFive dup ctx body (if p.op = 0x0A then t else luoRelease t dev p.luo) dev p = v) :
          exec i s = .next (s.at (settle v)) :=
        exec_run h ((inbound_passed ht (checks5_passed hl hd hb hin)).trans (congrArg settle hv))
      refine ⟨fun hdup r hr hdone => ⟨fun hgone => ?gone, fun hkept => ?repeated⟩, fun hdup r hr hdone ha => ?ahead, fun hfresh => ?fresh⟩
      case gone => exact hpass (afterFive_answered hdup ((checkDup_done hr hdone).trans (if_pos hgone)))
      case repeated => exact hpass (afterFive_answered hdup ((checkDup_done hr hdone).trans (if_neg hkept)))
      case ahead => exact hpass (afterFive_answered hdup (checkDup_ahead hr hdone ha))
      case fresh =>
        have hskip := afterFive_fresh (ctx := ctx) (body := body) fun hdup =>
          let ⟨_, hr, hdone, ha⟩ := hfresh hdup
          checkDup_fresh hr hdone ha
        refine ⟨fun hctx hx => ?absent, fun hctx x hx => ⟨fun hc => ?closed, fun hc ha hs => ?ending, fun hport hst => ?live⟩,
          fun hctx => ?noCtx⟩
        case absent => exact hpass (hskip.trans (afterFive_refused hctx (checkCtx_absent hx)))
        case closed => exact hpass (hskip.trans (afterFive_refused hctx (checkCtx_closed hx hc)))
        case ending => exact hpass (hskip.trans (afterFive_refused hctx (checkCtx_ending hx hc ha hs)))
        case live => exact hpass (hskip.trans (afterFive_served fun _ => checkCtx_live hx hport hst))
        case noCtx => exact hpass (hskip.trans (afterFive_served fun h => absurd (hctx.symm.trans h) Bool.false_ne_true))
  -- From here on a row is known by `hrow` alone.
  clear_value row
  refine ⟨hrow rfl, hrow rfl, hrow rfl, hrow rfl, hrow rfl, hrow rfl, ?probe, fun f cx p rest he hf => ⟨fun hold => ?old, fun hyoung => ?young,
    ejCx_head he⟩, fun f h => takeEj_none h, fun u p h => readRegion_closed h, hrow rfl, fun u dev p hop => ?put,
    fun u dev p bus => ⟨putAdmit_repeated, putAdmit_full, putAdmit_empty, fun hh hf hp => ?placed⟩⟩
  case probe => exact hrow (exec_run rfl (congrArg (inbound s.sys hp (· == 8) true false) probeIn_eq))
  case old => exact (takeEj_head he hf).trans (if_pos hold)
  case young => exact (takeEj_head he hf).trans (if_neg (Bool.eq_false_iff.mp hyoung))
  case put =>
    refine ⟨fun ht hm => ?missing, fun h => ⟨fun hk => ?refused, fun r hk => ?admitted⟩⟩
    case missing => exact (putIn_put hop).trans (keyChecks_miss ht hm)
    case refused => exact (putIn_put hop).trans (keyChecks_refused h hk)
    case admitted => exact (putIn_put hop).trans (keyChecks_passed h hk)
  case placed => exact ⟨_, _, putAdmit_places hh hf hp, rfl, rfl, rfl, rfl, rfl⟩

end Sys2Proof.Machine
end

section
/-! Responses at the source, completion at the target, and the timers of both (Chapter 6): what each response does in each of its cases, the end of
a segment and its notification, and what the rows of the transport's timers do before and at their time. -/
namespace Sys2Proof.Machine

/-! ### A response from the ejection buffer to its row (R130 to R132, R238) -/

section
variable {s t : Sys} {hp : Nat} {fam : Nat → Bool} {body : Sys → Nat → Packet → Sys}

theorem response_none (h : takeEj s hp fam = none) : response s hp fam body = s := by
  simp only [response, h]

theorem response_old (h : takeEj s hp fam = some (t, none)) : response s hp fam body = t := by
  simp only [response, h]

variable {p : Packet} (ht : takeEj s hp fam = some (t, some p))
include ht

theorem response_passed {dev : Nat} (hl : lenCheck p = true) (hd : senderDev t p = some dev) (hlo : 0x81 ≤ p.op) (hhi : p.op ≤ 0x84)
    (hh : otherPort t hp p = false) : response s hp fam body = settle (body t dev p) := by
  simp only [response, ht, hl, hd, hlo, hhi, hh, and_self, decide_true, Bool.not_false, Bool.and_self]

theorem response_dropped (h : lenCheck p = false ∨ senderDev t p = none ∨ p.op < 0x81 ∨ 0x84 < p.op ∨ ¬ otherPort t hp p = false) :
    response s hp fam body = trace (count t 86 0x01 1) p 8 (ejCx s hp) 0x01 := by
  simp only [response, ht]
  split
  case h_1 dev hl hd hok =>
    obtain ⟨hop, hhere⟩ := (Bool.and_eq_true _ _).mp hok
    obtain ⟨hlo, hhi⟩ := of_decide_eq_true hop
    rcases h with h | h | h | h | h
    · exact absurd (hl.symm.trans h) (by decide)
    · exact absurd (hd.symm.trans h) (by simp)
    · omega
    · omega
    · exact absurd (Bool.not_eq_true' _ |>.mp hhere) h
  case h_2 => rfl

end

/-! ### ACK (R137, R142) -/

/-- The ACK of a SYNC in flight (R142). -/
theorem ackIn_sync {t : Sys} {dev h : Nat} {p q : Packet} (hs : (getPeer t dev).sync = some (h, q)) (ho : p.osn = q.osn)
    (hv : (getPeer t dev).valid = false) : ackIn t dev p = syncDone t dev p := by
  simp only [ackIn, hs, ho, hv, and_self, if_true]

section
variable {t : Sys} {dev : Nat} {p : Packet} {g : Seg} (hs : (getPeer t dev).sync = none) (hi : sameInc t dev p = true)
  (hg : osnSeg t dev p.osn = some g)
include hs hi hg

theorem ackIn_segment (ht : p.tid = tidOf t g.ctx) : ackIn t dev p = takeValue t g p.operand := by
  simp only [ackIn, hs, hi, hg, ht, Bool.true_eq_false, if_false, if_true]

theorem ackIn_otherTenant (ht : p.tid ≠ tidOf t g.ctx) : ackIn t dev p = segFail t g 4 := by
  simp only [ackIn, hs, hi, hg, ht, Bool.true_eq_false, if_false]

end

/-! ### NACK (R143, R151, R152, Table 6.4) -/

/-- A NACK with the status of an unknown incarnation. -/
abbrev nackStale (p : Packet) : Prop := p.operand % 256 = 3 ∧ bits p.operand 8 8 = 3

/-- Such a NACK ends the peer's state, unless it answers a packet of an earlier incarnation. -/
theorem nackIn_stale {t : Sys} {dev : Nat} {p : Packet} (h : nackStale p) : nackIn t dev p =
    if (getPeer t dev).valid = true ∧ bits p.operand 32 12 = (getPeer t dev).tinc then peerReset (pullsReset t dev) dev else t :=
  if_pos h

section
variable {t : Sys} {dev : Nat} {p : Packet} {g : Seg} (hi : sameInc t dev p = true) (hget : bits p.operand 48 8 ≠ 3)
  (hrdv : bits p.operand 48 8 ≠ 0x14) (hret : bits p.operand 48 8 ≠ 9) (hg : osnSeg t dev p.osn = some g)
include hi hget hrdv hret hg

/-- A NACK of a packet of a tracked segment: a refused packet is waited out until the limit of refusals is passed (R152). -/
theorem nackIn_tracked (hn : ¬ nackStale p) : nackIn t dev p =
    let r := nackSeg t g p.pidx (bits p.operand 16 16)
    if p.tid ≠ tidOf t g.ctx then segFail t g 4
    else if p.operand % 256 = 1 ∨ p.operand % 256 = 2 then (if r.2 = true then segFail r.1 g 10 else r.1)
    else if p.operand % 256 = 3 then segFail t g (if bits p.operand 8 8 = 0 ∨ 10 < bits p.operand 8 8 then 4 else bits p.operand 8 8)
    else t := by
  simp only [nackIn, hn, hi, hget, hrdv, hret, hg, Bool.true_eq_false, false_and, or_self, if_false]
  rcases nackSeg t g p.pidx (bits p.operand 16 16) with ⟨u, _ | _⟩ <;> rfl

theorem nackIn_otherTenant (hn : ¬ nackStale p) (ht : p.tid ≠ tidOf t g.ctx) : nackIn t dev p = segFail t g 4 :=
  (nackIn_tracked hi hget hrdv hret hg hn).trans (if_pos ht)

variable (ht : p.tid = tidOf t g.ctx)
include ht

theorem nackIn_waits (hc : p.operand % 256 = 1 ∨ p.operand % 256 = 2) : nackIn t dev p =
    let r := nackSeg t g p.pidx (bits p.operand 16 16)
    if r.2 = true then segFail r.1 g 10 else r.1 := by
  have hn : ¬ nackStale p := fun ⟨h, _⟩ => by omega
  exact (nackIn_tracked hi hget hrdv hret hg hn).trans ((if_neg (not_not.mpr ht)).trans (if_pos hc))

theorem nackIn_fatal (hc : p.operand % 256 = 3) (hst : bits p.operand 8 8 ≠ 3) : nackIn t dev p =
    segFail t g (if bits p.operand 8 8 = 0 ∨ 10 < bits p.operand 8 8 then 4 else bits p.operand 8 8) := by
  have hn : ¬ nackStale p := fun ⟨_, h⟩ => hst h
  have hwait : ¬ (p.operand % 256 = 1 ∨ p.operand % 256 = 2) := by omega
  exact (nackIn_tracked hi hget hrdv hret hg hn).trans ((if_neg (not_not.mpr ht)).trans ((if_neg hwait).trans (if_pos hc)))

end

/-! ### SACK and GET_RESP (R136, R151, R171, R173) -/

theorem sackIn_otherInc {t : Sys} {dev : Nat} {p : Packet} (h : sameInc t dev p = false) : sackIn t dev p = t := if_pos h

theorem respIn_otherInc {t : Sys} {dev : Nat} {p : Packet} (h : sameInc t dev p = false) : respIn t dev p = t := if_pos h

theorem sackIn_otherTenant {t : Sys} {dev : Nat} {p : Packet} {g : Seg} (hi : sameInc t dev p = true) (hg : osnSeg t dev p.osn = some g)
    (ht : p.tid ≠ tidOf t g.ctx) : sackIn t dev p = segFail t g 4 := by
  simp only [sackIn, hi, hg, ht, Bool.true_eq_false, ne_eq, not_false_eq_true, if_false, if_true]

/-- The source once a packet of a segment's data has come: the packet is noted, and the timer starts anew. -/
def respNoted (t : Sys) (g : Seg) (p : Packet) : Sys :=
  refreshSeg (modSeg t g.idx fun x => { x with mask := x.mask ||| 2 ^ p.pidx }) g.idx

section
variable {t : Sys} {dev : Nat} {p : Packet} {g : Seg} (hi : sameInc t dev p = true) (hg : tagSeg t dev p.osn = some g)
include hi hg

theorem respIn_otherTenant (ht : p.tid ≠ tidOf t g.ctx) : respIn t dev p = segFail t g 4 := by
  simp only [respIn, hi, hg, ht, Bool.true_eq_false, ne_eq, not_false_eq_true, if_false, if_true]

variable (ht : p.tid = tidOf t g.ctx) (hle : p.pidx ≤ g.pcnt) (hm : g.mask.testBit p.pidx = false)
include ht hle hm

/-- A wanted packet without data, of a pull one that lies wholly above the receive's LENGTH. -/
theorem respIn_empty (hd : landData (respNoted t g p) g p = []) : respIn t dev p = landCheck (respNoted t g p) g.idx := by
  have hwanted : ¬ (g.pcnt < p.pidx ∨ g.mask.testBit p.pidx = true) := by simp [hle, hm]
  simp only [respNoted] at hd ⊢
  simp only [respIn, hi, hg, ht, hwanted, hd, List.isEmpty_nil, Bool.true_eq_false, ne_eq, not_true_eq_false, if_false, if_true]

/-- A wanted packet's data is written where it belongs. -/
theorem respIn_lands {c addr : Nat} {steer : Option Nat} (hd : landData (respNoted t g p) g p ≠ [])
    (hl : landing (respNoted t g p) g p = some (c, addr, steer)) : respIn t dev p =
      startAcc (modSeg (respNoted t g p) g.idx fun x => { x with writes := x.writes + 1 }) c .lwrite addr
        (landData (respNoted t g p) g p).length (landData (respNoted t g p) g p) p.sfeid (.land p) steer := by
  have hwanted : ¬ (g.pcnt < p.pidx ∨ g.mask.testBit p.pidx = true) := by simp [hle, hm]
  simp only [respNoted] at hd hl ⊢
  simp only [respIn, hi, hg, ht, hwanted, List.isEmpty_iff, hd, hl, Bool.true_eq_false, ne_eq, not_true_eq_false, if_false]

end

/-! ### Completion at the target (R135, R147, R148) -/

/-- The value of a fetching atomic is kept for its source (R149). -/
def keepResult (y : Sys) (src osn : Nat) (a : Asm) : Sys :=
  if a.head.op = 5 ∨ a.head.op = 6 then
    { y with te := { y.te with results := y.te.results ++ [{ src, osn, value := a.value, start := frame y }] } } else y

/-- The notification of a PUT_IMM whose final segment an assembly entry holds (R135): for the ring of the context written to. -/
def putImmEvent (a : Asm) : Ev :=
  let n := max 1 ((a.head.msglen + 262143) / 262144)
  let seg0 := (a.head.offset + 2 ^ 64 - 4096 * a.head.pidx) % 2 ^ 64
  { Ev.zero a.head.dctx with type := 0x81, len := a.head.msglen, w16 := (seg0 + 2 ^ 64 - 262144 * (n - 1)) % 2 ^ 64, imm := a.imm,
                             w28 := evW28 true (some a.head.sfeid) none }

section
variable {y : Sys} {src osn : Nat} {a : Asm} (ha : getAsm y src osn = some a)
include ha

theorem segmentCompleteAck_partial (hf : a.full = false) : segmentCompleteAck y src osn = y := by
  simp only [segmentCompleteAck, ha, hf, true_or, if_true]

theorem finalSegmentNotify_partial (hf : a.full = false) : finalSegmentNotify y src osn = y := by
  simp only [finalSegmentNotify, ha, hf, true_or, if_true]

theorem segmentCompleteAck_whole (hf : a.full = true) (hi : isFinalImm a.head = false) (hs : isSend a.head.op = false) :
    segmentCompleteAck y src osn = segDone (keepResult y src osn a) a a.value := by
  simp only [segmentCompleteAck, ha, hf, hi, hs, Bool.true_eq_false, Bool.false_eq_true, or_self, if_false, keepResult]

/-- Without a STEER set the notification goes to the ring of the context itself (log entry 70). -/
theorem finalSegmentNotify_whole (hf : a.full = true) (hi : isFinalImm a.head = true) (hd : a.due = false) (he : earlierDone y a = true)
    (hs : steerSet y a.head.dctx = none) : finalSegmentNotify y src osn =
      eventDue (modAsm y src osn fun x => { x with due := true }) a.head.dctx (putImmEvent a) (some (src, osn)) := by
  simp only [finalSegmentNotify, ha, hf, hi, hd, he, hs, Bool.true_eq_false, Bool.false_eq_true, or_self, if_false]
  rfl

end

/-! ### The age of an assembly entry (R146) -/

theorem Asm.waits_iff (a : Asm) :
    a.waits = true ↔ a.due = true ∨ ∀ j, j ≤ a.head.pcnt → a.mask.testBit j = true ∨ a.placed.testBit j = true := by
  simp [Asm.waits]

section
variable {f : FuseBank} {y : Sys} {src osn : Nat} {a : Asm} (ha : getAsm y src osn = some a)
include ha

theorem runAssemblyTimeout_some : runAssemblyTimeout f y src osn =
    if a.waits = false ∧ a.last + 200 ≤ frame y then dropAsm y src osn else y := by
  simp only [runAssemblyTimeout, ha]

/-- An entry that lacks a packet is freed at its time. -/
theorem runAssemblyTimeout_frees (hd : a.due = false) (hm : ∃ j, j ≤ a.head.pcnt ∧ a.mask.testBit j = false ∧ a.placed.testBit j = false)
    (hl : a.last + 200 ≤ frame y) : runAssemblyTimeout f y src osn = dropAsm y src osn := by
  have hwaits : a.waits = false := Bool.eq_false_iff.mpr fun hw => by
    obtain ⟨j, hj, hmask, hplaced⟩ := hm
    rcases a.waits_iff.mp hw with h | h
    · simp [h] at hd
    · simpa [hmask, hplaced] using h j hj
  exact (runAssemblyTimeout_some ha).trans (if_pos ⟨hwaits, hl⟩)

/-- An entry whose end waits, that lacks no packet, or whose time has not come, stays. -/
theorem runAssemblyTimeout_keeps
    (h : a.due = true ∨ (∀ j, j ≤ a.head.pcnt → a.mask.testBit j = true ∨ a.placed.testBit j = true) ∨ frame y < a.last + 200) :
    runAssemblyTimeout f y src osn = y := by
  refine (runAssemblyTimeout_some ha).trans (if_neg fun ⟨hwaits, hl⟩ => ?_)
  rcases or_assoc.mpr h with h | h
  · exact Bool.eq_false_iff.mp hwaits (a.waits_iff.mpr h)
  · omega

end

/-! ### The timers of a segment (R150, R152) -/

section
variable {f : FuseBank} {y : Sys} {k : Nat} {g : Seg} (hk : k < 131072) (hg : getSeg y k = some g)
include hk hg

theorem runSegmentTimeout_due (ht : g.timed = true) (hw : g.start + waitOf g.tv g.retry ≤ frame y) :
    runSegmentTimeout f y k = settle (if g.tv.2 ≤ g.retry then segFail y g 6 else retrySeg y g) := by
  simp only [runSegmentTimeout, hk, hg, ht, Nat.not_lt.mpr hw, Bool.true_eq_false, or_self, if_true, if_false]

theorem runSegmentTimeout_early (h : g.timed = false ∨ frame y < g.start + waitOf g.tv g.retry) : runSegmentTimeout f y k = settle y := by
  simp only [runSegmentTimeout, hk, hg, h, if_true]

/-- The wait of a refused packet is over: the packet is built and sent again. -/
theorem runNackRetryWaitExpiry_due {i n d : Nat} (he : (i, n, some d) ∈ g.nacks) (hd : d ≤ frame y) (ho : g.kind = .osn) :
    runNackRetryWaitExpiry f y k i = settle (buildMore (modSeg y k fun x =>
      { x with nacks := x.nacks.map fun e => if e.1 = i then (e.1, e.2.1, none) else e }) k) := by
  simp only [runNackRetryWaitExpiry, hk, hg, if_true]
  exact congrArg settle ((if_pos (List.any_eq_true.mpr ⟨_, he, by simp [hd]⟩)).trans (by simp only [ho]))

end

/-- Settles O49: a response row from what `response` does, each response in each of its cases, and the rows of completion and of the timers. -/
theorem segmentsCompleteAndAreRepeated : Obligations.SegmentsCompleteAndAreRepeated := by
  unfold Obligations.SegmentsCompleteAndAreRepeated
  intro s hp y row
  have hrow {i : Instr} {fam : Nat → Bool} {body : Sys → Nat → Packet → Sys} (h : exec i s = .next (s.at (response s.sys hp fam body))) :
      row i fam body :=
    ⟨fun ht => exec_run h (response_none ht), fun t ht => exec_run h (response_old ht), fun t p ht =>
      ⟨fun dev hl hd hlo hhi hh => exec_run h (response_passed ht hl hd hlo hhi hh), fun hlost => exec_run h (response_dropped ht hlost)⟩⟩
  -- From here on a row is known by `hrow` alone.
  clear_value row
  refine ⟨hrow rfl, hrow rfl, hrow rfl, hrow rfl, fun t dev p => ⟨fun h q hs ho hv => ackIn_sync hs ho hv,
    fun hs hi g hg ht => ackIn_segment hs hi hg ht, fun hi hget hrdv hret g hg ht => ?refused, fun hc hst => ?stale,
    fun hs hi g hg ht => ?otherTenant, fun hi g hg ht => respIn_otherTenant hi hg ht, fun hi => ⟨sackIn_otherInc hi, respIn_otherInc hi⟩,
    fun hi g hg ht hle hm => ?data⟩, fun src osn a ha => ?assembly, fun src osn => rfl, fun k g hk hg => ?timers⟩
  case refused => exact ⟨fun hc => nackIn_waits hi hget hrdv hret hg ht hc, fun hc hst => nackIn_fatal hi hget hrdv hret hg ht hc hst⟩
  case stale =>
    refine ⟨fun hv hinc => (nackIn_stale ⟨hc, hst⟩).trans (if_pos ⟨hv, hinc⟩), fun h => (nackIn_stale ⟨hc, hst⟩).trans (if_neg ?_)⟩
    rintro ⟨hv, hinc⟩
    exact h.elim (fun h => absurd (hv.symm.trans h) (by decide)) fun h => h hinc
  case otherTenant =>
    exact ⟨ackIn_otherTenant hs hi hg ht, sackIn_otherTenant hi hg ht, fun hget hrdv hret hn => nackIn_otherTenant hi hget hrdv hret hg hn ht⟩
  case data =>
    exact ⟨fun hd => respIn_empty hi hg ht hle hm hd, fun hd c addr steer hl => respIn_lands hi hg ht hle hm hd hl⟩
  case assembly =>
    exact ⟨fun hf hi hs => exec_run rfl (congrArg settle (segmentCompleteAck_whole ha hf hi hs)),
      fun hf hi hd he hs => exec_run rfl (congrArg settle (finalSegmentNotify_whole ha hf hi hd he hs)),
      fun hf => ⟨exec_run rfl (congrArg settle (segmentCompleteAck_partial ha hf)),
        exec_run rfl (congrArg settle (finalSegmentNotify_partial ha hf))⟩,
      fun hd hm hl => exec_run rfl (runAssemblyTimeout_frees ha hd hm hl), fun h => exec_run rfl (runAssemblyTimeout_keeps ha h)⟩
  case timers =>
    exact ⟨fun ht hw => exec_run rfl (runSegmentTimeout_due hk hg ht hw), fun h => exec_run rfl (runSegmentTimeout_early hk hg h),
      fun i n d he hd ho => exec_run rfl (runNackRetryWaitExpiry_due hk hg he hd ho)⟩

end Sys2Proof.Machine
end
section
/-! The queries of one object (CTX_QUERY, ME_QUERY, COMM_QUERY, PSET_QUERY, PE_ROUTE_QUERY): what each body answers of an object that exists and of
one that does not. -/
namespace Sys2Proof.Machine

/-! ### What a context shows (Tables 5.3 and 7.10) -/

/-- CTX_QUERY's answer for a context in use (Table 5.3). -/
def ctxBytes (y : Sys) (c : Nat) (x : Ctx) : Bytes :=
  le 1 x.st.code ++ le 1 (stallBits x) ++ le 2 x.pd ++ le 2 x.slot ++ le 2 x.head ++ le 4 (heldFault y c) ++
    le 4 (y.te.segs.filter fun g => g.ctx == c).length

/-- ME_QUERY's answer (Table 7.10). -/
def matchBytes (y : Sys) (c : Nat) (x : Ctx) : Bytes :=
  le 2 x.posted.length ++ le 2 (unexpOf y c).length ++ le 4 (onChip y c) ++ le 4 (ovfUsed x) ++ le 2 x.deferred.length ++ zeros 2

section
variable {f : FuseBank} {y : Sys} {q : MbxReq}

theorem bodyCtxQuery_some {x : Ctx} (hx : getCtx y (arg0 q.payload) = some x) :
    bodyCtxQuery f y q = .done y (ctxBytes y (arg0 q.payload) x) := by
  simp only [bodyCtxQuery, hx, ctxBytes]

/-- A FREE context shows zeros (R97). -/
theorem bodyCtxQuery_none (hx : getCtx y (arg0 q.payload) = none) : bodyCtxQuery f y q = .done y (zeros 16) := by
  simp only [bodyCtxQuery, hx]

theorem bodyMeQuery_some {x : Ctx} (hx : getCtx y (arg0 q.payload) = some x) :
    bodyMeQuery f y q = .done y (matchBytes y (arg0 q.payload) x) := by
  simp only [bodyMeQuery, hx, matchBytes]

theorem bodyMeQuery_none (hx : getCtx y (arg0 q.payload) = none) : bodyMeQuery f y q = .no .stateConflict := by
  simp only [bodyMeQuery, hx]

/-! ### Communicators and path sets (Tables 8.10 and 9.7) -/

theorem bodyCommQuery_some {c : Comm} {m : ColMember} (hm : memberOf y (num q.payload 2 2) (arg0 q.payload) = some (c, m)) :
    bodyCommQuery f y q = .done y (commBytes c m) := by
  simp only [bodyCommQuery, hm]

theorem bodyCommQuery_none (hm : memberOf y (num q.payload 2 2) (arg0 q.payload) = none) : bodyCommQuery f y q = .no .stateConflict := by
  simp only [bodyCommQuery, hm]

theorem bodyPsetQuery_some {p : Pset} (hp : getSet y (arg0 q.payload) = some p) : bodyPsetQuery f y q = .done y (psetBytes p) := by
  simp only [bodyPsetQuery, hp]

end

/-- Settles O9: each body in each of its cases, all on the device as the use of the session left it; the candidates of PE_ROUTE_QUERY are read
    whatever the state. -/
theorem contextQueriesAnswer : Obligations.ContextQueriesAnswer := by
  unfold Obligations.ContextQueriesAnswer
  intro s q
  refine ⟨fun h => ⟨fun x hx => ?ctx, fun hx => ?ctxFree⟩, fun h => ⟨fun x hx => ?matching, fun hx => ?matchingFree⟩,
    fun h => ⟨fun c m hm => ?comm, fun hm => ?commNoMember⟩, fun h p hp => ?pset, fun h => ?peRoute⟩
  case ctx => exact run_done rfl rfl h (bodyCtxQuery_some hx)
  case ctxFree => exact run_done rfl rfl h (bodyCtxQuery_none hx)
  case matching => exact run_done rfl rfl h (bodyMeQuery_some hx)
  case matchingFree => exact run_no rfl h (bodyMeQuery_none hx)
  case comm => exact run_done rfl rfl h (bodyCommQuery_some hm)
  case commNoMember => exact run_no rfl h (bodyCommQuery_none hm)
  case pset => exact run_done rfl rfl h (bodyPsetQuery_some hp)
  case peRoute => exact run_done rfl rfl h rfl

end Sys2Proof.Machine
end

section
/-! Collective communicators (Chapter 8): joining and leaving by command, and the packets and timers of a creation, in each of their cases. -/
namespace Sys2Proof.Machine

/-! ### COMM_CREATE and COMM_DESTROY (R186, R187, R211) -/

/-- The communicator that a COMM_CREATE of a context finds under an MGID, or makes. -/
def commFor (y : Sys) (k ctx : Nat) : Comm := (getComm y k).getD (Comm.new (ctxTid y ctx) (epoch y + y.ce.joinEpochs))

/-- A context may join a communicator. -/
def mayJoin (y : Sys) (c : Comm) (x : Ctx) (ctx : Nat) : Prop :=
  (x.st = .created ∨ x.st = .active) ∧ c.st = .joining ∧ ∀ m ∈ c.members, m.ctx ≠ ctx ∧ m.feid ≠ ctxFeid y x

/-- The member that a COMM_CREATE adds. -/
def joiningMember (y : Sys) (x : Ctx) (b : Bytes) : ColMember :=
  { rank := num b 8 4, feid := ctxFeid y x, ctx := arg0 b, digest := [], nmemb := num b 4 4, slotLog := num b 12 1, depth := num b 13 1,
    ready := false, nextCseq := 0, reading := [] }

theorem mayJoin_iff (y : Sys) (c : Comm) (x : Ctx) (ctx : Nat) : mayJoin y c x ctx ↔
    ¬ ((x.st ≠ .created ∧ x.st ≠ .active) ∨ c.st ≠ .joining ∨ c.members.any (fun m => m.ctx == ctx || m.feid == ctxFeid y x) = true) := by
  simp [mayJoin, or_iff_not_imp_left]

section
variable {f : FuseBank} {y : Sys} {q : MbxReq} {x : Ctx} (hx : getCtx y (arg0 q.payload) = some x)
include hx

theorem bodyCommCreate_joins (h : mayJoin y (commFor y (num q.payload 2 2) (arg0 q.payload)) x (arg0 q.payload)) :
    bodyCommCreate f y q =
      let c := commFor y (num q.payload 2 2) (arg0 q.payload)
      .wait (startAcc { y with ce := { y.ce with
            comms := tset y.ce.comms (num q.payload 2 2) { c with members := c.members ++ [joiningMember y x q.payload] } } }
          (arg0 q.payload) .lread (num q.payload 16 8) (4 * num q.payload 4 4) [] 0 (.colList (num q.payload 2 2) (arg0 q.payload) 0) none)
        (.commCreate (num q.payload 2 2) (arg0 q.payload)) := by
  simp only [bodyCommCreate, hx]
  exact if_neg ((mayJoin_iff ..).mp h)

theorem bodyCommCreate_conflict (h : ¬ mayJoin y (commFor y (num q.payload 2 2) (arg0 q.payload)) x (arg0 q.payload)) :
    bodyCommCreate f y q = .no .stateConflict := by
  simp only [bodyCommCreate, hx]
  exact if_pos (not_not.mp fun hn => h ((mayJoin_iff ..).mpr hn))

end

theorem bodyCommDestroy_member {f : FuseBank} {y : Sys} {q : MbxReq} {r : Comm × ColMember}
    (h : memberOf y (num q.payload 2 2) (arg0 q.payload) = some r) :
    bodyCommDestroy f y q = .done (leave y (num q.payload 2 2) (arg0 q.payload)) [] := by
  simp only [bodyCommDestroy, h]

theorem bodyCommDestroy_stranger {f : FuseBank} {y : Sys} {q : MbxReq} (h : memberOf y (num q.payload 2 2) (arg0 q.payload) = none) :
    bodyCommDestroy f y q = .no .stateConflict := by
  simp only [bodyCommDestroy, h]

/-- Settles O23: both bodies in each of their cases. -/
theorem communicatorsAreJoinedAndLeft : Obligations.CommunicatorsAreJoinedAndLeft := by
  unfold Obligations.CommunicatorsAreJoinedAndLeft
  intro s q
  refine ⟨fun h hw x hx => ⟨fun hmay => ?joins, fun hmay => ?conflict⟩, fun h hw => ⟨fun r hr => ?leaves, fun hr => ?stranger⟩⟩
  case joins => exact then_wait rfl h hw (bodyCommCreate_joins hx hmay)
  case conflict => exact then_no rfl h (bodyCommCreate_conflict hx hmay)
  case leaves => exact then_slow rfl (by decide) h hw (bodyCommDestroy_member hr)
  case stranger => exact then_no rfl h (bodyCommDestroy_stranger hr)

/-! ### A packet of the collective engine from its arrival to its row (R204, R205, R262) -/

section
variable {s t : Sys} {ok : Nat → Bool} {act : Sys → Nat → Comm → Packet → Sys} {cx : Nat} {p : Packet}

theorem colRow_none (h : colTake s ok = none) : colRow s ok act = s := by
  simp only [colRow, h]

variable (ht : colTake s ok = some (cx, p, t))
include ht

theorem colRow_old (ho : tooOld t p = true) : colRow s ok act = trace (count t cx 0x10 1) p 8 cx 0x10 := by
  simp only [colRow, ht, ho, if_true]

variable (ho : tooOld t p = false)
include ho

theorem colRow_dropped (ha : colAdmit (trace t p 5 cx 0) p = none) : colRow s ok act = colDrop (trace t p 5 cx 0) cx p := by
  simp only [colRow, ht, ho, Bool.false_eq_true, if_false, ha]

theorem colRow_admitted {c : Comm} (ha : colAdmit (trace t p 5 cx 0) p = some c) :
    colRow s ok act = act (colHeard (trace t p 5 cx 0) c p) cx c p := by
  simp only [colRow, ht, ho, Bool.false_eq_true, if_false, ha]

end

/-- A row of the collective engine in each of its cases. -/
theorem exec_colRow {i : Instr} {s : State} {ok : Nat → Bool} {fin : Sys → Sys} {act : Sys → Nat → Comm → Packet → Sys}
    (h : exec i s = .next (s.at (fin (colRow s.sys ok act)))) :
    (colTake s.sys ok = none → exec i s = .next (s.at (fin s.sys))) ∧
    ∀ cx p t, colTake s.sys ok = some (cx, p, t) → let u := trace t p 5 cx 0
      (tooOld t p = true → exec i s = .next (s.at (fin (trace (count t cx 0x10 1) p 8 cx 0x10)))) ∧
      (tooOld t p = false → colAdmit u p = none → exec i s = .next (s.at (fin (colDrop u cx p)))) ∧
      (tooOld t p = false → ∀ c, colAdmit u p = some c → exec i s = .next (s.at (fin (act (colHeard u c p) cx c p)))) := by
  refine ⟨fun hn => ?none, fun cx p t ht => ⟨fun ho => ?old, fun ho ha => ?dropped, fun ho c ha => ?admitted⟩⟩
  case none => rw [h, colRow_none hn]
  case old => rw [h, colRow_old ht ho]
  case dropped => rw [h, colRow_dropped ht ho ha]
  case admitted => rw [h, colRow_admitted ht ho ha]

/-! ### The packets of a creation (R187, R188) -/

/-- A COL_JOIN names the values that the communicator has. -/
def joinAgrees (c : Comm) (p : Packet) : Bool :=
  sub p.payload 0 8 == c.digest && num p.payload 8 4 == c.n && num p.payload 12 1 == c.slotLog && num p.payload 13 1 == c.depth

/-- The leader has noted a COL_JOIN. -/
def joinNoted (u : Sys) (p : Packet) : Sys :=
  modComm u p.dctx fun c => { c with joins := (c.joins.filter fun j => j.1 != p.sfeid) ++ [(p.sfeid, bits p.operand 16 12)] }

/-- What a COL_JOIN does, case by case. -/
def joinTaken (u : Sys) (cx : Nat) (c : Comm) (p : Packet) : Sys :=
  if c.leader = false ∨ p.payload.length ≠ 16 then colDrop u cx p
  else if c.st ≠ .joining then u
  else if joinAgrees c p = false then failCreate (joinNoted u p) p.dctx 0x0103 true
  else if c.setupSent = true then u
  else treeWanted (joinNoted u p) p.dctx

theorem joinHere_eq : joinHere = joinTaken := by
  funext u cx c p
  have hdef : joinHere u cx c p =
      if c.leader = false ∨ p.payload.length ≠ 16 then colDrop u cx p
      else if c.st ≠ .joining then u
      else if joinAgrees c p = true then (if c.setupSent = true then u else treeWanted (joinNoted u p) p.dctx)
      else failCreate (joinNoted u p) p.dctx 0x0103 true := rfl
  rw [hdef, joinTaken]
  cases joinAgrees c p <;> rfl

theorem execColJoinReceive_eq (s : State) :
    exec .colJoinReceive s = .next (s.at (settle (colRow s.sys (· == 8) joinTaken))) := by
  rw [← joinHere_eq]
  rfl

theorem setupIn_misfit {u : Sys} {p : Packet} (cx : Nat) (c : Comm) (h : p.payload.length ≠ 16 + 4 * num p.payload 6 2) :
    setupIn u cx c p = colDrop u cx p := if_pos h

section
variable {u : Sys} {p : Packet} {c : Comm} (cx : Nat) (hl : p.payload.length = 16 + 4 * num p.payload 6 2)
include hl

theorem setupIn_late (h : c.st ≠ .joining ∨ c.setup = true ∨ c.refused = true) : setupIn u cx c p = u :=
  (if_neg (not_not.mpr hl)).trans (if_pos h)

/-- A COL_SETUP whose sender is the parent teaches the parent's incarnation. -/
theorem setupIn_fromParent (hj : c.st = .joining) (hs : c.setup = false) (hr : c.refused = false)
    (hroot : (num p.payload 0 4).testBit 31 = false) (hp : num p.payload 0 4 % 2 ^ 20 = p.sfeid) :
    setupIn u cx c p =
      setupHere (modComm u p.dctx fun c => { c with joins := [(p.sfeid, num p.payload 8 2 % 4096)] }) p.dctx p.payload := by
  have hfirst : ¬ (c.st ≠ .joining ∨ c.setup = true ∨ c.refused = true) := by simp [hj, hs, hr]
  refine (if_neg (not_not.mpr hl)).trans ((if_neg hfirst).trans ?_)
  simp only [hroot, hp, and_self, if_true]

end

/-- Where the slots or the inputs do not fit, a device that does not lead refuses the set-up and tells the leader so (R187, step 4). -/
theorem setupHere_refused {u : Sys} {k : Nat} {b : Bytes} {c : Comm} (hc : getComm u k = some c) (hj : c.st = .joining) (hs : c.setup = false)
    (hr : c.refused = false) (hlead : c.leader = false)
    (hfull : 65536 < colBlocks u + (c.nlocal + num b 6 2) * c.depth * 2 ^ (c.slotLog - 8) ∨ 1024 < c.nlocal + num b 6 2) :
    setupHere u k b =
      let t := modComm u k fun c => { c with refused := true }
      colSend t (colPkt t k c (c.list.headD 0) ((c.joins.head?.map (·.2)).getD 0) 0x0A 1 []) := by
  have hmisfit : (decide (colBlocks u + (c.nlocal + num b 6 2) * c.depth * 2 ^ (c.slotLog - 8) ≤ 65536) &&
      decide (c.nlocal + num b 6 2 ≤ 1024)) = false := by
    simpa only [Bool.and_eq_false_iff, decide_eq_false_iff_not, Nat.not_le] using hfull
  simp [setupHere, hc, hj, hs, hr, hlead, hmisfit, b2n]

/-! ### COL_GO and the timers of a creation (R187, R188) -/

theorem goHere_idle {u : Sys} {k : Nat} {c : Comm} (hc : getComm u k = some c) (h : c.st ≠ .joining ∨ c.setup = false) (inject : Bool) :
    goHere u k inject = u := by
  simp only [goHere, hc]
  exact if_pos h

/-- A packet that has overtaken COL_GO is taken up. -/
def takeUp (s : Sys) (q : Packet) : Sys :=
  match getComm s q.dctx with
  | some e => downIn s 64 e q
  | none => s

section
variable {u : Sys} {p : Packet} {c : Comm} (hc : getComm u p.dctx = some c)
include hc

theorem goIn_idle (h : c.st ≠ .joining ∨ c.setup = false) : goIn u p = u := by
  have hnot : (c.st == .ready && c.st == .joining) = false := by cases c.st <;> rfl
  simp only [goIn, goHere_idle hc h, hc, Option.map_some, Option.getD_some, hnot, Bool.false_eq_true, if_false]

/-- READY is entered: what has overtaken COL_GO is taken up. -/
theorem goIn_enters (hj : c.st = .joining) {d : Comm} (hd : getComm (goHere u p.dctx (p.rmode != 2)) p.dctx = some d) (hr : d.st = .ready) :
    goIn u p = c.early.foldl takeUp (modComm (goHere u p.dctx (p.rmode != 2)) p.dctx fun e => { e with early := [] }) := by
  simp only [goIn, hc, hd, hj, hr, Option.map_some, Option.getD_some, beq_self_eq_true, Bool.and_self, if_true]
  rfl

end

section
variable {f : FuseBank} {y : Sys} {k : Nat}

theorem runColJoinResend_none (hc : getComm y k = none) : runColJoinResend f y k = y := by
  simp only [runColJoinResend, hc]

theorem runJoinTimerExpiry_none (hc : getComm y k = none) : runJoinTimerExpiry f y k = y := by
  simp only [runJoinTimerExpiry, hc]

variable {c : Comm} (hc : getComm y k = some c)
include hc

theorem runColJoinResend_some {a : Nat} (ha : c.joinAt = some a) : runColJoinResend f y k =
    if c.st = .joining ∧ c.leader = false ∧ c.setup = false ∧ c.refused = false ∧ a + 64 ≤ frame y then sendJoin y k else y := by
  simp only [runColJoinResend, hc, ha]

theorem runJoinTimerExpiry_due (hj : c.st = .joining) (ht : c.started ≤ epoch y) :
    runJoinTimerExpiry f y k = settle (failCreate y k 0x0401 true) := by
  simp only [runJoinTimerExpiry, hc]
  exact if_pos ⟨hj, ht⟩

theorem runJoinTimerExpiry_early (h : c.st ≠ .joining ∨ epoch y < c.started) : runJoinTimerExpiry f y k = y := by
  simp only [runJoinTimerExpiry, hc]
  exact if_neg fun ⟨hj, ht⟩ => h.elim (· hj) (Nat.not_lt.mpr ht)

end

/-- Settles O50: each row through the one lemma for the rows of the engine, and what the row does in each case. -/
theorem collectivesAreCreated : Obligations.CollectivesAreCreated := by
  unfold Obligations.CollectivesAreCreated
  intro s
  refine ⟨exec_colRow (fin := settle) (act := joinTaken) (execColJoinReceive_eq s), exec_colRow (fin := settle) (act := setupIn) rfl,
    exec_colRow (fin := settle) (act := readyIn) rfl,
    exec_colRow (fin := settle) (act := fun u _ _ p => goIn u p) rfl,
    fun u p c hc => ⟨goIn_idle hc, fun hj d hd hr => ?goes⟩, exec_colRow (fin := settle) (act := failIn) rfl,
    fun u cx c p => ⟨setupIn_misfit cx c, setupIn_late cx, setupIn_fromParent cx⟩,
    fun u k b c hc hj hs hr hlead => setupHere_refused hc hj hs hr hlead,
    fun k c hc => ⟨fun a ha => ⟨fun hj hl hs hr ht => ?resend, fun h => ?early⟩, fun hj ht => ?timeout, fun h => ?running⟩,
    fun k hc => ⟨?resendNone, ?timerNone⟩⟩
  case goes => exact goIn_enters hc hj hd hr
  case resend => exact exec_run rfl ((runColJoinResend_some hc ha).trans (if_pos ⟨hj, hl, hs, hr, ht⟩))
  case early =>
    refine exec_run (y := s.sys) rfl ((runColJoinResend_some hc ha).trans (if_neg ?_))
    rintro ⟨hj, hl, hs, hr, ht⟩
    simp [hj, hl, hs, hr, Nat.not_lt.mpr ht] at h
  case timeout => exact exec_run rfl (runJoinTimerExpiry_due hc hj ht)
  case running => exact exec_run (y := s.sys) rfl (runJoinTimerExpiry_early hc h)
  case resendNone => exact exec_run (y := s.sys) rfl (runColJoinResend_none hc)
  case timerNone => exact exec_run (y := s.sys) rfl (runJoinTimerExpiry_none hc)

end Sys2Proof.Machine
end

section
/-! The data of a communicator: two operations of one member under one CSEQ, which the clause on CONTRIBUTION_READ does not tell apart. -/
namespace Sys2Proof.Machine

/-- A SUM over all members of one element of a type, by context 3 under CSEQ 1, of which nothing has been read. -/
def sumOf (etype : Nat) : ColOp :=
  { ctx := 3, seq := 0, event := false, cookie := 0, cseq := 1, saddr := 0, raddr := 0, count := 1, cop := 3, rop := 0, etype, mode := 1,
    root := 0, readX := 0, read := 0, empty := false, done := false, pend := 0, wrote := 0, want := 0, recs := [] }

/-- Context 3 as a member. -/
def soleMember : ColMember :=
  { rank := 0, feid := 1, ctx := 3, digest := [], nmemb := 1, slotLog := 8, depth := 1, ready := true, nextCseq := 2, reading := [] }

/-- A communicator in which context 3 has a 4-byte and an 8-byte operation under the same CSEQ. -/
def twinComm : Comm :=
  { Comm.new 0 0 with st := .ready, n := 1, slotLog := 8, depth := 1, members := [soleMember], nlocal := 1, inputs := [[]],
                      ops := [sumOf 0, sumOf 2] }

/-- The reset device with that communicator under MGID 5. -/
def twinState : State :=
  { State.reset with sys := { State.reset.sys with ce := { State.reset.sys.ce with comms := [(5, twinComm)] } } }

/-- Bytes that the operations of communicator 5 have read. -/
def bytesRead (y : Sys) : Option (List Nat) := (getComm y 5).map fun c => c.ops.map (·.read)

/-- Refutes O51: CONTRIBUTION_READ advances every operation of the member under the chunk's CSEQ by the bytes of the operation that gives the chunk;
    the statement (its inner `o` hides the outer one) has each advance by bytes of its own element size. With a 4-byte and an 8-byte operation under one
    CSEQ, which the statement does not exclude though COL_START gives each operation of a member a CSEQ of its own (R197), the model reads 4 bytes of
    both, where the statement wants 4 and 8. -/
theorem not_collectiveDataMoves : ¬ Obligations.CollectiveDataMoves := by
  unfold Obligations.CollectiveDataMoves
  intro h
  obtain ⟨-, -, -, -, -, -, -, -, hread, -⟩ := h twinState
  have hnext : nextOp twinComm soleMember = some (sumOf 0, .read false 0 0 1) := by decide +kernel
  have hstate := ((hread 5 3 twinComm soleMember rfl rfl).2 rfl (by decide)).2 (sumOf 0) false 0 0 1 hnext
  have hmodel : bytesRead (contribute twinState.sys 5 3) = some [4, 4] := by decide +kernel
  rw [hstate] at hmodel
  exact absurd hmodel (by decide +kernel)

end Sys2Proof.Machine
end

section
/-! The arithmetic of collective operations (R199 to R202): elements and their sizes, the operators on integers and floating point, the way down, the
folding of chunks, and the records and integers of grid mode. -/
namespace Sys2Proof.Machine

/-! ### Integer operators (Table 8.6) -/

theorem combineUp_int {et : Nat} (h : et < 4) (o : AOp) (a b : Nat) :
    combineUp et o a b = intOp (8 * elemSize et) (et == 1 || et == 3) o a b := by
  interval_cases et <;> rfl

theorem signed_inj {w a b : Nat} (ha : a < 2 ^ w) (hb : b < 2 ^ w) (h : signed w a = signed w b) : a = b := by
  have ha' : (a : Int) < 2 ^ w := by exact_mod_cast ha
  have hb' : (b : Int) < 2 ^ w := by exact_mod_cast hb
  unfold signed at h
  split at h <;> split at h <;> omega

/-- What an integer operator orders words by. -/
def ordKey (w : Nat) (sgn : Bool) (a : Nat) : Int := if sgn then signed w a else a

theorem ordKey_inj {w a b : Nat} {sgn : Bool} (ha : a < 2 ^ w) (hb : b < 2 ^ w) (h : ordKey w sgn a = ordKey w sgn b) : a = b := by
  cases sgn with
  | false => exact Int.ofNat_inj.mp h
  | true => exact signed_inj ha hb h

/-- The word of the lesser key; the second one of equals. -/
def lesser (key : Nat → Int) (a b : Nat) : Nat := if key a < key b then a else b

theorem lesser_comm {key : Nat → Int} {a b : Nat} (h : key a = key b → a = b) : lesser key a b = lesser key b a := by
  unfold lesser
  split <;> split
  · omega
  · rfl
  · rfl
  · exact (h (by omega)).symm

theorem lesser_assoc (key : Nat → Int) (a b c : Nat) : lesser key (lesser key a b) c = lesser key a (lesser key b c) := by
  unfold lesser
  by_cases hab : key a < key b <;> by_cases hbc : key b < key c <;> simp only [hab, hbc, if_true, if_false]
  · rw [if_pos (hab.trans hbc)]
  · rw [if_neg (by omega)]

theorem intOp_min (w : Nat) (sgn : Bool) (a b : Nat) : intOp w sgn .min a b = lesser (ordKey w sgn) a b := by
  cases sgn <;> simp [intOp, lesser, ordKey]

theorem intOp_max (w : Nat) (sgn : Bool) (a b : Nat) : intOp w sgn .max a b = lesser (fun x => -ordKey w sgn x) b a := by
  cases sgn <;> simp [intOp, lesser, ordKey]

/-- SUM wraps; every integer operator of collectives gives the same bits in every order and grouping. -/
theorem intOp_comm_assoc {w : Nat} {sgn : Bool} {o : AOp} {a b c : Nat} (ho : o ≠ .swap) (ha : a < 2 ^ w) (hb : b < 2 ^ w) :
    intOp w sgn o a b = intOp w sgn o b a ∧ intOp w sgn o (intOp w sgn o a b) c = intOp w sgn o a (intOp w sgn o b c) := by
  cases o with
  | add => simp [intOp, Nat.add_comm a b, ← Nat.add_assoc]
  | and => exact ⟨Nat.and_comm a b, Nat.and_assoc a b c⟩
  | or => exact ⟨Nat.or_comm a b, Nat.or_assoc a b c⟩
  | xor => exact ⟨Nat.xor_comm a b, Nat.xor_assoc a b c⟩
  | min =>
    simp only [intOp_min]
    exact ⟨lesser_comm (ordKey_inj ha hb), lesser_assoc ..⟩
  | max =>
    simp only [intOp_max]
    exact ⟨lesser_comm fun h => ordKey_inj hb ha (neg_inj.mp h), (lesser_assoc ..).symm⟩
  | swap => exact absurd rfl ho

/-! ### Floating-point operators and the way down (R200) -/

theorem combineUp_float {et : Nat} (h : 4 ≤ et) (o : AOp) (a b : Nat) : combineUp et o a b = (upFmt et).op o a b := by
  match et, h with
  | _ + 4, _ => rfl

theorem upFmt_hasInf (et : Nat) : (upFmt et).hasInf = true := by
  unfold upFmt
  split <;> rfl

theorem encode_nan {f : Fmt} (hf : f.hasInf = true) (g : Bool) : f.encode (.nan g) = f.qnan := if_pos hf

theorem FVal.add_nan (x : FVal) (g : Bool) : x.add (.nan g) = .nan false := by cases x <;> rfl

/-- MIN and MAX of a NaN and a value: the value; of two NaNs: the default one. -/
theorem encode_pick_nan {f : Fmt} (hf : f.hasInf = true) (least g : Bool) (x : FVal) : f.encode ((FVal.nan g).pick least x) = f.encode x := by
  cases x with
  | nan k => exact (encode_nan hf false).trans (encode_nan hf k).symm
  | inf _ => rfl
  | fin _ _ _ => rfl

theorem FVal.pick_nan {x : FVal} (least g : Bool) (hx : ∀ k, x ≠ .nan k) : x.pick least (.nan g) = x := by
  cases x with
  | nan k => exact absurd rfl (hx k)
  | inf _ => rfl
  | fin _ _ _ => rfl

/-- The way down to a format narrower than the one elements are combined in. -/
theorem fromUp_narrow {et : Nat} {f : Fmt} (hf : etypeFmt et = some f) (hne : f ≠ upFmt et) (v : Nat) :
    fromUp et v = f.encode ((upFmt et).decode v) := by
  simp only [fromUp, hf]
  exact if_neg hne

theorem fromUp_b16 (v : Nat) : fromUp 6 v = Fmt.b16.encode (Fmt.b32.decode v) := fromUp_narrow rfl (by decide) v
theorem fromUp_bf16 (v : Nat) : fromUp 7 v = Fmt.bf16.encode (Fmt.b32.decode v) := fromUp_narrow rfl (by decide) v
theorem fromUp_e4m3 (v : Nat) : fromUp 8 v = Fmt.e4m3.encode (Fmt.b32.decode v) := fromUp_narrow rfl (by decide) v
theorem fromUp_e5m2 (v : Nat) : fromUp 9 v = Fmt.e5m2.encode (Fmt.b32.decode v) := fromUp_narrow rfl (by decide) v

/-! ### Which codes a COL_START may hold (R196) -/

theorem colCodesOk_codes {d : Desc} (h : colCodesOk d = true) : bits d.w40 12 4 ≤ 9 ∧
    (d.w40 % 8 = 2 ∨ d.w40 % 8 = 3 ∨ d.w40 % 8 = 4 → bits d.w40 8 4 ≤ 5 ∧ (3 ≤ bits d.w40 8 4 → bits d.w40 12 4 ≤ 3)) := by
  simp only [colCodesOk, Bool.and_eq_true, Bool.or_eq_true, Bool.not_eq_true', Bool.and_eq_false_iff, decide_eq_true_eq, decide_eq_false_iff_not,
    beq_iff_eq] at h
  omega

/-! ### The folding of chunks (R201) -/

theorem foldChunks_inOrder {a : Chunk} (h : hdrMode a.hdr ≠ 0) (t : List Chunk) :
    foldChunks (a :: t) = t.foldl (fun d x => fold2 a.hdr a.expo d x.data) a.data := by
  simp only [foldChunks, h, if_false]

/-- In fast mode a node folds its chunks in the order of their arrival. -/
theorem foldChunks_fast {a : Chunk} (h : hdrMode a.hdr = 0) (t : List Chunk) :
    ∃ b u, (b :: u).Perm (a :: t) ∧ (b :: u).Pairwise (fun x z => x.arr ≤ z.arr) ∧
      foldChunks (a :: t) = u.foldl (fun d x => fold2 b.hdr b.expo d x.data) b.data := by
  have hperm := List.mergeSort_perm (a :: t) fun x z => decide (x.arr ≤ z.arr)
  have hsorted := List.pairwise_mergeSort (le := fun x z : Chunk => decide (x.arr ≤ z.arr))
    (fun x y z hxy hyz => by simp only [decide_eq_true_eq] at *; omega) (fun x z => by simp only [Bool.or_eq_true, decide_eq_true_eq]; omega) (a :: t)
  cases hl : (a :: t).mergeSort fun x z => decide (x.arr ≤ z.arr) with
  | nil => simp [hl] at hperm
  | cons b u =>
    rw [hl] at hperm hsorted
    refine ⟨b, u, hperm, hsorted.imp of_decide_eq_true, ?_⟩
    simp only [foldChunks, h, if_true, hl]

/-- The elements of a string that begins with one of them. -/
theorem elems_append {w : Nat} {a : Bytes} (hw : 0 < w) (ha : a.length = w) (b : Bytes) : elems w (a ++ b) = nat a :: elems w b := by
  have hlen : (a ++ b).length / w = b.length / w + 1 := by
    rw [List.length_append, ha, Nat.add_comm, Nat.add_div_right _ hw]
  have hnext (i : Nat) : num (a ++ b) (w * (i + 1)) w = num b (w * i) w := by
    rw [num_append_of_le _ _ _ (by rw [ha]; exact Nat.le_mul_of_pos_right w (Nat.succ_pos i)), ha, Nat.mul_succ, Nat.add_sub_cancel]
  simp only [elems, hlen, List.range_succ_eq_map, List.map_cons, List.map_map, Nat.mul_zero]
  exact congrArg₂ List.cons (congrArg nat (sub_here a b w ha)) (List.map_congr_left fun i _ => hnext i)

/-- Elements that fit their size are read back as they were written. -/
theorem elems_flatMap_le {w : Nat} (hw : 0 < w) {xs : List Nat} (h : ∀ x ∈ xs, x < 2 ^ (8 * w)) : elems w (xs.flatMap (le w)) = xs := by
  induction xs with
  | nil => simp [elems]
  | cons x xs ih =>
    have hx : x % 256 ^ w = x := by
      rw [show (256 : Nat) = 2 ^ 8 from rfl, ← Nat.pow_mul]
      exact Nat.mod_eq_of_lt (h x List.mem_cons_self)
    rw [List.flatMap_cons, elems_append hw (le_length w x), nat_le, hx, ih fun z hz => h z (List.mem_cons_of_mem x hz)]

theorem upSize_pos (et : Nat) (grid : Bool) : 0 < upSize et grid := by
  unfold upSize elemSize
  split
  · split <;> decide
  · split <;> split <;> decide

/-- Two elements of chunks with header `h` folded into one (R200 to R202). -/
def foldElem (h a b : Nat) : Nat :=
  if hdrGrid h then (a + b) % 2 ^ (8 * upSize (hdrEtype h) (hdrGrid h)) else
    match ropOf (hdrRop h) with | some o => combineUp (hdrEtype h) o a b | none => a

section
variable {h : Nat} {xs ys : List Nat} (hfit : ∀ x ∈ xs ++ ys, x < 2 ^ (8 * upSize (hdrEtype h) (hdrGrid h)))
include hfit

/-- Two chunks of elements fold element by element. -/
theorem fold2_elements :
    fold2 h false (xs.flatMap (le (upSize (hdrEtype h) (hdrGrid h)))) (ys.flatMap (le (upSize (hdrEtype h) (hdrGrid h)))) =
      (xs.zip ys).flatMap fun e => le (upSize (hdrEtype h) (hdrGrid h)) (foldElem h e.1 e.2) := by
  have hw := upSize_pos (hdrEtype h) (hdrGrid h)
  have hx := elems_flatMap_le hw fun x hx => hfit x (List.mem_append_left ys hx)
  have hy := elems_flatMap_le hw fun x hx => hfit x (List.mem_append_right xs hx)
  simp only [fold2, Bool.false_eq_true, if_false, hx, hy]
  rfl

theorem fold2_combines {o : AOp} (ho : ropOf (hdrRop h) = some o) (hg : hdrGrid h = false) :
    fold2 h false (xs.flatMap (le (upSize (hdrEtype h) (hdrGrid h)))) (ys.flatMap (le (upSize (hdrEtype h) (hdrGrid h)))) =
      (xs.zip ys).flatMap fun e => le (upSize (hdrEtype h) (hdrGrid h)) (combineUp (hdrEtype h) o e.1 e.2) := by
  rw [fold2_elements hfit]
  simp only [foldElem, ho, hg, Bool.false_eq_true, if_false]

theorem fold2_grid (hg : hdrGrid h = true) :
    fold2 h false (xs.flatMap (le (upSize (hdrEtype h) (hdrGrid h)))) (ys.flatMap (le (upSize (hdrEtype h) (hdrGrid h)))) =
      (xs.zip ys).flatMap fun e => le (upSize (hdrEtype h) (hdrGrid h)) ((e.1 + e.2) % 2 ^ (8 * upSize (hdrEtype h) (hdrGrid h))) := by
  rw [fold2_elements hfit]
  simp only [foldElem, hg, if_true]

end

theorem fold2_record (h : Nat) {a : Bytes} (ha : a.length = 8) (b : Bytes) :
    fold2 h true a b = ((ExpRec.parse (sub a 0 8)).join (ExpRec.parse (sub b 0 8))).bytes := by
  simp [fold2, ha]

/-! ### The exponent pass of grid mode (R202) -/

/-- What element `j` adds to a record. -/
def ExpRec.note (r : ExpRec) (j : Nat) (x : FVal) : ExpRec :=
  match x with
  | .nan _ => { r with nan := r.nan + 2 ^ j }
  | .inf false => { r with pinf := r.pinf + 2 ^ j }
  | .inf true => { r with ninf := r.ninf + 2 ^ j }
  | .fin _ m e => if m = 0 then r else { r with emax := max r.emax ((Nat.log2 m : Int) + e) }

theorem expRecord_concat (f : Fmt) (xs : List Nat) (v : Nat) :
    expRecord f (xs ++ [v]) = (expRecord f xs).note xs.length (f.decode v) := by
  rw [expRecord, List.mapIdx_concat, List.foldl_append]
  rfl

theorem testBit_add_two_pow {m n : Nat} (hm : m < 2 ^ n) (j : Nat) : (m + 2 ^ n).testBit j = (m.testBit j || decide (n = j)) := by
  have hor : m + 2 ^ n = 2 ^ n ||| m := by
    simpa [Nat.add_comm] using Nat.two_pow_add_eq_or_of_lt hm 1
  rw [hor, Nat.testBit_or, Nat.testBit_two_pow, Bool.or_comm]

/-- A mask of a record has the bit of each element of its class: stated for a mask that each element of the class adds its bit to. -/
theorem expRecord_mask {f : Fmt} {mask : ExpRec → Nat} {cls : FVal → Prop} (h0 : mask ExpRec.none = 0)
    (hin : ∀ r j x, cls x → mask (r.note j x) = mask r + 2 ^ j) (hout : ∀ r j x, ¬ cls x → mask (r.note j x) = mask r) (xs : List Nat) :
    mask (expRecord f xs) < 2 ^ xs.length ∧
      ∀ j, (mask (expRecord f xs)).testBit j = true ↔ ∃ v, xs[j]? = some v ∧ cls (f.decode v) := by
  induction xs using List.reverseRecOn with
  | nil => exact ⟨h0.trans_lt Nat.one_pos, fun j => by simp [show mask (expRecord f []) = 0 from h0]⟩
  | append_singleton xs v ih =>
    obtain ⟨hlt, hbit⟩ := ih
    have hlast (j : Nat) : (∃ u, (xs ++ [v])[j]? = some u ∧ cls (f.decode u)) ↔
        (∃ u, xs[j]? = some u ∧ cls (f.decode u)) ∨ (xs.length = j ∧ cls (f.decode v)) := by
      rcases lt_trichotomy j xs.length with h | h | h
      · simp [List.getElem?_append_left h, h.ne']
      · subst h; simp
      · simp [List.getElem?_append_right h.le, List.getElem?_eq_none h.le, h.ne, Nat.sub_ne_zero_of_lt h]
    rw [expRecord_concat, List.length_append, List.length_singleton, Nat.pow_succ]
    by_cases hv : cls (f.decode v)
    · rw [hin _ _ _ hv]
      exact ⟨by omega, fun j => by simp [testBit_add_two_pow hlt, hbit, hlast, hv]⟩
    · rw [hout _ _ _ hv]
      exact ⟨by omega, fun j => by simp [hbit, hlast, hv]⟩

/-- The mask of NaNs. -/
theorem expRecord_nan (f : Fmt) (xs : List Nat) (j : Nat) :
    (expRecord f xs).nan.testBit j = true ↔ ∃ v g, xs[j]? = some v ∧ f.decode v = .nan g := by
  have hmask := (expRecord_mask (f := f) (mask := ExpRec.nan) (cls := fun x => ∃ g, x = .nan g) rfl
    (fun r j x ⟨g, hx⟩ => hx ▸ rfl) (fun r j x hx => ?_) xs).2 j
  · simpa only [exists_and_left] using hmask
  · match x, hx with
    | .nan g, hx => exact absurd ⟨g, rfl⟩ hx
    | .inf true, _ => rfl
    | .inf false, _ => rfl
    | .fin g m e, _ => simp only [ExpRec.note]; split <;> rfl

/-- The mask of positive infinities. -/
theorem expRecord_pinf (f : Fmt) (xs : List Nat) (j : Nat) :
    (expRecord f xs).pinf.testBit j = true ↔ ∃ v, xs[j]? = some v ∧ f.decode v = .inf false := by
  refine (expRecord_mask (f := f) (mask := ExpRec.pinf) (cls := fun x => x = .inf false) rfl (fun r j x hx => hx ▸ rfl) (fun r j x hx => ?_) xs).2 j
  match x, hx with
  | .nan _, _ => rfl
  | .inf true, _ => rfl
  | .inf false, hx => exact absurd rfl hx
  | .fin g m e, _ => simp only [ExpRec.note]; split <;> rfl

/-- The mask of negative infinities. -/
theorem expRecord_ninf (f : Fmt) (xs : List Nat) (j : Nat) :
    (expRecord f xs).ninf.testBit j = true ↔ ∃ v, xs[j]? = some v ∧ f.decode v = .inf true := by
  refine (expRecord_mask (f := f) (mask := ExpRec.ninf) (cls := fun x => x = .inf true) rfl (fun r j x hx => hx ▸ rfl) (fun r j x hx => ?_) xs).2 j
  match x, hx with
  | .nan _, _ => rfl
  | .inf true, hx => exact absurd rfl hx
  | .inf false, _ => rfl
  | .fin g m e, _ => simp only [ExpRec.note]; split <;> rfl

/-- The exponent of a finite value other than zero. -/
def FVal.expo : FVal → Option Int
  | .fin _ m e => if m = 0 then none else some ((Nat.log2 m : Int) + e)
  | _ => none

theorem FVal.expo_eq_some {x : FVal} {k : Int} : x.expo = some k ↔ ∃ g m e, x = .fin g m e ∧ m ≠ 0 ∧ k = (Nat.log2 m : Int) + e := by
  cases x <;> simp [FVal.expo, eq_comm, and_comm]

theorem ExpRec.note_emax (r : ExpRec) (j : Nat) (x : FVal) : (r.note j x).emax = (x.expo.map (max r.emax)).getD r.emax := by
  match x with
  | .nan _ => rfl
  | .inf true => rfl
  | .inf false => rfl
  | .fin g m e => simp only [ExpRec.note, FVal.expo]; split <;> rfl

/-- EMAX is the largest exponent of the finite elements other than zero, or what a record without one shows. -/
theorem expRecord_emax (f : Fmt) (xs : List Nat) :
    (∀ v k, v ∈ xs → (f.decode v).expo = some k → k ≤ (expRecord f xs).emax) ∧ -32768 ≤ (expRecord f xs).emax ∧
      ((expRecord f xs).emax = -32768 ∨ ∃ v ∈ xs, (f.decode v).expo = some (expRecord f xs).emax) := by
  induction xs using List.reverseRecOn with
  | nil => exact ⟨fun v k hv => absurd hv List.not_mem_nil, le_refl (-32768 : Int), .inl rfl⟩
  | append_singleton xs v ih =>
    obtain ⟨hup, hlow, hmem⟩ := ih
    rw [expRecord_concat, ExpRec.note_emax]
    cases hv : (f.decode v).expo with
    | none =>
      refine ⟨fun u k hu hk => ?_, hlow, hmem.imp id fun ⟨u, hu, hk⟩ => ⟨u, List.mem_append_left _ hu, hk⟩⟩
      rcases List.mem_append.mp hu with hu | hu
      · exact hup u k hu hk
      · rw [List.mem_singleton.mp hu, hv] at hk; exact nomatch hk
    | some k =>
      refine ⟨fun u l hu hl => ?_, le_max_of_le_left hlow, ?_⟩
      · rcases List.mem_append.mp hu with hu | hu
        · exact le_max_of_le_left (hup u l hu hl)
        · rw [List.mem_singleton.mp hu, hv] at hl
          exact Option.some.inj hl ▸ le_max_right _ _
      · rcases max_choice (expRecord f xs).emax k with h | h
        · exact hmem.imp h.trans fun ⟨u, hu, hk⟩ => ⟨u, List.mem_append_left _ hu, hk.trans (congrArg some h.symm)⟩
        · exact .inr ⟨v, List.mem_append_right _ (List.mem_singleton_self v), hv.trans (congrArg some h.symm)⟩

/-! ### The data pass of grid mode (R202) -/

section
variable {et : Nat} {f : Fmt} {r : ExpRec} {v : Nat}

theorem toGrid_zero (h : (∃ g, f.decode v = .nan g ∨ f.decode v = .inf g) ∨ (∃ g e, f.decode v = .fin g 0 e) ∨ r.emax = -32768) :
    toGrid et f r v = 0 := by
  unfold toGrid
  rcases h with ⟨g, h | h⟩ | ⟨g, e, h⟩ | h
  · rw [h]
  · rw [h]
  · rw [h]; exact if_pos (.inl rfl)
  · split
    · exact if_pos (.inr h)
    · rfl

theorem toGrid_fin {g : Bool} {m : Nat} {e : Int} (h : f.decode v = .fin g m e) (hm : m ≠ 0) (hr : r.emax ≠ -32768) :
    toGrid et f r v = (if g = true then -1 else 1) * (roundInt m (e + gridF et - r.emax) : Int) := by
  unfold toGrid
  rw [h]
  refine (if_neg (not_or.mpr ⟨hm, hr⟩)).trans ?_
  cases g <;> simp

end

/-- `from_grid` gives NaNs, then infinities, then the rounded sum. -/
theorem fromGrid_cases (et : Nat) (f : Fmt) (r : ExpRec) (j : Nat) (t : Int) :
    (r.nan.testBit j = true ∨ (r.pinf.testBit j = true ∧ r.ninf.testBit j = true) → fromGrid et f r j t = f.qnan) ∧
    (r.nan.testBit j = false → r.pinf.testBit j = true → r.ninf.testBit j = false → fromGrid et f r j t = f.encode (.inf false)) ∧
    (r.nan.testBit j = false → r.pinf.testBit j = false → r.ninf.testBit j = true → fromGrid et f r j t = f.encode (.inf true)) ∧
    (r.nan.testBit j = false → r.pinf.testBit j = false → r.ninf.testBit j = false → (t = 0 → fromGrid et f r j t = 0) ∧
      (t ≠ 0 → fromGrid et f r j t = f.round (decide (t < 0)) t.natAbs (r.emax - gridF et))) := by
  refine ⟨fun h => ?_, fun hn hp hq => ?_, fun hn hp hq => ?_, fun hn hp hq => ⟨fun ht => ?_, fun ht => ?_⟩⟩
  · simpa [fromGrid] using fun hn hp => absurd h (by simp [hn]; exact hp)
  all_goals simp [fromGrid, *]

/-- Settles O60: the sizes by their tables, the integer operators as commutative and associative ones, the floating-point operators and the way down
    by the value that bits decode to, chunks as lists of elements, and the records of the exponent pass by induction on the elements. -/
theorem collectiveElementsAreCombined : Obligations.CollectiveElementsAreCombined := by
  unfold Obligations.CollectiveElementsAreCombined
  refine ⟨by decide, fun d => colCodesOk_codes, fun et a b c het => ?int, fun et a b g h4 h9 => ?float,
    fun v neg => ⟨fun hv => ?downNan, fun hv => ?downInf⟩, by decide +kernel, fun a t => ⟨fun h => foldChunks_inOrder h t, fun h => foldChunks_fast h t⟩,
    fun h xs ys hfit => ⟨fun o ho hg => fold2_combines hfit ho hg, fun hg => fold2_grid hfit hg⟩, fun f xs => ?record, fun a b => rfl,
    fun h a b ha => fold2_record h ha b, fun et f r v => ⟨toGrid_zero, fun g m e => toGrid_fin⟩, fromGrid_cases⟩
  case int =>
    simp only [combineUp_int het]
    exact ⟨rfl, fun ha hb hc o ho => intOp_comm_assoc ho ha hb⟩
  case float =>
    intro f ha
    have hf : f.hasInf = true := upFmt_hasInf et
    simp only [combineUp_float h4, Fmt.op, show (upFmt et).decode a = .nan g from ha, FVal.add_nan]
    exact ⟨encode_nan hf false, encode_nan hf false, encode_pick_nan hf _ _ _, encode_pick_nan hf _ _ _,
      fun hb => ⟨congrArg _ (FVal.pick_nan _ _ hb), congrArg _ (FVal.pick_nan _ _ hb)⟩⟩
  case downNan =>
    rw [fromUp_b16, fromUp_bf16, fromUp_e4m3, fromUp_e5m2, hv]
    cases neg <;> decide
  case downInf =>
    rw [fromUp_b16, fromUp_bf16, fromUp_e4m3, fromUp_e5m2, hv]
    cases neg <;> decide
  case record =>
    obtain ⟨hup, hlow, hmem⟩ := expRecord_emax f xs
    refine ⟨fun j => ⟨expRecord_nan f xs j, expRecord_pinf f xs j, expRecord_ninf f xs j⟩, fun v g m e hv hd hm => ?_, hlow, hmem.imp id ?_⟩
    · exact hup v _ hv (FVal.expo_eq_some.mpr ⟨g, m, e, hd, hm, rfl⟩)
    · rintro ⟨v, hv, hk⟩
      obtain ⟨g, m, e, hd, hm, hk⟩ := FVal.expo_eq_some.mp hk
      exact ⟨v, g, m, e, hv, hd, hm, hk⟩

end Sys2Proof.Machine
end

section
/-! Placement sets (Chapter 9): the commands that make, change and remove them in each of their cases, and the modes that use no scores. -/
namespace Sys2Proof.Machine

/-! ### PSET_CREATE (R216) -/

/-- A context that may own a new set. -/
def maySet (x : Ctx) : Prop := x.st = .created ∨ x.st = .active

/-- The set that a PSET_CREATE of a context makes; one of kind 2 holds its owner. -/
def newSet (y : Sys) (x : Ctx) (b : Bytes) : Pset :=
  { kind := num b 2 1, mode := num b 3 1, fixed := num b 4 1, owner := arg0 b, pd := x.pd, joinkey := (Config.joinKeyLessOne y.free).val + 1,
    members := if num b 2 1 = 2 then [(0, PMember.new (arg0 b) 0 0 0 0 false 0)] else [], elig := 0, ftCommit := 0, lastCommit := frame y,
    queued := none, trig := false, destroying := false }

theorem maySet_iff (x : Ctx) : maySet x ↔ ¬ (x.st ≠ .created ∧ x.st ≠ .active) := by
  simp [maySet, or_iff_not_imp_left]

section
variable {f : FuseBank} {y : Sys} {q : MbxReq} {x : Ctx} (hx : getCtx y (arg0 q.payload) = some x)
include hx

theorem bodyPsetCreate_makes {j : Nat} (hm : maySet x) (hroom : setsOf y x.hp x.fn < y.pe.pol.fnMax) (hj : freeSetId y = some j) :
    bodyPsetCreate f y q =
      let p := newSet y x q.payload
      .done { draw y with pe := { y.pe with sets := tset y.pe.sets j (if num q.payload 2 1 = 2 then p.trigger else p) } }
        (le 2 j ++ zeros 2 ++ le 4 p.joinkey) := by
  simp only [bodyPsetCreate, hx, (maySet_iff x).mp hm, Nat.not_le.mpr hroom, hj, if_false]
  rfl

/-- A function at its limit, and a device without a free PSETID. -/
theorem bodyPsetCreate_full (hm : maySet x) (h : y.pe.pol.fnMax ≤ setsOf y x.hp x.fn ∨ freeSetId y = none) :
    bodyPsetCreate f y q = .no .noResource := by
  simp only [bodyPsetCreate, hx, (maySet_iff x).mp hm, if_false]
  split
  · rfl
  · next hroom => simp only [h.resolve_left hroom]

theorem bodyPsetCreate_conflict (hm : ¬ maySet x) : bodyPsetCreate f y q = .no .stateConflict := by
  have hst : x.st ≠ .created ∧ x.st ≠ .active := not_or.mp hm
  simp only [bodyPsetCreate, hx]
  exact if_pos hst

end

/-! ### PSET_DESTROY, PSET_ADD, PSET_REMOVE and PSET_HINT (R217, R231, R233) -/

/-- An index of a set takes a new member. -/
def mayAdd (p : Pset) (i : Nat) : Prop := tget p.members i = none ∧ ¬ (p.kind = 2 ∧ i = 0) ∧ p.destroying = false

theorem mayAdd_iff (p : Pset) (i : Nat) :
    mayAdd p i ↔ ¬ ((tget p.members i).isSome = true ∨ (p.kind = 2 ∧ i = 0) ∨ p.destroying = true) := by
  simp only [mayAdd, not_or, Bool.not_eq_true, Option.isSome_eq_false_iff, Option.isNone_iff_eq_none]

/-- The member that a PSET_ADD to a set puts in place. -/
def newMember (p : Pset) (b : Bytes) : PMember :=
  PMember.new (num b 8 2) (num b 12 4) (num b 16 4) (num b 24 8) (num b 32 8) (p.kind == 1 && (num b 3 1).testBit 0)
    (if p.kind = 1 then num b 10 1 else 0)

section
variable {f : FuseBank} {y : Sys} {q : MbxReq} {p : Pset} (hp : getSet y (arg0 q.payload) = some p)
include hp

theorem bodyPsetDestroy_eq : bodyPsetDestroy f y q =
    if setPosted y (arg0 q.payload) = true ∨ p.destroying = true then .no .stateConflict
    else .wait (modSet y (arg0 q.payload) fun p =>
      { p with destroying := true, members := tmap p.members fun _ m => { m with removing := true } }) (.psetDestroy (arg0 q.payload)) := by
  simp only [bodyPsetDestroy, hp, Option.map_some, Option.getD_some, Bool.or_eq_true]

theorem bodyPsetAdd_puts (h : mayAdd p (num q.payload 2 1)) : bodyPsetAdd f y q =
    .done (modSet y (arg0 q.payload) fun g =>
      { (g.trigger) with members := tset g.members (num q.payload 2 1) (newMember p q.payload) }) [] := by
  simp only [bodyPsetAdd, show getSet y (num q.payload 0 2) = some p from hp]
  exact if_neg ((mayAdd_iff ..).mp h)

theorem bodyPsetAdd_conflict (h : ¬ mayAdd p (num q.payload 2 1)) : bodyPsetAdd f y q = .no .stateConflict := by
  simp only [bodyPsetAdd, show getSet y (num q.payload 0 2) = some p from hp]
  exact if_pos (not_not.mp fun hn => h ((mayAdd_iff ..).mpr hn))

variable {m : PMember} (hm : tget p.members (num q.payload 2 1) = some m)
include hm

theorem bodyPsetRemove_eq : bodyPsetRemove f y q =
    if m.removing = true then .no .stateConflict
    else .wait (modMember (modSet y (arg0 q.payload) fun p => p.trigger) (arg0 q.payload) (num q.payload 2 1) fun m =>
      { m with removing := true }) (.psetRemove (arg0 q.payload) (num q.payload 2 1)) := by
  simp only [bodyPsetRemove, hp, Option.bind_some, hm]

theorem bodyPsetHint_eq : bodyPsetHint f y q =
    let b := q.payload
    let fl := num b 3 1
    if fl.testBit 0 = true ∧ m.armed = true then .no .stateConflict
    else .done (modSet (modMember y (arg0 b) (num b 2 1) fun m =>
        { m with armed := m.armed || fl.testBit 0, rearmed := m.rearmed || fl.testBit 0,
                 stPend := if fl.testBit 1 then some (num b 5 1) else m.stPend,
                 hintPend := if fl.testBit 2 then some (num b 4 1) else m.hintPend }) (arg0 b) fun p =>
      if fl.testBit 2 then p.trigger else p) [] := by
  simp only [bodyPsetHint, hp, Option.bind_some, hm]

end

/-- Settles O24: each body in each of its cases. -/
theorem placementSetsAreManaged : Obligations.PlacementSetsAreManaged := by
  unfold Obligations.PlacementSetsAreManaged
  intro s q
  refine ⟨fun h x hx => ⟨fun hm hroom j hj => ?created, fun hm hfull => ?full, fun hm => ?dead⟩,
    fun p hp => ⟨fun h hw => ⟨fun hfree hd => ?destroyed, fun hheld => ?held⟩, fun h => ⟨fun hm => ?added, fun hm => ?notAdded⟩,
      fun m hm => ⟨fun h hw => ⟨fun hr => ?removed, fun hr => ?removing⟩, fun h => ⟨fun ha => ?hinted, fun ha hma => ?armed⟩⟩⟩⟩
  case created => exact run_done rfl rfl h (bodyPsetCreate_makes hx hm hroom hj)
  case full => exact run_no rfl h (bodyPsetCreate_full hx hm hfull)
  case dead => exact run_no rfl h (bodyPsetCreate_conflict hx hm)
  case destroyed => exact then_wait rfl h hw ((bodyPsetDestroy_eq hp).trans (if_neg (by simp [arg0, hfree, hd])))
  case held => exact then_no rfl h ((bodyPsetDestroy_eq hp).trans (if_pos hheld))
  case added => exact run_done rfl rfl h (bodyPsetAdd_puts hp hm)
  case notAdded => exact run_no rfl h (bodyPsetAdd_conflict hp hm)
  case removed => exact then_wait rfl h hw ((bodyPsetRemove_eq hp hm).trans (if_neg (Bool.eq_false_iff.mp hr)))
  case removing => exact then_no rfl h ((bodyPsetRemove_eq hp hm).trans (if_pos hr))
  case hinted =>
    have hfree : ¬ ((num q.payload 3 1).testBit 0 = true ∧ m.armed = true) := by
      rcases ha with ha | ha <;> simp [ha]
    exact run_done rfl rfl h ((bodyPsetHint_eq hp hm).trans (if_neg hfree))
  case armed => exact run_no rfl h ((bodyPsetHint_eq hp hm).trans (if_pos ⟨ha, hma⟩))

/-! ### Entries of a table -/

theorem mem_of_tget {α : Type} {t : Table α} {i : Nat} {a : α} (h : tget t i = some a) : (i, a) ∈ t := by
  induction t with
  | nil => exact nomatch h
  | cons e t ih =>
    by_cases he : e.1 = i
    · obtain rfl : e.2 = a := by simpa [tget, he] using h
      exact he ▸ List.mem_cons_self
    · exact List.mem_cons_of_mem _ (ih (by simpa [tget, he] using h))

theorem tget_of_mem {α : Type} {t : Table α} {e : Nat × α} (h : e ∈ t) : ∃ a, tget t e.1 = some a := by
  induction t with
  | nil => exact nomatch h
  | cons d t ih =>
    by_cases hd : d.1 = e.1
    · exact ⟨d.2, by simp [tget, hd]⟩
    · obtain ⟨a, ha⟩ := ih ((List.mem_cons.mp h).resolve_left fun hed => hd (hed ▸ rfl))
      exact ⟨a, by simpa [tget, hd] using ha⟩

theorem mem_tset {α : Type} {t : Table α} {k : Nat} {a : α} {e : Nat × α} (h : e ∈ tset t k a) : e = (k, a) ∨ e ∈ t := by
  induction t with
  | nil => exact .inl (List.mem_singleton.mp h)
  | cons d t ih =>
    unfold tset at h
    split at h
    · exact List.mem_cons.mp h
    split at h
    · exact (List.mem_cons.mp h).imp_right (List.mem_cons_of_mem _)
    · rcases List.mem_cons.mp h with rfl | h
      · exact .inr List.mem_cons_self
      · exact (ih h).imp_right (List.mem_cons_of_mem _)

/-! ### A choice from a set (R224, R225) -/

theorem pickCur_mem {l : List (Nat × Int)} {i : Nat} (h : pickCur l = some i) : ∃ v, (i, v) ∈ l := by
  obtain ⟨e, he, rfl⟩ := Option.map_eq_some_iff.mp h
  refine ⟨e.2, List.foldlRecOn (motive := fun a : Option (Nat × Int) => ∀ e, a = some e → e ∈ l) l _ (by simp)
    (fun a ha d hd e he => ?_) e he⟩
  cases a with
  | none => exact Option.some.inj he ▸ hd
  | some b =>
    dsimp only at he
    split at he
    · exact Option.some.inj he ▸ hd
    · exact ha e he

theorem pickCur_cons (e : Nat × Int) (l : List (Nat × Int)) : ∃ i, pickCur (e :: l) = some i := by
  refine Option.isSome_iff_exists.mp ?_
  rw [pickCur, Option.isSome_map]
  refine List.foldlRecOn (motive := fun a : Option (Nat × Int) => a.isSome = true) l _ rfl fun a ha d _ => ?_
  obtain ⟨b, rfl⟩ := Option.isSome_iff_exists.mp ha
  dsimp only
  split <;> rfl

/-- The members that a choice picks from: those eligible at this moment that have a share. -/
def candidates (y : Sys) (p : Pset) : Table PMember :=
  p.members.filter fun e => decide (0 < shareOf p e.1 e.2) && memberNow y p e.1 e.2

theorem mem_candidates {y : Sys} {p : Pset} {e : Nat × PMember} :
    e ∈ candidates y p ↔ e ∈ p.members ∧ 0 < shareOf p e.1 e.2 ∧ memberNow y p e.1 e.2 = true := by
  simp only [candidates, List.mem_filter, Bool.and_eq_true, decide_eq_true_eq]

section
variable {y : Sys} {k : Nat} {p : Pset} (hp : getSet y k = some p)
include hp

theorem choose_pick : (choose y k).2 =
    (pickCur ((candidates y p).map fun e => (e.1, e.2.cur + (shareOf p e.1 e.2 : Int)))).bind fun i =>
      (tget p.members i).map fun m => (i, m) := by
  simp only [choose, hp, candidates]
  split
  · next h => simp only [h, Option.bind_none]
  · next h => simp only [h, Option.bind_some]

theorem choose_none (h : candidates y p = []) : (choose y k).2 = none := by
  rw [choose_pick hp, h]
  rfl

/-- Where there are candidates, one of them is picked. -/
theorem choose_some (h : candidates y p ≠ []) :
    ∃ e ∈ candidates y p, ∃ m, tget p.members e.1 = some m ∧ (choose y k).2 = some (e.1, m) := by
  obtain ⟨d, l, hl⟩ := List.exists_cons_of_ne_nil h
  obtain ⟨i, hi⟩ := pickCur_cons (d.1, d.2.cur + (shareOf p d.1 d.2 : Int)) (l.map fun e => (e.1, e.2.cur + (shareOf p e.1 e.2 : Int)))
  rw [← List.map_cons (f := fun e : Nat × PMember => (e.1, e.2.cur + (shareOf p e.1 e.2 : Int))), ← hl] at hi
  obtain ⟨v, hv⟩ := pickCur_mem hi
  obtain ⟨e, he, hev⟩ := List.mem_map.mp hv
  obtain rfl : e.1 = i := congrArg Prod.fst hev
  obtain ⟨m, hm⟩ := tget_of_mem (mem_candidates.mp he).1
  refine ⟨e, he, m, hm, ?_⟩
  rw [choose_pick hp, hi, Option.bind_some, hm, Option.map_some]

end

theorem shareOf_fixed {p : Pset} (h : p.mode = 1) (i : Nat) (m : PMember) : shareOf p i m = if i = p.fixed then 1 else 0 := by
  simp only [shareOf, h]

theorem shareOf_equal {p : Pset} (h : p.mode = 2) (i : Nat) (m : PMember) : shareOf p i m = 1 := by
  simp only [shareOf, h]

/-- Only mode 0 looks at the share that scores give. -/
theorem shareOf_scoreless {p : Pset} (h : p.mode ≠ 0) (i : Nat) (m : PMember) (v : Nat) :
    shareOf p i { m with share := v } = shareOf p i m := by
  unfold shareOf
  split
  · next h0 => exact absurd h0 h
  · rfl
  · rfl

theorem mem_candidates_fixed {y : Sys} {p : Pset} (h : p.mode = 1) {e : Nat × PMember} :
    e ∈ candidates y p ↔ e ∈ p.members ∧ e.1 = p.fixed ∧ memberNow y p e.1 e.2 = true := by
  have hshare : 0 < shareOf p e.1 e.2 ↔ e.1 = p.fixed := by
    rw [shareOf_fixed h]
    split
    · next hi => exact iff_of_true Nat.one_pos hi
    · next hi => exact iff_of_false (Nat.lt_irrefl 0) hi
  rw [mem_candidates, hshare]

theorem mem_candidates_equal {y : Sys} {p : Pset} (h : p.mode = 2) {e : Nat × PMember} :
    e ∈ candidates y p ↔ e ∈ p.members ∧ memberNow y p e.1 e.2 = true := by
  simp only [mem_candidates, shareOf_equal h, Nat.one_pos, true_and]

theorem choose_fixed {y : Sys} {k : Nat} {p : Pset} {m : PMember} (hp : getSet y k = some p) (h : p.mode = 1)
    (hm : tget p.members p.fixed = some m) (he : memberNow y p p.fixed m = true) : (choose y k).2 = some (p.fixed, m) := by
  have hmem : (p.fixed, m) ∈ candidates y p := (mem_candidates_fixed h).mpr ⟨mem_of_tget hm, rfl, he⟩
  obtain ⟨e, hc, n, hn, hpick⟩ := choose_some hp (List.ne_nil_of_mem hmem)
  have hfix : e.1 = p.fixed := ((mem_candidates_fixed h).mp hc).2.1
  rw [hfix] at hn hpick
  rw [hpick, Option.some.inj (hn.symm.trans hm)]

theorem choose_fixed_none {y : Sys} {k : Nat} {p : Pset} (hp : getSet y k = some p) (h : p.mode = 1)
    (hno : ∀ m, (p.fixed, m) ∈ p.members → memberNow y p p.fixed m = false) : (choose y k).2 = none := by
  refine choose_none hp (List.eq_nil_iff_forall_not_mem.mpr fun e he => ?_)
  obtain ⟨hmem, hfix, hnow⟩ := (mem_candidates_fixed h).mp he
  rw [hfix, hno e.2 (hfix ▸ hmem)] at hnow
  exact nomatch hnow

theorem choose_equal {y : Sys} {k : Nat} {p : Pset} (hp : getSet y k = some p) (h : p.mode = 2) :
    (∃ e, e ∈ p.members ∧ memberNow y p e.1 e.2 = true) ↔ (choose y k).2.isSome = true := by
  simp only [← mem_candidates_equal h]
  constructor
  · rintro ⟨e, he⟩
    obtain ⟨_, _, _, _, hpick⟩ := choose_some hp (List.ne_nil_of_mem he)
    rw [hpick]
    rfl
  · contrapose
    intro hno
    rw [choose_none hp (List.eq_nil_iff_forall_not_mem.mpr fun e he => hno ⟨e, he⟩)]
    exact Bool.false_ne_true

/-! ### What a batch leaves alone (R225, R227) -/

theorem getSet_modSet_other {y : Sys} {k k' : Nat} {g : Pset → Pset} (h : k' ≠ k) : getSet (modSet y k g) k' = getSet y k' := by
  unfold modSet
  split
  · exact tget_tset_other _ _ _ _ h
  · rfl

/-- A batch rescores sets of mode 0 alone. -/
theorem mem_batchSets {y : Sys} {e : Nat × Bool} (h : e ∈ batchSets y) : ∃ p, (e.1, p) ∈ y.pe.sets ∧ p.mode = 0 := by
  rcases List.mem_append.mp h with h | h
  · obtain ⟨d, hd, rfl⟩ := List.mem_map.mp h
    obtain ⟨c, hc, hcd⟩ := List.mem_filterMap.mp (List.mem_mergeSort.mp hd)
    obtain ⟨hmem, hmode⟩ := List.mem_filter.mp hc
    have hkey : c.1 = d.1 := by
      split at hcd
      · split at hcd
        · exact congrArg Prod.fst (Option.some.inj hcd)
        · exact nomatch hcd
      · exact nomatch hcd
    exact ⟨c.2, hkey ▸ hmem, beq_iff_eq.mp hmode⟩
  · obtain ⟨d, hd, rfl⟩ := List.mem_map.mp h
    obtain ⟨c, hc, rfl⟩ := List.mem_map.mp (List.mem_mergeSort.mp hd)
    obtain ⟨hmem, hmode⟩ := List.mem_filter.mp (List.mem_filter.mp hc).1
    exact ⟨c.2, hmem, beq_iff_eq.mp hmode⟩

section
variable {y : Sys} {k : Nat} (h : ∀ b, (k, b) ∉ batchSets y)
include h

theorem ne_of_mem_batchSets {e : Nat × Bool} (he : e ∈ batchSets y) : e.1 ≠ k := fun hk => h e.2 (hk ▸ he)

theorem planTick_getSet : getSet (planTick y) k = getSet y k := by
  change getSet (agedSets y) k = getSet y k
  exact List.foldlRecOn (motive := fun z => getSet z k = getSet y k) (batchSets y) _ rfl fun z hz e he =>
    (getSet_modSet_other (ne_of_mem_batchSets h he).symm).trans hz

theorem planTick_plan_ne : ∀ e ∈ (planTick y).pe.plan.sets, e.1 ≠ k := by
  rw [planTick_sets]
  refine List.foldlRecOn (motive := fun t : Table (Table (Nat × Option Nat)) => ∀ e ∈ t, e.1 ≠ k) ((batchSets y).take 256) _ (by simp)
    fun t ht d hd e he => ?_
  cases hs : getSet (agedSets y) d.1 with
  | none => exact ht e (by simpa only [hs, Option.elim_none] using he)
  | some p =>
    rcases mem_tset (by simpa only [hs, Option.elim_some] using he) with rfl | he
    · exact ne_of_mem_batchSets h (List.mem_of_mem_take hd)
    · exact ht e he

end

theorem runPlacementBatch_getSet (f : FuseBank) (y : Sys) (k : Nat) : getSet (runPlacementBatch f y) k = getSet y k := by
  rw [runPlacementBatch_eq]
  split <;> rfl

/-- Settles O58: what a choice of each mode picks from, and that a batch takes up sets of mode 0 alone. -/
theorem fixedAndEqualSetsUseNoScores : Obligations.FixedAndEqualSetsUseNoScores := by
  unfold Obligations.FixedAndEqualSetsUseNoScores
  refine ⟨fun y k p hp h => ⟨fun m => choose_fixed hp h, choose_fixed_none hp h⟩,
    fun p i m v => ⟨fun h => shareOf_equal h i m, fun h => shareOf_scoreless h i m v⟩, fun y k p => choose_equal, fun s k hk => ?batch⟩
  case batch =>
    have hout (b : Bool) : (k, b) ∉ batchSets s.sys := fun hb => by
      obtain ⟨p, hmem, h0⟩ := mem_batchSets hb
      have hmode := hk p hmem
      omega
    exact ⟨hout, planTick_plan_ne hout, planTick_getSet hout, _, rfl, runPlacementBatch_getSet s.fuse s.sys k⟩

end Sys2Proof.Machine
end

section
/-! The commands of the routing tables, of the CC's datagrams and of the ports (Chapters 10 to 12): what each body answers in each of its cases. -/
namespace Sys2Proof.Machine

/-! ### The shadow bank and the routing mode (R240, R241, R260) -/

/-- A commit is pending, or the copy after a switch runs (R241). -/
def banksBusy (y : Sys) : Prop := y.rt.commit.isSome = true ∨ y.rt.copying = true

/-- The router configuration that a ROUTE_CONFIG carries. -/
def rtCfgOf (b : Bytes) : RtCfg :=
  { nmEn := (num b 8 1).testBit 1, nmBias := num b 10 2, revThresh := num b 12 2, mgRate := num b 16 2, mgBurst := num b 18 2,
    dgRate := num b 20 2, dgBurst := num b 22 2 }

/-- Out of Millpond mode only with valid coordinates in the active table (R260). -/
def mayRoute (y : Sys) (b : Bytes) : Prop := (num b 8 1).testBit 0 = true ∨ cvOf y.rt.act = true

section
variable {f : FuseBank} {y : Sys} {q : MbxReq}

theorem banksBusy_iff : (y.rt.commit.isSome || y.rt.copying) = true ↔ banksBusy y := by simp [banksBusy]

theorem bodyTblWrite_free (h : ¬ banksBusy y) : bodyTblWrite f y q =
    .done { y with rt := { y.rt with sh := bankWrite y.rt.sh (num q.payload 0 1) (tblEntries (num q.payload 0 1) q.payload) } } [] :=
  if_neg (mt banksBusy_iff.mp h)

theorem bodyTblWrite_busy (h : banksBusy y) : bodyTblWrite f y q = .no .busy := if_pos (banksBusy_iff.mpr h)

theorem bodyTblCommit_free (h : ¬ banksBusy y) : bodyTblCommit f y q =
    .wait { y with rt := { y.rt with
      commit := some { frame := if num q.payload 0 8 = 0 then frame y + 1 else num q.payload 0 8 * 2048 } } } .commit :=
  if_neg (mt banksBusy_iff.mp h)

theorem bodyTblCommit_busy (h : banksBusy y) : bodyTblCommit f y q = .no .busy := if_pos (banksBusy_iff.mpr h)

theorem mayRoute_iff {b : Bytes} : mayRoute y b ↔ ¬ ((num b 8 1).testBit 0 = false ∧ cvOf y.rt.act = false) := by
  simp [mayRoute, or_iff_not_imp_left]

theorem bodyRouteConfig_conflict (h : ¬ mayRoute y q.payload) : bodyRouteConfig f y q = .no .stateConflict :=
  if_pos (not_not.mp fun hn => h (mayRoute_iff.mpr hn))

section
variable (hm : mayRoute y q.payload)
include hm

theorem bodyRouteConfig_settled (ht : y.rt.transfer = none) : bodyRouteConfig f y q =
    .done { y with rt := { y.rt with
      cfgPend := some (rtCfgOf q.payload),
      modePend := if (num q.payload 8 1).testBit 0 = y.rt.millpond then none
        else some ((if num q.payload 0 8 = 0 then epoch y + 1 else num q.payload 0 8) * 2048, (num q.payload 8 1).testBit 0) } } [] := by
  simp only [bodyRouteConfig, if_neg (mayRoute_iff.mp hm), ht, rtCfgOf]

theorem bodyRouteConfig_agrees {n : Nat} (ht : y.rt.transfer = some (n, (num q.payload 8 1).testBit 0)) : bodyRouteConfig f y q =
    .done { y with rt := { y.rt with cfgPend := some (rtCfgOf q.payload) } } [] := by
  simp only [bodyRouteConfig, if_neg (mayRoute_iff.mp hm), ht, if_true, rtCfgOf]

theorem bodyRouteConfig_busy {n : Nat} {m : Bool} (ht : y.rt.transfer = some (n, m)) (hne : m ≠ (num q.payload 8 1).testBit 0) :
    bodyRouteConfig f y q = .no .busy := by
  simp only [bodyRouteConfig, if_neg (mayRoute_iff.mp hm), ht, if_neg hne]

end

end

/-- Settles O21: each body in each of its cases. -/
theorem routingTablesAndMode : Obligations.RoutingTablesAndMode := by
  unfold Obligations.RoutingTablesAndMode
  intro s q
  refine ⟨fun h => ⟨fun hb => ?write, fun hb => ?writeBusy⟩, fun h hw => ⟨fun hb => ?commit, fun hb => ?commitBusy⟩,
    fun h => ⟨fun hm ht => ?settled, fun hm n m ht => ⟨fun he => ?agrees, fun hne => ?otherMode⟩, fun hm => ?conflict⟩⟩
  case write => exact run_done rfl rfl h (bodyTblWrite_free hb)
  case writeBusy => exact run_no rfl h (bodyTblWrite_busy hb)
  case commit => exact run_wait rfl h hw (bodyTblCommit_free hb)
  case commitBusy => exact run_no rfl h (bodyTblCommit_busy hb)
  case settled => exact run_done rfl rfl h (bodyRouteConfig_settled hm ht)
  case agrees => exact run_done rfl rfl h (bodyRouteConfig_agrees hm (he ▸ ht))
  case otherMode => exact run_no rfl h (bodyRouteConfig_busy hm ht hne)
  case conflict => exact run_no rfl h (bodyRouteConfig_conflict hm)

/-! ### The CC's datagrams (R264) -/

/-- The datagram that a DGRAM_SEND carries. -/
def dgramOf (y : Sys) (b : Bytes) : Packet := dgram y (num b 0 4) (b.drop 8)

/-- The device's own allowance covers a datagram (R265). -/
def dgramCovered (y : Sys) (d : Packet) : Prop := d.len * 64 ≤ y.rt.ownDg ∧ y.rt.cfg.dgRate ≠ 0

section
variable {f : FuseBank} {y : Sys} {q : MbxReq}

theorem bodyDgramSend_noRoute {w : Nat} (hr : routeOf y 64 (dgramOf y q.payload) = .drop w) :
    bodyDgramSend f y q = .done y (le 1 0x08 ++ zeros 3) := by
  unfold dgramOf at hr
  simp only [bodyDgramSend, hr]

/-- A datagram with a route is held against the allowance alone. -/
theorem bodyDgramSend_routed (hr : ∀ w, routeOf y 64 (dgramOf y q.payload) ≠ .drop w) : bodyDgramSend f y q =
    if (y.rt.ownDg < (dgramOf y q.payload).len * 64 ∨ y.rt.cfg.dgRate = 0) then .done y (le 1 0x07 ++ zeros 3)
    else .done (enterCx { y with rt := { y.rt with ownDg := y.rt.ownDg - (dgramOf y q.payload).len * 64 } } (dgramOf y q.payload)) (zeros 4) := by
  unfold dgramOf at *
  cases h : routeOf y 64 (dgram y (num q.payload 0 4) (q.payload.drop 8)) with
  | drop w => exact absurd h (hr w)
  | wait => simp only [bodyDgramSend, h]
  | go r c => simp only [bodyDgramSend, h]

theorem dgramCovered_iff {d : Packet} : dgramCovered y d ↔ ¬ (y.rt.ownDg < d.len * 64 ∨ y.rt.cfg.dgRate = 0) := by
  simp [dgramCovered]

theorem bodyDgramRecv_nil (h : y.rt.dgq = []) : bodyDgramRecv f y q = .done y [] := by
  simp only [bodyDgramRecv, h]

theorem bodyDgramRecv_cons {c : Nat} {d : Bytes} {rest : List (Nat × Bytes)} (h : y.rt.dgq = (c, d) :: rest) : bodyDgramRecv f y q =
    .done { y with rt := { y.rt with dgq := rest } } (le 4 c ++ le 2 d.length ++ zeros 2 ++ d) := by
  simp only [bodyDgramRecv, h]

end

/-! ### LINK_CONTROL (R299, Table 11.13) -/

/-- A lane that a LANES mask adds is not good to use. -/
def addsBadLane (n : NPrt) (mask : Nat) : Prop :=
  ∃ k, k < 2 ∧ mask.testBit k = true ∧ n.rxLanes.testBit k = false ∧ laneGood n k = false

theorem addsBadLane_iff (n : NPrt) (mask : Nat) :
    (List.range 2).any (fun k => mask.testBit k && !n.rxLanes.testBit k && !laneGood n k) = true ↔ addsBadLane n mask := by
  simp [addsBadLane, and_assoc]

section
variable {f : FuseBank} {y : Sys} {q : MbxReq}

theorem bodyLinkControl_disable (h : num q.payload 1 1 = 0) : bodyLinkControl f y q = .done (portDisable y (num q.payload 0 1)) [] := by
  simp only [bodyLinkControl, h]

section
variable (h : num q.payload 1 1 = 1)
include h

theorem bodyLinkControl_enable (hd : (getNp y (num q.payload 0 1)).st = .disabled) : bodyLinkControl f y q =
    if (getNp (portEnable y (num q.payload 0 1)) (num q.payload 0 1)).st = .down then .done (portEnable y (num q.payload 0 1)) []
    else .wait (portEnable y (num q.payload 0 1)) (.link (num q.payload 0 1)) := by
  simp only [bodyLinkControl, h, if_pos hd]

theorem bodyLinkControl_again (hd : (getNp y (num q.payload 0 1)).st = .down) (ha : 8 ≤ (getNp y (num q.payload 0 1)).attempts) :
    bodyLinkControl f y q = .done (portToDown y (num q.payload 0 1)) [] := by
  simp only [bodyLinkControl, h, hd, ha, reduceCtorEq, and_self, if_true, if_false]

theorem bodyLinkControl_enabled (hd : (getNp y (num q.payload 0 1)).st ≠ .disabled)
    (ha : (getNp y (num q.payload 0 1)).st ≠ .down ∨ (getNp y (num q.payload 0 1)).attempts < 8) : bodyLinkControl f y q = .done y [] := by
  have hrest : ¬ ((getNp y (num q.payload 0 1)).st = .down ∧ 8 ≤ (getNp y (num q.payload 0 1)).attempts) := by
    rintro ⟨hdown, h8⟩
    exact ha.elim (fun hn => hn hdown) (fun hlt => by omega)
  simp only [bodyLinkControl, h, if_neg hd, if_neg hrest]

end

section
variable (h : num q.payload 1 1 = 2)
include h

theorem bodyLinkControl_lanesDown (hu : (getNp y (num q.payload 0 1)).st ≠ .up) : bodyLinkControl f y q = .no .stateConflict := by
  simp only [bodyLinkControl, h, if_pos hu]

theorem bodyLinkControl_lanesBusy (hu : (getNp y (num q.payload 0 1)).st = .up) (hr : (getNp y (num q.payload 0 1)).lreq ≠ none) :
    bodyLinkControl f y q = .no .busy := by
  simp only [bodyLinkControl, h, hu, Option.isSome_iff_ne_none.mpr hr, ne_eq, not_true, if_true, if_false]

theorem bodyLinkControl_lanes (hu : (getNp y (num q.payload 0 1)).st = .up) (hr : (getNp y (num q.payload 0 1)).lreq = none) :
    bodyLinkControl f y q =
      if (List.range 2).any (fun k => (num q.payload 2 1).testBit k && !(getNp y (num q.payload 0 1)).rxLanes.testBit k &&
        !laneGood (getNp y (num q.payload 0 1)) k) = true then .no .stateConflict
      else .wait (laneRequest y (num q.payload 0 1) (num q.payload 2 1) false (some (q.who, q.tag))) (.lanes (num q.payload 0 1)) := by
  simp only [bodyLinkControl, h, hu, hr, ne_eq, not_true, if_false, Option.isSome_none, Bool.false_eq_true]

end

/-! ### SL_PRBS (R317, R318) -/

theorem bodySlPrbs_quiet (hd : (getNp y (num q.payload 0 1)).st = .disabled) :
    let b := q.payload
    let p := num b 0 1
    let n := getNp y p
    let c := prbsAdd n (memAt q 0) (memAt q 1) (memAt q 2)
    let gen := (num b 1 1).testBit 2 && num b 2 1 != 0
    let lanes := if num b 2 1 = 0 then 0 else if num b 2 1 = 4 then 3 else bits (num b 1 1) 0 2
    let t := if (n.prbs.gen = true ∨ gen = true) ∧ quadLocked y (p / 2) = true then
        emit y (.pattern p (if gen = true then lanes else n.prbs.lanes) (if gen = true then num b 2 1 else 0)) else y
    bodySlPrbs f y q = .done
      (modNp t p fun n => { n with prbs :=
        { lanes, gen, check := (num b 1 1).testBit 3 && num b 2 1 != 0 && num b 2 1 != 3, pattern := num b 2 1,
          err0 := 0, err1 := 0, ui := 0 } })
      (le 8 c.err0 ++ le 8 c.err1 ++ le 8 c.ui) := by
  simp only [bodySlPrbs, hd, ne_eq, not_true, if_false, Bool.and_eq_true, Bool.or_eq_true]

theorem bodySlPrbs_conflict (hd : (getNp y (num q.payload 0 1)).st ≠ .disabled) : bodySlPrbs f y q = .no .stateConflict := if_pos hd

end

/-- Settles O22: each body in each of its cases. -/
theorem datagramsAndLinks : Obligations.DatagramsAndLinks := by
  unfold Obligations.DatagramsAndLinks
  intro s q
  refine ⟨fun h => ⟨fun w hr => ?noRoute, fun hr hc => ?sent, fun hr hc => ?dry⟩, fun h => ⟨fun hq => ?empty, fun c d rest hq => ?oldest⟩,
    fun h hw => ⟨fun hb => ?disable, fun hb hd => ⟨fun hn => ?enableWaits, fun hn => ?enableDown⟩, fun hb hd ha => ?again,
      fun hb hd ha => ?enabled, fun hb hu hr => ⟨fun hbad => ?lanes, fun hbad => ?lanesBad⟩, fun hb hu hr => ?lanesBusy,
      fun hb hu => ?lanesDown⟩, fun h => ⟨fun hd => ?prbs, fun hd => ?prbsConflict⟩⟩
  case noRoute => exact run_done rfl rfl h (bodyDgramSend_noRoute hr)
  case sent => exact run_done rfl rfl h ((bodyDgramSend_routed hr).trans (if_neg (dgramCovered_iff.mp hc)))
  case dry => exact run_done rfl rfl h ((bodyDgramSend_routed hr).trans (if_pos (not_not.mp fun hn => hc (dgramCovered_iff.mpr hn))))
  case empty => exact run_done rfl rfl h (bodyDgramRecv_nil hq)
  case oldest => exact run_done rfl rfl h (bodyDgramRecv_cons hq)
  case disable => exact run_slow rfl (by decide) h hw (bodyLinkControl_disable hb)
  case enableWaits => exact run_wait rfl h hw ((bodyLinkControl_enable hb hd).trans (if_neg hn))
  case enableDown => exact run_slow rfl (by decide) h hw ((bodyLinkControl_enable hb hd).trans (if_pos hn))
  case again => exact run_slow rfl (by decide) h hw (bodyLinkControl_again hb hd ha)
  case enabled => exact run_slow rfl (by decide) h hw (bodyLinkControl_enabled hb hd ha)
  case lanes => exact run_wait rfl h hw ((bodyLinkControl_lanes hb hu hr).trans (if_neg (mt (addsBadLane_iff _ _).mp hbad)))
  case lanesBad => exact run_no rfl h ((bodyLinkControl_lanes hb hu hr).trans (if_pos ((addsBadLane_iff _ _).mpr hbad)))
  case lanesBusy => exact run_no rfl h (bodyLinkControl_lanesBusy hb hu hr)
  case lanesDown => exact run_no rfl h (bodyLinkControl_lanesDown hb hu)
  case prbs => exact run_done rfl rfl h (bodySlPrbs_quiet hd)
  case prbsConflict => exact run_no rfl h (bodySlPrbs_conflict hd)

end Sys2Proof.Machine
end

section
/-! The switch (Chapter 10): routes, allocation, the escape, the sweep, and the switches of banks and modes, in each of their cases. -/
namespace Sys2Proof.Machine

/-! ### The packet at the head of a virtual channel (R253, R256) -/

section
variable {f : FuseBank} {y : Sys} {cx vc : Nat} {q : QPkt} (hq : headOf y cx vc = some q)
include hq

theorem runPacketRoute_unrouted (hr : q.route = none) : runPacketRoute f y cx vc = applyRoute y q (routeOf y cx q.pkt) := by
  simp only [runPacketRoute, hq, hr, Option.isNone_none, if_true]

theorem runPacketRoute_routed (hr : q.route ≠ none) : runPacketRoute f y cx vc = y := by
  simp only [runPacketRoute, hq, Option.isNone_iff_eq_none, if_neg hr]

theorem runRouteRecompute_plain (he : ∀ p, q.route ≠ some (.escape p)) (hc : ∀ ps c, q.route ≠ some (.copies ps c)) :
    runRouteRecompute f y cx vc = applyRoute y q (routeOf y cx q.pkt) := by
  cases hr : q.route with
  | none => simp only [runRouteRecompute, hq, hr]
  | some r =>
    cases r with
    | escape p => exact absurd hr (he p)
    | copies ps c => exact absurd hr (hc ps c)
    | net | ring | host | ce | cc => simp only [runRouteRecompute, hq, hr]

theorem runRouteRecompute_escape {p : Nat} (hr : q.route = some (.escape p)) : runRouteRecompute f y cx vc =
    applyRoute y q (if q.onEsc = true then routeOf y cx q.pkt else escapeRoute y false q.pkt) := by
  simp only [runRouteRecompute, hq, hr]

theorem runRouteRecompute_copies {ps : List Nat} {c : Bool} (hr : q.route = some (.copies ps c)) : runRouteRecompute f y cx vc = y := by
  simp only [runRouteRecompute, hq, hr]

theorem runOutputAllocate_head : runOutputAllocate f y cx vc = allocate y q := by
  simp only [runOutputAllocate, hq]

/-- A packet that no rule keeps from the escape (R256): adaptive, outside Millpond mode, not on escape, not at its destination. -/
theorem runEscapeMove_moves (hm : y.rt.millpond = false) (he : ∀ p, q.route ≠ some (.escape p)) (hmode : q.pkt.rmode = 0)
    (hon : q.onEsc = false) (hh : isHere y q.pkt = false) :
    runEscapeMove f y cx vc = applyRoute y q (escapeRoute y false q.pkt) := by
  cases hr : q.route with
  | none => simp [runEscapeMove, hq, hr, hm, hmode, hon, hh]
  | some r =>
    cases r with
    | escape p => exact absurd hr (he p)
    | copies | net | ring | host | ce | cc => simp [runEscapeMove, hq, hr, hm, hmode, hon, hh]

theorem runEscapeMove_stays (h : y.rt.millpond = true ∨ q.pkt.rmode ≠ 0 ∨ q.onEsc = true ∨ isHere y q.pkt = true) :
    runEscapeMove f y cx vc = y := by
  simp only [runEscapeMove, hq]
  refine if_pos ?_
  rcases h with h | h | h | h <;> simp [h]

end

/-! ### Allocation (R246, R256, R259, R262) -/

/-- The packet waits for another route. -/
def unrouted (y : Sys) (q : QPkt) : Sys := modQ y q.arr fun x => { x with route := none }

theorem allocate_old {y : Sys} {q : QPkt} (ho : tooOld y q.pkt = true) : allocate y q = dropQ y q 0x10 := if_pos ho

section
variable {y : Sys} {q : QPkt} (ho : tooOld y q.pkt = false)
include ho

theorem allocate_unrouted (hr : q.route = none) : allocate y q = y := by
  simp only [allocate, ho, hr, Bool.false_eq_true, if_false]

section
variable {p ig : Nat} (hr : q.route = some (.net p ig))
include hr

theorem allocate_net_shut (hp : routable y p = false) : allocate y q = unrouted y q := by
  simp only [allocate, ho, hr, hp, Bool.false_eq_true, if_false, Bool.not_false, if_true, unrouted]

theorem allocate_net_full (hp : routable y p = true)
    (hv : pickVc y p q.pkt.len ((List.range 4).map fun i => firstVc q.pkt.cls + i) = none) : allocate y q = y := by
  simp only [allocate, ho, hr, hp, hv, Bool.false_eq_true, if_false, Bool.not_true]

theorem allocate_net_sent (hp : routable y p = true) {v : Nat}
    (hv : pickVc y p q.pkt.len ((List.range 4).map fun i => firstVc q.pkt.cls + i) = some v) : allocate y q =
      toTx (takeQ (if ig ≠ q.pkt.igroup then count y 88 (if 64 ≤ q.cx then 0x02 else 0x03) 1 else y) q.arr) p v q
        { q.pkt with igroup := ig } := by
  simp only [allocate, ho, hr, hp, hv, Bool.false_eq_true, if_false, Bool.not_true]

end

section
variable {p : Nat} (hr : q.route = some (.escape p))
include hr

theorem allocate_escape_frozen (hz : y.rt.freeze.isSome = true) (hon : q.onEsc = false) : allocate y q = y := by
  simp only [allocate, ho, hr, hz, hon, Bool.false_eq_true, if_false, Bool.not_false, Bool.and_self, if_true]

/-- A freeze keeps packets from entering the escape and does not hold those on it (R241). -/
theorem allocate_escape (hz : y.rt.freeze = none ∨ q.onEsc = true) : allocate y q =
    if routable y p = false then (if q.onEsc = true then dropQ y q 0x15 else unrouted y q)
    else if canSend (getNp y p) (getRp y p).txq (escapeVc q.pkt.cls) 1 q.pkt.len = true then
      toTx (takeQ (if q.onEsc = true then y else trace (count y 88 0x01 1) q.pkt 7 p 0) q.arr) p (escapeVc q.pkt.cls) q q.pkt
    else y := by
  have hgo : (y.rt.freeze.isSome && !q.onEsc) = false := by
    rcases hz with h | h <;> simp [h]
  simp only [allocate, ho, hr, hgo, Bool.false_eq_true, if_false, Bool.not_eq_true', unrouted]

end

section
variable {p : Nat} {inb enters : Bool} (hr : q.route = some (.ring p inb enters))
include hr

theorem allocate_ring_shut (hp : routable y p = false) : allocate y q = unrouted y q := by
  simp only [allocate, ho, hr, hp, Bool.false_eq_true, if_false, Bool.not_false, if_true, unrouted]

/-- The bubble: a packet that enters a ring finds the room of two longest packets (R259). -/
theorem allocate_ring (hp : routable y p = true) : allocate y q =
    if canSend (getNp y p) (getRp y p).txq (firstVc q.pkt.cls + b2n inb) 1 q.pkt.len = true ∧
        (enters = true → 132 ≤ freeFlits (getNp y p) (getRp y p).txq (firstVc q.pkt.cls + b2n inb)) then
      toTx (takeQ y q.arr) p (firstVc q.pkt.cls + b2n inb) q { q.pkt with igroup :=
        (if isGlobal y p = true then ((wireOf y p).map (·.farDev)).getD 0 else if enters = true then myDev y else q.pkt.igroup) % 64 }
    else y := by
  have hroom : ((if enters = true then decide (132 ≤ freeFlits (getNp y p) (getRp y p).txq (firstVc q.pkt.cls + b2n inb)) else true) &&
      canSend (getNp y p) (getRp y p).txq (firstVc q.pkt.cls + b2n inb) 1 q.pkt.len) = true ↔
      canSend (getNp y p) (getRp y p).txq (firstVc q.pkt.cls + b2n inb) 1 q.pkt.len = true ∧
        (enters = true → 132 ≤ freeFlits (getNp y p) (getRp y p).txq (firstVc q.pkt.cls + b2n inb)) := by
    cases enters <;> simp [and_comm]
  simp only [allocate, ho, hr, hp, Bool.false_eq_true, if_false, Bool.not_true, hroom]

end

theorem allocate_host {h : Nat} (hr : q.route = some (.host h)) : allocate y q =
    if ejRoom y h q.pkt.len = true then
      freeBuf (takeQ (modHp y h fun x => { x with ej := x.ej ++ [(q.cx, q.pkt)] }) q.arr) q.cx q.pkt.vc q.pkt.len
    else y := by
  simp only [allocate, ho, hr, Bool.false_eq_true, if_false]

theorem allocate_ce (hr : q.route = some .ce) : allocate y q =
    freeBuf (takeQ { y with ce := { y.ce with colIn := y.ce.colIn ++ [(q.cx, q.pkt)] } } q.arr) q.cx q.pkt.vc q.pkt.len := by
  simp only [allocate, ho, hr, Bool.false_eq_true, if_false]

theorem allocate_cc (hr : q.route = some .cc) : allocate y q =
    freeBuf (takeQ { y with rt := { y.rt with ccIn := y.rt.ccIn ++ [(q.cx, q.pkt)] } } q.arr) q.cx q.pkt.vc q.pkt.len := by
  simp only [allocate, ho, hr, Bool.false_eq_true, if_false]

theorem allocate_copies {ps : List Nat} {ce : Bool} (hr : q.route = some (.copies ps ce)) :
    let t : Sys := if ce = true then { y with ce := { y.ce with colIn := y.ce.colIn ++ [(q.cx, q.pkt)] } } else y
    let r := ps.foldl (fun a p => sendCopy a q p) (t, [])
    allocate y q = if r.2 = [] then freeCopy (takeQ r.1 q.arr) q.cx q.pkt.vc q.pkt.len q.arr
      else modQ r.1 q.arr fun x => { x with route := some (.copies r.2 false) } := by
  simp only [allocate, ho, hr, Bool.false_eq_true, if_false, List.isEmpty_iff]

end

/-! ### Banks and modes (R241, R260) -/

section
variable {f : FuseBank} {y : Sys}

theorem runTableSwitch_some {c : Commit} (hc : y.rt.commit = some c) : runTableSwitch f y =
    if c.frame ≤ frame y then (if (switchBanks y).rt.freeze.isSome = true then switchBanks y else copyBanks (switchBanks y)) else y := by
  simp only [runTableSwitch, hc]

theorem runEscapeFreezeEnd_some {n : Nat} {b : Bank} (hz : y.rt.freeze = some (n, b)) : runEscapeFreezeEnd f y =
    if n ≤ frame y then copyBanks (clearEsc { y with rt := { y.rt with freeze := none } } true) else y := by
  simp only [runEscapeFreezeEnd, hz]

theorem runModeChangeStart_some {n : Nat} {m : Bool} (hm : y.rt.modePend = some (n, m)) : runModeChangeStart f y =
    if n ≤ frame y then startTransfer y m else y := by
  simp only [runModeChangeStart, hm]

/-- A packet's route computed afresh under the other mode; a multicast packet keeps its own. -/
def QPkt.rerouted (q : QPkt) : QPkt :=
  match q.route with
  | some (.copies _ _) => q
  | _ => { q with route := none }

theorem runModeTransferEnd_some {n : Nat} {m : Bool} (ht : y.rt.transfer = some (n, m)) : runModeTransferEnd f y =
    if n ≤ frame y then y.rt.ceOut.foldl enterCx { y with rt := { y.rt with
      millpond := m, transfer := none, ceOut := [], vcq := y.rt.vcq.map QPkt.rerouted } }
    else y := by
  simp only [runModeTransferEnd, ht]
  rfl

end

/-- Settles O41: each row in each of its cases, and where a packet goes by the kind of its route. -/
theorem switchMovesPackets : Obligations.SwitchMovesPackets := by
  unfold Obligations.SwitchMovesPackets
  intro s cx vc
  refine ⟨fun q hq => ⟨fun hr => ?route, fun hr => ?routed, fun he hc => ?recompute, fun p hr => ?recomputeEscape,
      fun ps c hr => ?recomputeCopies, ?allocate, allocate_old, fun ho => ⟨allocate_unrouted ho, fun p ig hr => ?net, fun p hr => ?escape,
        fun p inb enters hr => ?ring, fun h hr => ?host, allocate_ce ho, allocate_cc ho, fun ps ce hr => allocate_copies ho hr⟩,
      fun hm he hmode hon hh => ?moves, fun h => ?stays⟩,
    fun hq => ?noPacket, rfl, fun c hc => ⟨fun h => ?switch, fun h => ?switchEarly⟩, fun n b hz => ⟨fun h => ?freezeEnd, fun h => ?freezeEarly⟩,
    fun n m hp => ⟨fun h => ?modeStart, fun h => ?modeEarly⟩, fun n m ht => ⟨fun h => ?transferEnd, fun h => ?transferEarly⟩⟩
  case route => exact exec_run rfl (runPacketRoute_unrouted hq hr)
  case routed => exact exec_run rfl (runPacketRoute_routed hq hr)
  case recompute => exact exec_run rfl (runRouteRecompute_plain hq he hc)
  case recomputeEscape => exact exec_run rfl (runRouteRecompute_escape hq hr)
  case recomputeCopies => exact exec_run rfl (runRouteRecompute_copies hq hr)
  case allocate => exact exec_run rfl (runOutputAllocate_head hq)
  case net =>
    exact ⟨fun hp => allocate_net_shut ho hr hp, fun hp hv => allocate_net_full ho hr hp hv, fun hp v hv => allocate_net_sent ho hr hp hv⟩
  case escape =>
    refine ⟨allocate_escape_frozen ho hr, fun hz => ⟨fun hp => ?_, fun hp => ⟨fun hroom => ?_, fun hroom => ?_⟩⟩⟩
    · exact (allocate_escape ho hr hz).trans (if_pos hp)
    · exact (allocate_escape ho hr hz).trans (by simp [hp, hroom])
    · exact (allocate_escape ho hr hz).trans (by simp [hp, hroom])
  case ring =>
    exact ⟨allocate_ring_shut ho hr, fun hp hroom => (allocate_ring ho hr hp).trans (if_neg hroom),
      fun hp hroom => (allocate_ring ho hr hp).trans (if_pos hroom)⟩
  case host =>
    exact ⟨fun hroom => (allocate_host ho hr).trans (if_neg (Bool.eq_false_iff.mp hroom)),
      fun hroom => (allocate_host ho hr).trans (if_pos hroom)⟩
  case moves => exact exec_run rfl (runEscapeMove_moves hq hm he hmode hon hh)
  case stays => exact exec_run rfl (runEscapeMove_stays hq h)
  case noPacket =>
    exact ⟨exec_run rfl (by simp only [runPacketRoute, hq]), exec_run rfl (by simp only [runRouteRecompute, hq]),
      exec_run rfl (by simp only [runOutputAllocate, hq]), exec_run rfl (by simp only [runEscapeMove, hq])⟩
  case switch => exact exec_run rfl ((runTableSwitch_some hc).trans (if_pos h))
  case switchEarly => exact exec_run rfl ((runTableSwitch_some hc).trans (if_neg (Nat.not_le.mpr h)))
  case freezeEnd => exact exec_run rfl ((runEscapeFreezeEnd_some hz).trans (if_pos h))
  case freezeEarly => exact exec_run rfl ((runEscapeFreezeEnd_some hz).trans (if_neg (Nat.not_le.mpr h)))
  case modeStart => exact exec_run rfl ((runModeChangeStart_some hp).trans (if_pos h))
  case modeEarly => exact exec_run rfl ((runModeChangeStart_some hp).trans (if_neg (Nat.not_le.mpr h)))
  case transferEnd => exact exec_run rfl ((runModeTransferEnd_some ht).trans (if_pos h))
  case transferEarly => exact exec_run rfl ((runModeTransferEnd_some ht).trans (if_neg (Nat.not_le.mpr h)))

end Sys2Proof.Machine
end

section
/-! HELLO and the datagrams that arrive (Chapters 10 and 13): when each row does its work, and what it then does. -/
namespace Sys2Proof.Machine

/-- The HELLO that a port would send: the device's own, or the one sent last while the CC is away (R329). -/
def helloNow (f : FuseBank) (y : Sys) (p : Nat) : Hello :=
  if y.svc.ccUp = true then ownHello f y p else (getNp y p).helloTx.getD (ownHello f y p)

/-- A HELLO is due (R329): asked for, never sent, 64 frames gone by, or other contents but for the switch epoch. -/
def helloIsDue (y : Sys) (p : Nat) (h : Hello) : Prop :=
  (getNp y p).helloDue = true ∨ (getNp y p).helloSent = none ∨ (∃ k, (getNp y p).helloSent = some k ∧ k + 64 ≤ frame y) ∨
    ((getNp y p).helloTx.map fun x => { x with swEpoch := 0 }) ≠ some { h with swEpoch := 0 }

section
variable {f : FuseBank} {y : Sys}

theorem runHelloSend_due {p : Nat} (hu : (getNp y p).st = .up) (he : early y = false) (hd : helloIsDue y p (helloNow f y p)) :
    runHelloSend f y p = sendMgmt
      (modNp y p fun n => { n with helloSent := some (frame y), helloDue := false, helloTx := some (helloNow f y p) }) p 0x01
      (helloNow f y p).coord (helloBytes (helloNow f y p)) := by
  refine if_neg ?_
  simp only [hu, he, ne_eq, not_true, Bool.false_eq_true, false_or]
  rcases hd with h | h | ⟨k, h, hk⟩ | h
  · simp [h]
  · simp [h]
  · simp [h, hk]
  · have hne := bne_iff_ne.mpr h
    unfold helloNow at hne
    simp [hne]

theorem runHelloReceive_none (h : takeMgmt y 0x01 0x0F = none) : runHelloReceive f y = y := by
  simp only [runHelloReceive, h]

theorem runHelloReceive_some {p : Nat} {k : Packet} {t : Sys} (h : takeMgmt y 0x01 0x0F = some (p, k, t)) : runHelloReceive f y =
    if k.op = 0x01 then takeHello f t p (helloParse k.payload) else count t p 0x18 1 := by
  simp only [runHelloReceive, h]

theorem runDatagramReceive_nil (h : y.rt.ccIn = []) : runDatagramReceive f y = y := by
  simp only [runDatagramReceive, h]

theorem runDatagramReceive_cons {cx : Nat} {k : Packet} {rest : List (Nat × Packet)} (h : y.rt.ccIn = (cx, k) :: rest) :
    let t : Sys := { y with rt := { y.rt with ccIn := rest } }
    let u := trace t k 5 cx 0
    runDatagramReceive f y =
      if tooOld t k = true then trace (count t cx 0x10 1) k 8 cx 0x10
      else if 64 ≤ y.rt.dgq.length then trace (count t cx 0x19 1) k 8 cx 0x19
      else { u with rt := { u.rt with dgq := u.rt.dgq ++ [(k.sfeid % 2 ^ 18, k.payload)] } } := by
  simp only [runDatagramReceive, h]

end

/-- Settles O42: each row in each of its cases. -/
theorem helloAndDatagramsArrive : Obligations.HelloAndDatagramsArrive := by
  unfold Obligations.HelloAndDatagramsArrive
  intro s p
  refine ⟨fun hu he hd => ?send, fun q k t hk => ⟨fun h1 => ?hello, fun h1 => ?otherCode⟩, fun h => ?noMgmt, fun h => ?expired, fun h => ?fresh,
    fun cx k rest h => ⟨fun ho => ?old, fun ho hfull => ?full, fun ho hroom => ?queued⟩, fun h => ?noDatagram⟩
  case send => exact exec_run rfl (runHelloSend_due hu he hd)
  case hello => exact exec_run rfl ((runHelloReceive_some hk).trans (if_pos h1))
  case otherCode => exact exec_run rfl ((runHelloReceive_some hk).trans (if_neg h1))
  case noMgmt => exact exec_run rfl (runHelloReceive_none h)
  case expired => exact exec_run rfl (if_pos h)
  case fresh => exact exec_run rfl (if_neg (Nat.not_lt.mpr h))
  case old => exact exec_run rfl ((runDatagramReceive_cons h).trans (if_pos ho))
  case full => exact exec_run rfl ((runDatagramReceive_cons h).trans ((if_neg (Bool.eq_false_iff.mp ho)).trans (if_pos hfull)))
  case queued =>
    exact exec_run rfl ((runDatagramReceive_cons h).trans
      ((if_neg (Bool.eq_false_iff.mp ho)).trans (if_neg (Nat.not_le.mpr hroom))))
  case noDatagram => exact exec_run rfl (runDatagramReceive_nil h)

end Sys2Proof.Machine
end

section
/-! Start-up from WIPING to the switch of the tables (Chapters 13 and 16): the slot that boot selects, and each row in each of its cases. -/
namespace Sys2Proof.Machine

/-! ### A slot's state changed -/

/-- A slot that is not EMPTY is one of the record's. -/
theorem slot_lt_of_st {y : Sys} {k : Nat} (h : (getSlot y k).st ≠ .empty) : k < y.upd.slots.length := by
  by_contra hk
  exact h (by rw [getSlot, List.getD_eq_default _ _ (Nat.not_lt.mp hk)]; rfl)

theorem getSlot_slotTo_same {y : Sys} {k : Nat} (hk : k < y.upd.slots.length) (st : SlotSt) :
    getSlot (slotTo y k st) k = { getSlot y k with st := st } := by
  simp [getSlot, slotTo, modSlot, List.getD_eq_getElem?_getD, List.getElem?_eq_getElem hk]

theorem getSlot_slotTo_other {y : Sys} {k j : Nat} (h : j ≠ k) (st : SlotSt) : getSlot (slotTo y k st) j = getSlot y j := by
  simp [getSlot, slotTo, modSlot, List.getD_eq_getElem?_getD, Ne.symm h]

/-- A slot that is not EMPTY takes the state it is given. -/
theorem slotTo_st {y : Sys} {k : Nat} (h : (getSlot y k).st ≠ .empty) (st : SlotSt) : (getSlot (slotTo y k st) k).st = st := by
  rw [getSlot_slotTo_same (slot_lt_of_st h)]

/-- The checks of boot read a slot's bundle and its digest, no state of a slot (R390). -/
theorem bundleFail_slotTo (f : FuseBank) {y : Sys} {j : Nat} (h : (getSlot y j).st ≠ .empty) (st : SlotSt) :
    bundleFail f (slotTo y j st) j true = bundleFail f y j true := by
  simp only [bundleFail, check7, getSlot_slotTo_same (slot_lt_of_st h), Bool.true_or, Bool.and_true]

/-! ### The slot that boot selects (R391) -/

theorem slotIn_st {y : Sys} {st : SlotSt} {k : Nat} (h : slotIn y st = some k) : (getSlot y k).st = st := by
  simpa using List.find?_some h

/-- A slot that is run: ACTIVE, or in its TRIAL. -/
def bootable (y : Sys) (k : Nat) : Prop := (getSlot y k).st = .active ∨ (getSlot y k).st = .trial

/-- What a choice names is a slot to run. -/
def NamesBootable (r : Sys × Option Nat) : Prop := ∀ k, r.2 = some k → bootable r.1 k

theorem namesBootable_some {y : Sys} {k : Nat} (h : bootable y k) : NamesBootable (y, some k) := fun _ hj => Option.some.inj hj ▸ h

theorem namesBootable_none (y : Sys) : NamesBootable (y, none) := fun _ hj => nomatch hj

/-- The record once a TRIAL that a reset finds is given up. -/
def reverted (y : Sys) (k : Nat) : Sys := { slotTo y k .invalid with upd := { (slotTo y k .invalid).upd with lastEnd := 5 } }

section
variable {y : Sys}

theorem bootChoice_trialNext {k : Nat} (h : slotIn y .trialNext = some k) :
    bootChoice y = (slotTo (slotTo y k .trial) (1 - k) .backup, some k) := by
  simp only [bootChoice, h]

theorem bootChoice_reverts {k : Nat} (hn : slotIn y .trialNext = none) (h : slotIn y .trial = some k) : bootChoice y =
    if (getSlot (reverted y k) (1 - k)).st = .backup then (slotTo (reverted y k) (1 - k) .active, some (1 - k)) else (reverted y k, none) := by
  simp only [bootChoice, hn, h]
  rfl

theorem bootChoice_active (hn : slotIn y .trialNext = none) (h : slotIn y .trial = none) : bootChoice y = (y, slotIn y .active) := by
  simp only [bootChoice, hn, h]

theorem bootChoice_bootable : NamesBootable (bootChoice y) := by
  cases hn : slotIn y .trialNext with
  | some k =>
    have hst : (getSlot y k).st ≠ .empty := by simp [slotIn_st hn]
    rw [bootChoice_trialNext hn]
    exact namesBootable_some (.inr (by rw [getSlot_slotTo_other (by omega), slotTo_st hst]))
  | none =>
    cases ht : slotIn y .trial with
    | some k =>
      rw [bootChoice_reverts hn ht]
      split
      next hb => exact namesBootable_some (.inl (slotTo_st (by simp [hb]) _))
      next => exact namesBootable_none _
    | none =>
      rw [bootChoice_active hn ht]
      exact fun k hk => .inl (slotIn_st hk)

end

section
variable {f : FuseBank} {y : Sys}

/-- The other slot steps in for one that fails its checks. -/
def fallsBack (f : FuseBank) (t : Sys) (k : Nat) : Prop :=
  (getSlot (slotTo t k .invalid) (1 - k)).st = .backup ∧ bundleFail f (slotTo t k .invalid) (1 - k) true = 0

theorem bootSelect_none (h : (bootChoice y).2 = none) : (bootSelect f y).2 = none := by
  simp only [bootSelect, h]

section
variable {k : Nat} (h : (bootChoice y).2 = some k)
include h

theorem bootSelect_passes (hp : bundleFail f (bootChoice y).1 k true = 0) : bootSelect f y = ((bootChoice y).1, some k) := by
  simp only [bootSelect, h, if_pos hp]

theorem bootSelect_fallsBack (hp : bundleFail f (bootChoice y).1 k true ≠ 0) (hb : fallsBack f (bootChoice y).1 k) :
    bootSelect f y = (slotTo (slotTo (bootChoice y).1 k .invalid) (1 - k) .active, some (1 - k)) := by
  simp only [bootSelect, h, if_neg hp]
  exact if_pos hb

theorem bootSelect_fails (hp : bundleFail f (bootChoice y).1 k true ≠ 0) (hb : ¬ fallsBack f (bootChoice y).1 k) :
    (bootSelect f y).2 = none := by
  simp only [bootSelect, h, if_neg hp]
  exact congrArg Prod.snd (if_neg hb)

end

/-- The slot selected passes the checks at boot and is one to run: the choice itself, or the BACKUP it falls back on. -/
theorem bootSelect_bootable {j : Nat} (hj : (bootSelect f y).2 = some j) :
    bundleFail f (bootSelect f y).1 j true = 0 ∧ bootable (bootSelect f y).1 j := by
  cases h : (bootChoice y).2 with
  | none => exact nomatch (bootSelect_none h).symm.trans hj
  | some k =>
    by_cases hp : bundleFail f (bootChoice y).1 k true = 0
    · rw [bootSelect_passes h hp] at hj ⊢
      obtain rfl : k = j := Option.some.inj hj
      exact ⟨hp, bootChoice_bootable k h⟩
    · by_cases hb : fallsBack f (bootChoice y).1 k
      · rw [bootSelect_fallsBack h hp hb] at hj ⊢
        obtain rfl : 1 - k = j := Option.some.inj hj
        obtain ⟨hbackup, hpass⟩ := hb
        have hst : (getSlot (slotTo (bootChoice y).1 k .invalid) (1 - k)).st ≠ .empty := by simp [hbackup]
        exact ⟨(bundleFail_slotTo f hst _).trans hpass, .inl (slotTo_st hst _)⟩
      · exact nomatch (bootSelect_fails h hp hb).symm.trans hj

end

@[simp] theorem bootWrite_slots (s t : Sys) : (bootWrite s t).upd.slots = t.upd.slots := by
  unfold bootWrite
  split
  · rfl
  · simp only
    split <;> rfl

section
variable {f : FuseBank} {y : Sys} {bad : List (Nat × Nat)}

theorem selectSlot_none (h : (bootSelect f (loadKeys f (bootRead y) bad)).2 = none) : (selectSlot f y bad).start.noSlot = true := by
  simp only [selectSlot, h]

theorem selectSlot_some {k : Nat} (h : (bootSelect f (loadKeys f (bootRead y) bad)).2 = some k) :
    (selectSlot f y bad).start.noSlot = false ∧ (selectSlot f y bad).upd.run = k ∧
      (selectSlot f y bad).upd.slots = (bootSelect f (loadKeys f (bootRead y) bad)).1.upd.slots := by
  simp only [selectSlot, h, bootWrite_slots, and_self]

end

theorem bootable_of_slots {s t : Sys} {k : Nat} (h : t.upd.slots = s.upd.slots) (hb : bootable s k) : bootable t k := by
  unfold bootable getSlot at *
  rwa [h]

/-! ### From WIPING to DISCOVERY (R324, R391) -/

section
variable {f : FuseBank} {y : Sys}

/-- The wipe runs, and has not ended. -/
def wipeRuns (y : Sys) : Prop := y.dev.st = .wiping ∧ y.start.wiped = false ∧ y.start.misrBad = false ∧ y.pins.standby = false

theorem wipeRuns_iff : wipeRuns y ↔
    ¬ (y.dev.st ≠ .wiping ∨ y.start.wiped = true ∨ y.start.misrBad = true ∨ y.pins.standby = true) := by
  simp [wipeRuns]

theorem runWipeComplete_good (h : wipeRuns y) (ok : Bool) (bad : List (Nat × Nat)) :
    let t : Sys := { y with start := { y.start with wiped := true, flashOk := ok } }
    runWipeComplete f y true ok bad = if y.start.thermHold = true then t else enterBoot f t bad :=
  if_neg (wipeRuns_iff.mp h)

theorem runWipeComplete_failed (h : wipeRuns y) (ok : Bool) (bad : List (Nat × Nat)) :
    runWipeComplete f y false ok bad = fault { y with start := { y.start with misrBad := true } } 117 1 3 0 12 0 :=
  if_neg (wipeRuns_iff.mp h)

theorem runThermalCooldownRelease_cool {temps : List Int} (hw : y.dev.st = .wiping) (hd : y.start.wiped = true)
    (hh : y.start.thermHold = true) (hs : y.pins.standby = false) (ht : ∀ t ∈ temps, t < 760) (bad : List (Nat × Nat)) :
    runThermalCooldownRelease f y temps bad = enterBoot f { y with pwr := { y.pwr with temps := temps } } bad :=
  if_pos ⟨hw, hd, hh, hs, by simpa using ht⟩

theorem runBootComplete_stays (h : y.start.bootHold = true ∨ y.start.noSlot = true ∨ dark y = true) : runBootComplete f y = y :=
  if_pos (.inr h)

/-! ### The wiring record (R326, R327) -/

section
variable {recs : List FruRec} (hd : y.dev.st = .discovery) (hr : y.start.fruRead = false)
include hd hr

theorem fruUnread : ¬ (y.dev.st ≠ .discovery ∨ y.start.fruRead = true) := by simp [hd, hr]

theorem runFruRead_bad (hk : fruFail f (fruParts recs) ≠ 0) : runFruRead f y recs =
    logW { y with start := { y.start with fruRead := true } } 0x0002 2 0xFFFF (fruFail f (fruParts recs)) :=
  (if_neg (fruUnread hd hr)).trans (if_pos hk)

theorem runFruRead_good (hk : fruFail f (fruParts recs) = 0) :
    let t := ownRoot { y with start := { y.start with fruRead := true, fru := some (fruJoin (fruParts recs)) } } .freeRun
    runFruRead f y recs =
      if lifecycle f t = .retired then t else gateCheck ((fruJoin (fruParts recs)).entries.foldl mapPort t) :=
  (if_neg (fruUnread hd hr)).trans (if_neg (not_not.mpr hk))

end

/-! ### The tables derived, and the switch to them (R332, R333) -/

theorem runTableDerive_derives {r : Fru} (hf : y.start.fru = some r) (hst : y.dev.st = .discovery) (hs : r.tabsrc = false)
    (hd : y.start.derived = false) (hg : y.start.gateOpen = true) (ht : y.time.sync = .track) (hq : y.start.lastUp + 128 ≤ frame y) :
    let root := (nbrOxroot y).getD y.time.rootAddr
    let lost := (List.range r.g).filter fun g => g != r.group && oxGroup y r root g == 0
    runTableDerive f y = proposeSwitch (lost.foldl (fun s g => logW s 0x0007 1 0xFFFF g)
      { y with rt := { y.rt with sh := deriveBank y r root }, start := { y.start with derived := true, oxroot := some root } }) := by
  simp only [runTableDerive, hf]
  exact if_pos ⟨hst, hs, hd, hg, ht, hq⟩

theorem runTableDerive_once (hd : y.start.derived = true) : runTableDerive f y = y := by
  cases hf : y.start.fru with
  | none => simp only [runTableDerive, hf]
  | some r =>
    simp only [runTableDerive, hf]
    exact if_neg (by simp [hd])

/-- The epoch at which a device switches has come: its own for a late one, else the one proposed. -/
def switchDue (y : Sys) : Prop :=
  (∃ e, y.start.lateAt = some e ∧ e ≤ epoch y) ∨ (y.start.lateAt = none ∧ y.start.swEpoch ≠ 0 ∧ y.start.swEpoch ≤ epoch y)

theorem runTableModeSwitch_due (hd : y.start.derived = true) (hs : y.start.switched = false) (hst : y.dev.st = .discovery)
    (hdue : switchDue y) :
    let t := switchBanks { y with start := { y.start with switched := true } }
    runTableModeSwitch f y = startTransfer (if t.rt.freeze.isSome = true then t else copyBanks t) false := by
  rcases hdue with ⟨e, hl, he⟩ | ⟨hl, h0, he⟩
  · simp only [runTableModeSwitch, hl]
    exact if_pos ⟨hd, hs, by simpa using he, hst⟩
  · simp only [runTableModeSwitch, hl]
    exact if_pos ⟨hd, hs, by simp [h0, he], hst⟩

theorem runTableModeSwitch_once (hs : y.start.switched = true) : runTableModeSwitch f y = y := if_neg (by simp [hs])

end

/-- Settles O31: each row in each of its cases, and what boot's selection ends with. -/
theorem startUpGoesOn : Obligations.StartUpGoesOn := by
  unfold Obligations.StartUpGoesOn
  refine ⟨fun s => ⟨fun ok bad hw hd hm hs => ?wipe, fun good ok bad h => ?noWipe, fun temps bad hw hd hh hs ht => ?cool,
      fun bad => ⟨selectSlot_none, fun k hk => ?selected⟩, fun hst hh hn hd => ?boot, fun h => ?bootStays,
      fun recs hd hr => ⟨fun hk => ?fruBad, fun hk => ?fruGood⟩, fun hd he => ?settled⟩,
    fun s => ⟨fun r hf hst hs hd hg ht hq => ?derive, fun h => ?deriveOnce, fun hf hs h0 he => ?freeze, fun hd hs hst hdue => ?switch,
      fun h => ?switchOnce⟩⟩
  case wipe =>
    have hruns : wipeRuns s.sys := ⟨hw, hd, hm, hs⟩
    exact ⟨fun hh => exec_run rfl ((runWipeComplete_good hruns ok bad).trans (if_neg (Bool.eq_false_iff.mp hh))),
      fun hh => exec_run rfl ((runWipeComplete_good hruns ok bad).trans (if_pos hh)), exec_run rfl (runWipeComplete_failed hruns ok bad)⟩
  case noWipe => exact exec_run (y := s.sys) rfl (if_pos h)
  case cool => exact exec_run rfl (runThermalCooldownRelease_cool hw hd hh hs ht bad)
  case selected =>
    obtain ⟨hn, hrun, hslots⟩ := selectSlot_some hk
    obtain ⟨hpass, hb⟩ := bootSelect_bootable hk
    exact ⟨hn, hrun, hslots, hpass, bootable_of_slots hslots hb⟩
  case boot => exact exec_run rfl (if_neg (by simp [hst, hh, hn, hd]))
  case bootStays => exact exec_run rfl (runBootComplete_stays h)
  case fruBad => exact exec_run rfl (runFruRead_bad hd hr hk)
  case fruGood => exact exec_run rfl (runFruRead_good hd hr hk)
  case settled => exact exec_run rfl (if_pos ⟨hd, he⟩)
  case derive => exact exec_run rfl (runTableDerive_derives hf hst hs hd hg ht hq)
  case deriveOnce => exact exec_run rfl (runTableDerive_once h)
  case freeze => exact exec_run rfl (if_pos ⟨hf, hs, h0, he⟩)
  case switch => exact exec_run rfl (runTableModeSwitch_due hd hs hst hdue)
  case switchOnce => exact exec_run rfl (runTableModeSwitch_once h)

end Sys2Proof.Machine
end

section
/-! The commands that read records (Chapters 3, 10, 15, 17): what the two that look at the request or the state first answer. -/
namespace Sys2Proof.Machine

section
variable {f : FuseBank} {y : Sys} {q : MbxReq}

theorem bodyFnCntRead_fn {hp fn : Nat} (hw : q.who = .fn hp fn) : bodyFnCntRead f y q = .done y (recD3 y hp fn) := by
  simp only [bodyFnCntRead, hw]

theorem bodyAttestRead_some {r : Report} (hr : reportOf y q = some r) : bodyAttestRead f y q =
    .done { y with sec := { y.sec with reports := y.sec.reports.map fun x => if x == r then { x with lastEpoch := epoch y } else x } }
      (sub r.data (num q.payload 4 4) (num q.payload 8 2)) := by
  simp only [bodyAttestRead, hr]

end

/-- A request of a right length whose fields are wrong. -/
theorem preCheck_of_param {c : Spec} {f : FuseBank} {y : Sys} {q : MbxReq} (h4080 : q.payload.length ≤ 4080)
    (hl : c.lenOk q.payload.length = true) (hf : q.flags < 2) (hp : c.param f y q = false) : preCheck c f y q = some .badParam := by
  have hlen : ¬ (4080 < q.payload.length ∨ c.lenOk q.payload.length = false) := by simp [hl]; omega
  have hflags : ¬ q.flags ≠ q.flags % 2 := by omega
  simp only [preCheck, if_neg hlen, if_neg hflags, hp, if_true]

/-- Settles O10: the bodies answer on the device as the use of the session left it; an endpoint has no function, so FN_CNT_READ over MCTP fails
    the check of its fields. -/
theorem recordsAreRead : Obligations.RecordsAreRead := by
  unfold Obligations.RecordsAreRead
  intro s q
  refine ⟨fun h => run_done rfl rfl h rfl, fun h hp fn hw => ?fnCounters, fun e hw ht hb hf => ?fnCountersMctp, fun h => run_done rfl rfl h rfl,
    fun h => run_done rfl rfl h rfl, fun h => run_done rfl rfl h rfl, fun h => run_done rfl rfl h rfl, fun h r hr => ?attest⟩
  case fnCounters => exact run_done rfl rfl h (bodyFnCntRead_fn hw)
  case fnCountersMctp =>
    have hparam : specFnCntRead.param s.fuse (reached s.sys q) q = false := by simp [specFnCntRead, Spec.fast, hw]
    exact exec_turnedAway rfl ht (preCheck_of_param (by simp [hb]) (by rw [hb]; rfl) hf hparam)
  case attest => exact run_done rfl rfl h (bodyAttestRead_some hr)

end Sys2Proof.Machine
end

section
/-! Reception on a link and its acknowledgement (R279 to R290): when a packet or a link-control packet does its work, and what it then does. -/
namespace Sys2Proof.Machine

/-! ### Sequence numbers and ports -/

theorem seqD_self (q : Nat) : seqD q q = 0 := by
  unfold seqD
  omega

theorem modNp_id (s : Sys) (p : Nat) : modNp s p (fun n => n) = s :=
  congrArg (fun l => { s with nps := l }) (List.modify_id p s.nps)

/-- A change of a port beyond the last changes nothing. -/
theorem modNp_outside {s : Sys} {p : Nat} (h : s.nps.length ≤ p) (g : NPrt → NPrt) : modNp s p g = s :=
  congrArg (fun l => { s with nps := l }) (List.modify_eq_self h)

@[simp] theorem getNp_flitsIn (s : Sys) (p vc len q : Nat) : getNp (flitsIn s p vc len) q = getNp s q := rfl

@[simp] theorem getNp_trace (s : Sys) (k : Packet) (stage port detail q : Nat) : getNp (trace s k stage port detail) q = getNp s q := by
  unfold trace
  split_ifs <;> rfl

/-! ### A NEXT applied (R285) -/

/-- A port whose `adv` oldest packets have been acknowledged. -/
def freeOldest (adv : Nat) (n : NPrt) : NPrt :=
  { n with ll := { n.ll with
      replay := n.ll.replay.drop adv,
      retx := n.ll.retx.filter fun q => !((n.ll.replay.take adv).any fun r => r.pkt.lseq == q) } }

theorem freeOldest_zero (n : NPrt) : freeOldest 0 n = n := by simp [freeOldest]

theorem mem_freeOldest_retx {adv : Nat} {n : NPrt} {q : Nat} :
    q ∈ (freeOldest adv n).ll.retx ↔ q ∈ n.ll.retx ∧ ∀ r, r ∈ n.ll.replay.take adv → r.pkt.lseq ≠ q := by
  simp [freeOldest]

section
variable {y : Sys} {p next : Nat}

theorem applyNext_again (h : seqD next (oldestSeq (getNp y p)) = 0) : applyNext y p next = y := if_pos h

theorem applyNext_within (h : seqD next (oldestSeq (getNp y p)) ≤ (getNp y p).ll.replay.length) :
    applyNext y p next = modNp y p (freeOldest (seqD next (oldestSeq (getNp y p)))) := by
  by_cases h0 : seqD next (oldestSeq (getNp y p)) = 0
  · rw [applyNext_again h0, h0, funext freeOldest_zero, modNp_id]
  · exact (if_neg h0).trans (if_pos h)

theorem applyNext_beyond (h : (getNp y p).ll.replay.length < seqD next (oldestSeq (getNp y p))) :
    applyNext y p next = if seqD next (oldestSeq (getNp y p)) < 32768 then portDown y p 5 else y :=
  (if_neg (Nat.ne_zero_of_lt h)).trans (if_neg (Nat.not_le.mpr h))

/-- Of the freed port, that nothing but its replay and its schedule differ; a port beyond the last frees nothing. -/
theorem getNp_modNp_freeOldest (adv : Nat) : let t := modNp y p (freeOldest adv)
    getNp t p = { getNp y p with ll := { (getNp y p).ll with replay := (getNp t p).ll.replay, retx := (getNp t p).ll.retx } } := by
  rcases lt_or_ge p y.nps.length with hp | hp
  · simp only [getNp_modNp _ _ _ hp, freeOldest]
  · simp only [modNp_outside hp]

end

/-! ### A packet received (R280, R281, R286) -/

section
variable {f : FuseBank} {y : Sys} {p : Nat} {k : Packet}

section
variable {n : NPrt} (hn : getNp y p = n)
include hn

/-- A packet out of its turn has no copy. -/
theorem stompCopy_outOfTurn (hd : seqD k.lseq n.ll.nrx ≠ 0) (cut : Option Nat) : stompCopy f y p k cut = y := by
  subst hn
  have hne : k.lseq ≠ (getNp y p).ll.nrx := fun he => hd (he ▸ seqD_self _)
  cases cut with
  | none => rfl
  | some c => exact if_pos (.inl hne)

theorem llReceive_old (h : 61440 ≤ seqD k.lseq n.ll.nrx) : llReceive y p k = ackDue (count y p 0x04 1) p := by
  subst hn
  exact if_pos h

theorem llReceive_far (h : 4096 ≤ seqD k.lseq n.ll.nrx) (hlt : seqD k.lseq n.ll.nrx < 61440) : llReceive y p k = portDown y p 5 := by
  subst hn
  exact (if_neg (Nat.not_le.mpr hlt)).trans (if_pos h)

theorem llReceive_near (hlt : seqD k.lseq n.ll.nrx < 4096) : llReceive y p k =
    if seqD k.lseq n.ll.nrx = 0 then ackDue (releaseHeld (deliver y p k) p n.ll.held.length) p
    else if (n.ll.held.any fun h => h.lseq == k.lseq) = true then count y p 0x04 1
    else nackMissing (seenTo (modNp y p fun n => { n with ll := { n.ll with held := n.ll.held ++ [k] } }) p ((k.lseq + 1) % 65536)) p := by
  subst hn
  exact (if_neg (by omega)).trans (if_neg (by omega))

theorem llReceive_next (h : seqD k.lseq n.ll.nrx = 0) :
    llReceive y p k = ackDue (releaseHeld (deliver y p k) p n.ll.held.length) p := (llReceive_near hn (by omega)).trans (if_pos h)

section
variable (h0 : 0 < seqD k.lseq n.ll.nrx) (hlt : seqD k.lseq n.ll.nrx < 4096)
include h0 hlt

theorem llReceive_again (hh : ∃ h ∈ n.ll.held, h.lseq = k.lseq) : llReceive y p k = count y p 0x04 1 :=
  (llReceive_near hn hlt).trans ((if_neg h0.ne').trans (if_pos (by simpa using hh)))

theorem llReceive_ahead (hh : ∀ h ∈ n.ll.held, h.lseq ≠ k.lseq) : llReceive y p k =
    nackMissing (seenTo (modNp y p fun n => { n with ll := { n.ll with held := n.ll.held ++ [k] } }) p ((k.lseq + 1) % 65536)) p :=
  (llReceive_near hn hlt).trans ((if_neg h0.ne').trans (if_neg (by simpa using hh)))

end

end

/-- A packet that has come in: its flits are counted, and a tagged one is traced. -/
def packetSeen (y : Sys) (p : Nat) (marks : List Nat) (k : Packet) : Sys := trace (flitsIn y p k.vc marks.length) k 2 p 0

@[simp] theorem getNp_packetSeen (marks : List Nat) (q : Nat) : getNp (packetSeen y p marks k) q = getNp y q := by simp [packetSeen]

section
variable {hcrc : Nat} {marks : List Nat} {cut : Option Nat} (hu : (getNp y p).st = .up)
include hu

theorem runLlPacketReceive_badHeader (h : ¬ (marks.head? = some 1 ∧ hcrc = k.hcrc)) :
    runLlPacketReceive f y p hcrc marks k cut = count (flitsIn y p k.vc marks.length) p 0x01 1 :=
  (if_neg (not_not.mpr hu)).trans (if_pos (by simpa only [ne_eq, not_and_or] using h))

section
variable (h : marks.head? = some 1 ∧ hcrc = k.hcrc)
include h

theorem runLlPacketReceive_goodHeader : runLlPacketReceive f y p hcrc marks k cut =
    let u := packetSeen y p marks k
    if marksGood marks k.len = false ∨ (k.payOk = false ∧ k.stomped = false) then
      let v := stompCopy f (count u p 0x01 1) p k cut
      if seqD k.lseq (getNp y p).ll.nrx < 4096 then nackMissing (seenTo v p ((k.lseq + 1) % 65536)) p else v
    else llReceive (if k.stomped = true then stompCopy f u p k cut else u) p k :=
  (if_neg (not_not.mpr hu)).trans (if_neg (by simp [h]))

variable (hm : marksGood marks k.len = true) (hp : k.payOk = true ∨ k.stomped = true)
include hm hp

theorem runLlPacketReceive_good : runLlPacketReceive f y p hcrc marks k cut =
    llReceive (if k.stomped = true then stompCopy f (packetSeen y p marks k) p k cut else packetSeen y p marks k) p k := by
  have hgood : ¬ (marksGood marks k.len = false ∨ (k.payOk = false ∧ k.stomped = false)) := by
    rcases hp with hp | hp <;> simp [hm, hp]
  exact (runLlPacketReceive_goodHeader hu h).trans (if_neg hgood)

/-- A good packet out of its turn has no cut-through copy to end. -/
theorem runLlPacketReceive_outOfTurn (hd : seqD k.lseq (getNp y p).ll.nrx ≠ 0) :
    runLlPacketReceive f y p hcrc marks k cut = llReceive (packetSeen y p marks k) p k := by
  rw [runLlPacketReceive_good hu h hm hp, stompCopy_outOfTurn (getNp_packetSeen marks p) hd, ite_self]

end

end

end

/-- Settles O57: the four ranges of a NEXT, and that an ACK with a good header applies it. -/
theorem acknowledgementsMoveTheReplay : Obligations.AcknowledgementsMoveTheReplay := by
  unfold Obligations.AcknowledgementsMoveTheReplay
  intro y p next
  refine ⟨fun h => ?again, fun hb hlt => ?beyond, fun hw => ⟨?frame, fun q hq => ?otherPorts, ?port, fun hp => ⟨?replay, fun q => ?retx⟩⟩,
    fun s h m hs hm => ⟨fun hg => ?good, fun hg => ?bad⟩⟩
  case again =>
    rcases h with h0 | ⟨hb, hfar⟩
    · exact applyNext_again h0
    · exact (applyNext_beyond hb).trans (if_neg (Nat.not_lt.mpr hfar))
  case beyond => exact (applyNext_beyond hb).trans (if_pos hlt)
  case frame => rw [applyNext_within hw]; rfl
  case otherPorts => rw [applyNext_within hw, getNp_modNp_other _ _ _ _ hq]
  case port => rw [applyNext_within hw]; exact getNp_modNp_freeOldest _
  case replay => rw [applyNext_within hw, getNp_modNp _ _ _ hp]; rfl
  case retx => rw [applyNext_within hw, getNp_modNp _ _ _ hp]; exact mem_freeOldest_retx
  case good => subst hs hm; exact exec_run rfl (if_pos hg)
  case bad => subst hs hm; exact exec_run rfl (if_neg (Bool.eq_false_iff.mp hg))

/-- Settles O38: a packet by its header, its payload and its distance from the next one, and each link-control packet taken or not. -/
theorem linkLayerReceives : Obligations.LinkLayerReceives := by
  unfold Obligations.LinkLayerReceives
  intro s p
  refine ⟨fun hcrc marks k cut hu => ⟨fun hh => ?badHeader, fun hh hb => ?badPayload, fun ⟨hh, hm, hp⟩ hd hw => ?next, fun hc => ?noCopy,
      fun hd => ?noCopyLater, fun ⟨hh, hm, hp⟩ h0 hlt hnew => ?ahead, fun ⟨hh, hm, hp⟩ h0 hlt hheld => ?again,
      fun ⟨hh, hm, hp⟩ hfar hlt => ?far, fun ⟨hh, hm, hp⟩ hold => ?old⟩,
    fun h m => ⟨fun hg => ?ack, fun hg => ?ackBad⟩, fun h m => ⟨fun hg => ?nack, fun hg => ?nackBad⟩,
    fun h m => ⟨fun hg => ?cred, fun hg => ?credBad⟩, fun h m => ⟨fun hg => ?ripple, fun hg => ?rippleBad⟩⟩
  case badHeader => exact exec_run rfl (runLlPacketReceive_badHeader hu hh)
  case badPayload => exact exec_run rfl ((runLlPacketReceive_goodHeader hu hh).trans (if_pos hb))
  case next => exact exec_run rfl ((runLlPacketReceive_good hu hh hm hp).trans (llReceive_next rfl hw))
  case noCopy =>
    rcases hc with hc | hc
    · exact if_neg (Bool.eq_false_iff.mp hc)
    · subst hc; exact ite_self _
  case noCopyLater => exact stompCopy_outOfTurn (getNp_packetSeen marks p) hd cut
  case ahead =>
    exact exec_run rfl ((runLlPacketReceive_outOfTurn hu hh hm hp h0.ne').trans (llReceive_ahead (getNp_packetSeen marks p) h0 hlt hnew))
  case again =>
    exact exec_run rfl ((runLlPacketReceive_outOfTurn hu hh hm hp h0.ne').trans (llReceive_again (getNp_packetSeen marks p) h0 hlt hheld))
  case far =>
    exact exec_run rfl ((runLlPacketReceive_outOfTurn hu hh hm hp (by omega)).trans (llReceive_far (getNp_packetSeen marks p) hfar hlt))
  case old =>
    exact exec_run rfl ((runLlPacketReceive_outOfTurn hu hh hm hp (by omega)).trans (llReceive_old (getNp_packetSeen marks p) hold))
  case ack => exact exec_run rfl (if_pos hg)
  case ackBad => exact exec_run rfl (if_neg (Bool.eq_false_iff.mp hg))
  case nack => exact exec_run rfl (if_pos hg)
  case nackBad => exact exec_run rfl (if_neg (Bool.eq_false_iff.mp hg))
  case cred => exact exec_run rfl (if_pos hg)
  case credBad => exact exec_run rfl (if_neg (Bool.eq_false_iff.mp hg))
  case ripple => exact exec_run rfl (if_pos hg)
  case rippleBad => exact exec_run rfl (if_neg (Bool.eq_false_iff.mp hg))

end Sys2Proof.Machine
end

section
/-! What the link layer sends (R247, R278, R283, R284, R291): the choice of a new packet, and each row in each of its cases. -/
namespace Sys2Proof.Machine

/-! ### The choice of a new packet (R247, R278, R288) -/

/-- The packet that has waited longest is one of those that wait. -/
theorem oldestOf_mem {q : List TxPkt} {c : PClass} {t : TxPkt} (h : oldestOf q c = some t) : t ∈ q := by
  refine List.foldlRecOn (motive := fun a => a = some t → t ∈ q) _ _ (by simp) ?_ h
  intro a ih u hu
  have hmem : u ∈ q := (List.mem_filter.mp hu).1
  cases a with
  | none => exact fun he => Option.some.inj he ▸ hmem
  | some b =>
    simp only
    split_ifs
    · exact fun he => Option.some.inj he ▸ hmem
    · exact ih

theorem oldestOf_filter_ok {q : List TxPkt} {ok : TxPkt → Bool} {c : PClass} {t : TxPkt} (h : oldestOf (q.filter ok) c = some t) :
    ok t = true := (List.mem_filter.mp (oldestOf_mem h)).2

/-- Whatever its turns, the round robin picks a packet that may go. -/
theorem drrPick_ok {q : List TxPkt} {ok : TxPkt → Bool} {t : TxPkt} {d' : List Nat} {c' : Nat} :
    ∀ {fuel : Nat} {d : List Nat} {c : Nat}, drrPick q ok fuel d c = some (t, d', c') → ok t = true
  | 0, _, _, h => nomatch h
  | fuel + 1, d, c, h => by
    unfold drrPick at h
    cases ho : oldestOf (q.filter ok) (drrClass c) with
    | none =>
      rw [ho] at h
      exact drrPick_ok h
    | some u =>
      rw [ho] at h
      simp only at h
      split_ifs at h
      · obtain ⟨rfl, -⟩ := Prod.mk.inj (Option.some.inj h)
        exact oldestOf_filter_ok ho
      · exact drrPick_ok h

/-- A new packet lies within the replay window, and is of VC15 where the port is not routable. -/
theorem pickNew_some {y : Sys} {p cycle : Nat} {t : TxPkt} {d : List Nat} {c : Nat} (h : pickNew y p cycle = some (t, d, c)) :
    windowOk (getNp y p) t.pkt.len = true ∧ (t.vc = 15 ∨ routable y p = true) := by
  unfold pickNew at h
  simp only at h
  split at h
  case h_1 u hm =>
    obtain ⟨rfl, -⟩ := Prod.mk.inj (Option.some.inj h)
    have hu := List.find?_some hm
    simp only [Bool.and_eq_true, beq_iff_eq] at hu
    obtain ⟨⟨hvc, hwin⟩, -⟩ := hu
    exact ⟨hwin, .inl hvc⟩
  case h_2 =>
    split_ifs at h with hr hwin
    · refine ⟨?_, .inr (Bool.eq_true_of_not_eq_false hr)⟩
      split at h
      case h_1 u hcol =>
        obtain ⟨rfl, -⟩ := Prod.mk.inj (Option.some.inj h)
        have hfits := oldestOf_filter_ok hcol
        exact (Bool.and_eq_true_iff.mp hfits).1
      case h_2 =>
        have hok := drrPick_ok h
        exact (Bool.and_eq_true_iff.mp hok).1
    · have hok := drrPick_ok h
      exact ⟨(Bool.and_eq_true_iff.mp hok).1, .inr (Bool.eq_true_of_not_eq_false hr)⟩

/-! ### LL_ACK_SEND (R281, R283) -/

section
variable {f : FuseBank} {y : Sys} {p : Nat}

theorem runLlAckSend_due (hu : (getNp y p).st = .up) (ha : (getNp y p).ll.ackDue = true) : runLlAckSend f y p =
    let n := getNp y p
    if nameable n y.time.ft ≠ [] then nackMissing y p
    else
      let now := (creditDue n).take 12
      ctlSend (modNp y p fun n =>
        { n with ll := { n.ll with rep := n.ll.rep.mapIdx fun v x => if now.contains v then n.ll.cum.getD v (0, 0) else x,
                                   rot := now.getLastD n.ll.rot, ackDue := decide (12 < (creditDue (getNp y p)).length) } })
        p (.ack { next := n.ll.nrx, recs := now.map fun v => (v, n.ll.cum.getD v (0, 0)) }) :=
  if_neg (by simp [hu, ha])

/-! ### PACKET_TRANSMIT (R290, R291, R302) -/

variable {cycle block : Nat}

theorem runPacketTransmit_audit (hst : (getNp y p).st = .up ∨ (getNp y p).st = .init) (ha : (getNp y p).ll.auditBad = true) :
    runPacketTransmit f y p cycle block = portDown y p 6 :=
  (if_neg (not_and_or.mpr (hst.imp not_not.mpr not_not.mpr))).trans (if_pos ha)

section
variable (ha : (getNp y p).ll.auditBad = false)
include ha

theorem runPacketTransmit_unlocked (hq : quadLocked y (p / 2) = false) : runPacketTransmit f y p cycle block = y :=
  ite_eq_left_iff.mpr fun _ => (if_neg (Bool.eq_false_iff.mp ha)).trans (if_pos hq)

variable (hq : quadLocked y (p / 2) = true)
include hq

theorem runPacketTransmit_switch (hu : (getNp y p).st = .up) {tag mask : Nat} (hs : (getNp y p).lswitch = some (tag, mask)) :
    runPacketTransmit f y p cycle block = laneDone (modNp (sendOut y p (.lane { sub := 4, tag, mask, forced := false })) p fun n =>
      { n with lswitch := none, txLanes := mask }) p := by
  simp [runPacketTransmit, hu, ha, hq, hs]

theorem runPacketTransmit_ctl (hst : (getNp y p).st = .up ∨ (getNp y p).st = .init)
    (hs : (getNp y p).st = .init ∨ (getNp y p).lswitch = none) {c : Ctl} {rest : List Ctl}
    (hc : nextCtl (getNp y p).lcq = some (c, rest)) : runPacketTransmit f y p cycle block = sendCtl y p c rest cycle block := by
  have hsw : (if (getNp y p).st = .up then (getNp y p).lswitch else none) = none := by
    rcases hs with hi | hn
    · simp [hi]
    · simp [hn]
  have hon : ¬ ((getNp y p).st ≠ .up ∧ (getNp y p).st ≠ .init) := not_and_or.mpr (hst.imp not_not.mpr not_not.mpr)
  simp only [runPacketTransmit, if_neg hon, ha, hq, hsw, hc, Bool.false_eq_true, Bool.true_eq_false, if_false]

section
variable (hu : (getNp y p).st = .up) (hs : (getNp y p).lswitch = none) (hc : nextCtl (getNp y p).lcq = none)
  (hlos : (getNp y p).losAt = none) (hlock : (getNp y p).lockAt = none)
include hu hs hc hlos hlock

theorem runPacketTransmit_retx {q : Nat} (hr : pickRetx y p = some q) :
    runPacketTransmit f y p cycle block = sendRetx y p q ((getNp y p).ll.retx.erase q) cycle := by
  simp [runPacketTransmit, hu, ha, hq, hs, hc, hlos, hlock, hr]

theorem runPacketTransmit_new (hr : pickRetx y p = none) {t : TxPkt} {d : List Nat} {c : Nat} (hn : pickNew y p cycle = some (t, d, c)) :
    runPacketTransmit f y p cycle block = sendNew (modRp y p fun r => { r with drr := d, drrCls := c }) p t cycle := by
  simp [runPacketTransmit, hu, ha, hq, hs, hc, hlos, hlock, hr, hn]

theorem runPacketTransmit_nothing (hr : pickRetx y p = none) (hn : pickNew y p cycle = none) :
    runPacketTransmit f y p cycle block = y := by
  simp [runPacketTransmit, hu, ha, hq, hs, hc, hlos, hlock, hr, hn]

end

end

end

/-- Settles O39: each row in each of its cases, PACKET_TRANSMIT in the order of R291. -/
theorem linkLayerSends : Obligations.LinkLayerSends := by
  unfold Obligations.LinkLayerSends
  intro s p
  refine ⟨fun hu ha => ⟨fun hm => ?nack, fun hm => ?ack⟩, fun hu hd => ?replay, fun h => ?noReplay,
    fun cycle block hst ha hq => ⟨fun tag mask hu hs => ?switch, fun c rest hs hc => ?ctl,
      fun hu hs hc hlos hlock => ⟨fun q hr => ?retx, fun t d c hr hn => ⟨?new, pickNew_some hn⟩, fun hr hn => ?nothing⟩⟩,
    fun cycle block hst ha => ?audit, fun cycle block ha hq => ?unlocked⟩
  case nack => exact exec_run rfl ((runLlAckSend_due hu ha).trans (if_pos hm))
  case ack => exact exec_run rfl ((runLlAckSend_due hu ha).trans (if_neg (not_not.mpr hm)))
  case replay => exact exec_run rfl (if_pos ⟨hu, hd⟩)
  case noReplay => exact exec_run rfl (if_neg (not_and_or.mpr (h.imp_right Bool.eq_false_iff.mp)))
  case switch => exact exec_run rfl (runPacketTransmit_switch ha hq hu hs)
  case ctl => exact exec_run rfl (runPacketTransmit_ctl ha hq hst hs hc)
  case retx => exact exec_run rfl (runPacketTransmit_retx ha hq hu hs hc hlos hlock hr)
  case new => exact exec_run rfl (runPacketTransmit_new ha hq hu hs hc hlos hlock hr hn)
  case nothing => exact exec_run rfl (runPacketTransmit_nothing ha hq hu hs hc hlos hlock hr hn)
  case audit => exact exec_run rfl (runPacketTransmit_audit hst ha)
  case unlocked => exact exec_run rfl (runPacketTransmit_unlocked ha hq)

end Sys2Proof.Machine
end

section
/-! Training, INIT and the losses that take a port down (R272, R273, R296, R312, R313): each row in each of its cases. -/
namespace Sys2Proof.Machine

section
variable {f : FuseBank} {y : Sys} {p fec : Nat} {skew : Int}

/-! ### The phases of training (R313, R314) -/

section
variable (hq : quadLocked y (p / 2) = true)
include hq

theorem runTrainingPhaseDone_training (ht : (getNp y p).st = .training) : runTrainingPhaseDone f y p fec skew =
    let n := getNp y p
    if n.phase = 1 then
      modNp y p fun n =>
        { onLanes n n.sl.train (fun l => { l with sd := true, lock := true, trained := decide (n.sl.chan = 2) }) with
          phase := if n.sl.chan = 2 then 3 else 2, initAt := frame y }
    else if n.phase = 2 then
      modNp y p fun n => { onLanes n n.sl.train (fun l => { l with trained := true }) with phase := 3, initAt := frame y }
    else if (fec = 1 ∨ fec = 2) ∧ skewOk n n.sl.train skew = true then
      modNp (enterInit y p) p fun n => { n with rxFec := fec, serFec := fec }
    else y := by
  simp only [runTrainingPhaseDone, hq, ht, reduceCtorEq, ne_eq, not_true, Bool.true_eq_false, if_false]

theorem runTrainingPhaseDone_up (hu : (getNp y p).st = .up) : runTrainingPhaseDone f y p fec skew =
    let m := 3 - (getNp y p).rxLanes
    if (getNp y p).addPhase = 1 then
      modNp y p fun n => { onLanes n m (fun l => { l with sd := true, lock := true }) with addPhase := if n.sl.chan = 2 then 3 else 2 }
    else if (getNp y p).addPhase = 2 then modNp y p fun n => { n with addPhase := 3 }
    else if (getNp y p).addPhase = 3 then modNp y p fun n => { onLanes n m (laneTrained y) with addPhase := 0 }
    else y := (if_neg (by simp [hq])).trans (if_pos hu)

end

/-! ### INIT (R273, R275) -/

section
variable {h : CtlHdr} {m : InitMsg} (hg : (ctlIn y p h (.init m)).2 = true)
include hg

theorem runInitReceive_taken : runInitReceive f y p h m =
    let t := (ctlIn y p h (.init m)).1
    if initBad m = true then count t p 0x08 1
    else if (getNp t p).st = .init then
      let u := modNp t p fun n => { n with ll := { n.ll with peer := m, gotInit := true } }
      if m.got = true then enterUp f u p else u
    else if m.got = true then t else portDown t p 0x0B := if_pos hg

variable (hb : initBad m = false)
include hb

theorem runInitReceive_good : runInitReceive f y p h m =
    let t := (ctlIn y p h (.init m)).1
    if (getNp t p).st = .init then
      let u := modNp t p fun n => { n with ll := { n.ll with peer := m, gotInit := true } }
      if m.got = true then enterUp f u p else u
    else if m.got = true then t else portDown t p 0x0B := (runInitReceive_taken hg).trans (if_neg (Bool.eq_false_iff.mp hb))

end

/-! ### Loss of signal or lock (R296) -/

section
variable (hu : (getNp y p).st = .up) {k : Nat} (hk : k + 2 ≤ frame y)
include hu hk

theorem runLosDeclare_signal (hl : (getNp y p).losAt = some k) : runLosDeclare f y p = portDown y p 1 := by
  simp [runLosDeclare, hu, hl, hk]

theorem runLosDeclare_lock (hl : (getNp y p).losAt = none) (hc : (getNp y p).lockAt = some k) : runLosDeclare f y p = portDown y p 2 := by
  simp [runLosDeclare, hu, hl, hc, hk]

end

end

/-- Settles O37: each row in each of its cases. -/
theorem linksTrainAndGoDown : Obligations.LinksTrainAndGoDown := by
  unfold Obligations.LinksTrainAndGoDown
  intro s p
  refine ⟨fun hd hf ha hc hq ht => ?holdoff, fun h => ?held,
    fun ht hq fec skew => ⟨fun h1 => ?phase1, fun h2 => ?phase2, fun h3 hfec => ⟨fun hk => ?phase3, fun hk => ?skewed⟩⟩,
    fun hu hq fec skew => ⟨fun h1 => ?add1, fun h2 => ?add2, fun h3 => ?add3⟩, fun signal ht hf => ?phaseTimeout,
    fun h m hg => ⟨fun hb => ?initBad, fun hb hi => ?initTaken, fun hb hi => ?initInUp⟩, fun hi hf => ?initTimeout, fun hu hf => ?silent,
    fun hu hf => ?heard, fun hu k hl hk => ?signalLost, fun hu hl k hc hk => ?lockLost, fun h c hg => ?peerDown⟩
  case holdoff => exact exec_run rfl (if_pos ⟨hd, hf, ha, hc, hq, ht⟩)
  case held =>
    refine exec_run rfl (if_neg ?_)
    rintro ⟨hd, -, ha, -⟩
    exact h.elim (fun hn => hn hd) (fun h8 => by omega)
  case phase1 => exact exec_run rfl ((runTrainingPhaseDone_training hq ht).trans (if_pos h1))
  case phase2 => exact exec_run rfl ((runTrainingPhaseDone_training hq ht).trans ((if_neg (by omega)).trans (if_pos h2)))
  case phase3 =>
    exact exec_run rfl ((runTrainingPhaseDone_training hq ht).trans ((if_neg (by omega)).trans ((if_neg (by omega)).trans (if_pos ⟨hfec, hk⟩))))
  case skewed =>
    exact exec_run rfl ((runTrainingPhaseDone_training hq ht).trans
      ((if_neg (by omega)).trans ((if_neg (by omega)).trans (if_neg fun hok => Bool.eq_false_iff.mp hk hok.2))))
  case add1 => exact exec_run rfl ((runTrainingPhaseDone_up hq hu).trans (if_pos h1))
  case add2 => exact exec_run rfl ((runTrainingPhaseDone_up hq hu).trans ((if_neg (by omega)).trans (if_pos h2)))
  case add3 =>
    exact exec_run rfl ((runTrainingPhaseDone_up hq hu).trans ((if_neg (by omega)).trans ((if_neg (by omega)).trans (if_pos h3))))
  case phaseTimeout => exact exec_run rfl (if_pos ⟨ht, hf⟩)
  case initBad => exact exec_run rfl ((runInitReceive_taken hg).trans (if_pos hb))
  case initTaken => exact exec_run rfl ((runInitReceive_good hg hb).trans (if_pos hi))
  case initInUp => exact exec_run rfl ((runInitReceive_good hg hb).trans (if_neg hi))
  case initTimeout => exact exec_run rfl (if_pos ⟨hi, hf⟩)
  case silent => exact exec_run rfl (if_pos ⟨hu, hf⟩)
  case heard => exact exec_run rfl (if_neg fun hs => absurd hs.2 (Nat.not_le.mpr hf))
  case signalLost => exact exec_run rfl (runLosDeclare_signal hu hk hl)
  case lockLost => exact exec_run rfl (runLosDeclare_lock hu hk hl hc)
  case peerDown => exact exec_run rfl (if_pos hg)

end Sys2Proof.Machine
end

section
/-! Lane changes between two neighbours (R292 to R295): each kind of LANE packet, the expiry and the request in each of their cases. -/
namespace Sys2Proof.Machine

section
variable {f : FuseBank} {y : Sys} {p : Nat}

/-! ### LANE_RECEIVE (R293, R294) -/

/-- A request names a lane of the two that meets a condition. -/
theorem anyLane_iff {mask : Nat} {c : Nat → Bool} :
    ((List.range 2).any fun k => mask.testBit k && c k) = true ↔ ∃ k, k < 2 ∧ mask.testBit k = true ∧ c k = true := by
  simp only [List.any_eq_true, List.mem_range, Bool.and_eq_true]

/-- A request is refused (R293): its mask is empty or names a lane that is not good, unless it is FORCED and a lane of it can send. -/
def laneRefused (n : NPrt) (m : LaneMsg) : Prop :=
  m.mask = 0 ∨ ((∃ k, k < 2 ∧ m.mask.testBit k = true ∧ laneGood n k = false) ∧
    ¬ (m.forced = true ∧ ∃ k, k < 2 ∧ m.mask.testBit k = true ∧ canTx n k = true))

theorem laneRefused_iff {n : NPrt} {m : LaneMsg} :
    (m.mask = 0 ∨ (((List.range 2).any fun k => m.mask.testBit k && !laneGood n k) = true ∧
      ¬ (m.forced = true ∧ ((List.range 2).any fun k => m.mask.testBit k && canTx n k) = true))) ↔ laneRefused n m := by
  simp only [anyLane_iff, Bool.not_eq_true', laneRefused]

/-- The own request gives way to the neighbour's (R293). -/
def yieldLane (y : Sys) (p : Nat) : Sys :=
  if (getNp y p).lreq.isSome = true then
    endWait (modNp y p fun n => { n with lreq := none }) (fun w => w == .lanes p) .stateConflict []
  else y

section
variable {h : CtlHdr} {m : LaneMsg} {t : Sys} (ht : (ctlIn y p h (.lane m)).1 = t) (hg : (ctlIn y p h (.lane m)).2 = true)
include ht hg

section
variable (hm : m.sub = 1)
include hm

theorem runLaneReceive_again (hs : (getNp t p).lsrv = some m.tag) : runLaneReceive f y p h m =
    ctlSend t p (.lane { sub := 2, tag := m.tag, mask := m.mask, forced := m.forced }) := by
  subst ht
  simp [runLaneReceive, hg, hm, hs]

variable (hs : (getNp t p).lsrv ≠ some m.tag)
include hs

theorem runLaneReceive_loses (hw : reqWins f (getNp t p) m.forced = false) : runLaneReceive f y p h m = t := by
  subst ht
  simp [runLaneReceive, hg, hm, hs, hw]

theorem runLaneReceive_refuses (hw : reqWins f (getNp t p) m.forced = true) (hr : laneRefused (getNp t p) m) :
    runLaneReceive f y p h m = ctlSend (yieldLane t p) p (.lane { sub := 3, tag := m.tag, mask := m.mask, forced := m.forced }) := by
  subst ht
  simp only [runLaneReceive, hg, hm, if_neg hs, hw, if_pos (laneRefused_iff.mpr hr), Bool.true_eq_false, if_false, if_true, yieldLane]

theorem runLaneReceive_serves (hw : reqWins f (getNp t p) m.forced = true) (hr : ¬ laneRefused (getNp t p) m) :
    runLaneReceive f y p h m = ctlSend (switchTx (modNp (yieldLane t p) p fun n => { n with lsrv := some m.tag }) p m.tag m.mask) p
      (.lane { sub := 2, tag := m.tag, mask := m.mask, forced := m.forced }) := by
  subst ht
  simp only [runLaneReceive, hg, hm, if_neg hs, hw, if_neg (mt laneRefused_iff.mp hr), Bool.true_eq_false, if_false, if_true, yieldLane]

end

theorem runLaneReceive_acked (hm : m.sub = 2) {q : LaneReq} (hq : (getNp t p).lreq = some q) (htag : q.tag = m.tag)
    (ha : q.acked = false) : runLaneReceive f y p h m =
      laneDone (switchTx (modNp t p fun n => { n with lreq := some { q with acked := true } }) p q.tag q.mask) p := by
  subst ht
  simp [runLaneReceive, hg, hm, hq, htag, ha]

theorem runLaneReceive_refused (hm : m.sub = 3) {q : LaneReq} (hq : (getNp t p).lreq = some q) (htag : q.tag = m.tag) :
    runLaneReceive f y p h m = laneAbandon t p .stateConflict := by
  subst ht
  simp [runLaneReceive, hg, hm, hq, htag]

theorem runLaneReceive_switched_own (hm : m.sub = 4) {q : LaneReq} (hq : (getNp t p).lreq = some q) :
    runLaneReceive f y p h m = laneDone (rxSwitch t p m.mask) p := by
  subst ht
  simp [runLaneReceive, hg, hm, hq]

theorem runLaneReceive_switched_served (hm : m.sub = 4) (hq : (getNp t p).lreq = none) : runLaneReceive f y p h m =
    let v := rxSwitch t p m.mask
    if (getNp t p).lsrv = some m.tag ∧ (getNp v p).txLanes = m.mask then count v p 0x09 1 else v := by
  subst ht
  simp [runLaneReceive, hg, hm, hq]

end

/-! ### LANE_REQ_TIMEOUT and LANE_ADD_REQUEST (R292, R295) -/

section
variable {q : LaneReq} (hq : (getNp y p).lreq = some q)
include hq

theorem runLaneReqTimeout_some : runLaneReqTimeout f y p =
    if q.since + 16 ≤ frame y then
      if q.forced = true ∧ (getNp y p).rxLanes ≠ q.mask then laneAbandon y p .timeout
      else if q.acked = true then y
      else if q.tries < 3 then
        ctlSend (modNp y p fun n => { n with lreq := some { q with tries := q.tries + 1, since := frame y } }) p
          (.lane { sub := 1, tag := q.tag, mask := q.mask, forced := q.forced })
      else laneAbandon y p .timeout
    else y := by
  simp only [runLaneReqTimeout, hq]

theorem runLaneReqTimeout_unanswered (hf : q.since + 16 ≤ frame y) (ha : q.acked = false)
    (hn : q.forced = false ∨ (getNp y p).rxLanes = q.mask) : runLaneReqTimeout f y p =
      if q.tries < 3 then
        ctlSend (modNp y p fun n => { n with lreq := some { q with tries := q.tries + 1, since := frame y } }) p
          (.lane { sub := 1, tag := q.tag, mask := q.mask, forced := q.forced })
      else laneAbandon y p .timeout := by
  have hkeeps : ¬ (q.forced = true ∧ (getNp y p).rxLanes ≠ q.mask) := not_and_or.mpr (hn.imp Bool.eq_false_iff.mp not_not.mpr)
  exact (runLaneReqTimeout_some hq).trans ((if_pos hf).trans ((if_neg hkeeps).trans (if_neg (Bool.eq_false_iff.mp ha))))

end

/-- The lane that a port on one lane does not receive on. -/
theorem otherLane {n : NPrt} {k : Nat} (hk : k < 2) (hr : n.rxLanes = 2 - k) : (if n.rxLanes.testBit 0 = true then 1 else 0) = k := by
  interval_cases k <;> simp [hr]

theorem runLaneAddRequest_due {k e : Nat} (hk : k < 2) (hr : (getNp y p).rxLanes = 2 - k) (hg : laneGood (getNp y p) k = true)
    (hl : (if k = 0 then (getNp y p).lane0 else (getNp y p).lane1).lockEpoch = some e) (he : e + 1 < epoch y)
    (hu : (getNp y p).st = .up) (hq : (getNp y p).lreq = none) : runLaneAddRequest f y p = laneRequest y p 3 false none := by
  have hone : (getNp y p).rxLanes = 1 ∨ (getNp y p).rxLanes = 2 := by omega
  simp only [runLaneAddRequest, otherLane hk hr, hl]
  exact if_pos ⟨hu, hq, hone, hg, he⟩

end

/-- Settles O43: each kind of LANE packet, the expiry and the request in each of their cases. -/
theorem laneChangesAreNegotiated : Obligations.LaneChangesAreNegotiated := by
  unfold Obligations.LaneChangesAreNegotiated
  intro s p
  refine ⟨fun h m hg => ⟨fun hm hs => ?again, fun hm hs hw => ?loses, fun hm hs hw hr => ?refuses, fun hm hs hw hr => ?serves,
      fun hm q hq ht ha => ?acked, fun hm q hq ht => ?refused, fun hm hq => ?switchedOwn, fun hm hq => ?switchedServed⟩,
    fun h m hb => ?bad, fun q hq hf hforced hmask => ?forced, fun q hq hf => ?early,
    fun q hq ha hf hn => ⟨fun ht => ?repeats, fun ht => ?abandons⟩, fun k e hk hr hg hl he hu hq => ?add⟩
  case again => exact exec_run rfl (runLaneReceive_again rfl hg hm hs)
  case loses => exact exec_run rfl (runLaneReceive_loses rfl hg hm hs hw)
  case refuses => exact exec_run rfl (runLaneReceive_refuses rfl hg hm hs hw hr)
  case serves => exact exec_run rfl (runLaneReceive_serves rfl hg hm hs hw hr)
  case acked => exact exec_run rfl (runLaneReceive_acked rfl hg hm hq ht ha)
  case refused => exact exec_run rfl (runLaneReceive_refused rfl hg hm hq ht)
  case switchedOwn =>
    obtain ⟨q, hq⟩ := Option.isSome_iff_exists.mp hq
    exact exec_run rfl (runLaneReceive_switched_own rfl hg hm hq)
  case switchedServed => exact exec_run rfl (runLaneReceive_switched_served rfl hg hm hq)
  case bad => exact exec_run rfl (if_pos hb)
  case forced => exact exec_run rfl ((runLaneReqTimeout_some hq).trans ((if_pos hf).trans (if_pos ⟨hforced, hmask⟩)))
  case early => exact exec_run rfl ((runLaneReqTimeout_some hq).trans (if_neg (Nat.not_le.mpr hf)))
  case repeats => exact exec_run rfl ((runLaneReqTimeout_unanswered hq hf ha hn).trans (if_pos ht))
  case abandons => exact exec_run rfl ((runLaneReqTimeout_unanswered hq hf ha hn).trans (if_neg (Nat.not_lt.mpr ht)))
  case add => exact exec_run rfl (runLaneAddRequest_due hk hr hg hl he hu hq)

end Sys2Proof.Machine
end

section
/-! Fuses (R373): a step programs bits in, and takes none away. -/
namespace Sys2Proof.Machine

/-- A bank that has grown from a bank that has grown. -/
theorem FuseBank.grown.trans {f g h : FuseBank} (hfg : f.grown g) (hgh : g.grown h) : f.grown h := by
  obtain ⟨uid, keys, rev, order, npdis, lc, dbg, svn, lock, uds⟩ := hfg
  obtain ⟨uid', keys', rev', order', npdis', lc', dbg', svn', lock', uds'⟩ := hgh
  have and_trans {w : Nat} {a b c : BitVec w} (hab : a &&& b = a) (hbc : b &&& c = b) : a &&& c = a := by
    rw [← hab, BitVec.and_assoc, hbc]
  exact ⟨uid'.trans uid, keys'.trans keys, rev'.trans rev, order'.trans order, npdis'.trans npdis, and_trans lc lc', and_trans dbg dbg',
    and_trans svn svn', and_trans lock lock', uds'.trans uds⟩

/-- Bits blown are bits added (R373). -/
theorem FuseBank.grown_blow (f : FuseBank) (b : BitVec 3 × BitVec 64 × BitVec 64 × BitVec 1) : f.grown (f.blow b) := by
  have and_or_self {w : Nat} (a c : BitVec w) : a &&& (a ||| c) = a := by
    ext i hi
    simp only [BitVec.getElem_and, BitVec.getElem_or]
    cases a[i] <;> rfl
  exact ⟨rfl, rfl, rfl, rfl, rfl, and_or_self _ _, and_or_self _ _, and_or_self _ _, and_or_self _ _, rfl⟩

theorem FuseBank.grown_refl (f : FuseBank) : f.grown f := by simp [FuseBank.grown]

/-- What FUSE_PROGRAM_COMPLETE leaves in the fuses has grown from what was there. -/
theorem runFuseProgramComplete_grown (f : FuseBank) (y : Sys) (ok : Bool) : f.grown (runFuseProgramComplete f y ok).1 := by
  cases h : y.svc.fuseOp with
  | none => rw [runFuseProgramComplete_none h]; exact f.grown_refl
  | some op => rw [runFuseProgramComplete_some h]; exact f.grown_blow _

/-- A command that programs no fuses leaves the bank as it was. -/
theorem exec_fuse {c : Instr} {s t : State} (hc : programsFuses c = false) (h : exec c s = .next t) : t.fuse = s.fuse := by
  obtain ⟨y, hy⟩ := exec_device c s hc
  cases hy.symm.trans h
  rfl

/-- Every command leaves a bank that has grown. -/
theorem exec_grown {c : Instr} {s t : State} (h : exec c s = .next t) : s.fuse.grown t.fuse := by
  cases hc : programsFuses c with
  | false => rw [exec_fuse hc h]; exact s.fuse.grown_refl
  | true =>
    cases c
    case fuseProgramComplete ok =>
      cases (execFuseProgramComplete_eq ok s).symm.trans h
      exact runFuseProgramComplete_grown s.fuse s.sys ok
    all_goals exact nomatch hc

/-- Settles O3: a step runs the front command, FUSE_PROGRAM_COMPLETE blows bits in, and no other command reaches the bank. -/
theorem fuseBitsAreNeverLost : Obligations.FuseBitsAreNeverLost := by
  unfold Obligations.FuseBitsAreNeverLost
  refine ⟨fun f s t hs h => ?grown, fun s t h hp => ?kept⟩
  case grown =>
    cases hq : s.pending with
    | nil =>
      cases (step_nil s hq).symm.trans h
      exact hs
    | cons c rest =>
      rw [step_cons s c rest hq] at h
      exact hs.trans (exec_grown (s := { s with pending := rest }) h)
  case kept =>
    cases hq : s.pending with
    | nil =>
      cases (step_nil s hq).symm.trans h
      rfl
    | cons c rest =>
      rw [step_cons s c rest hq] at h
      exact exec_fuse (s := { s with pending := rest }) (by simpa [hq] using hp) h

end Sys2Proof.Machine
end

section
/-! The detectors of lanes, the PLLs of quads and the reference clocks (R302, R311, R312, R442): each row in each of its cases. -/
namespace Sys2Proof.Machine

section
variable {f : FuseBank} {y : Sys} {p k : Nat}

/-! ### Signal, lock and alignment (R292, R311, R312) -/

theorem runLosAssert_eq : runLosAssert f y p k =
    reDetect (modLane (if laneActive (getNp y p) k = true ∧ (laneOf (getNp y p) k).sd = true then count y p 0x25 1 else y) p k
      fun l => { l with sd := false }) p := by
  simp only [runLosAssert, Bool.and_eq_true]

/-- A lane out of lock: in use, it is counted, and the port's detectors are evaluated again. -/
def lockLost (y : Sys) (p k : Nat) : Sys :=
  reDetect (modLane (if laneActive (getNp y p) k = true ∧ (laneOf (getNp y p) k).lock = true then count y p 0x26 1 else y) p k
    fun l => { l with lock := false, lockEpoch := none }) p

/-- One lane of two in use is lost while the other is locked and no forced change runs: it is to be dropped (R292; log entry 36). -/
def dropsLane (n : NPrt) (k : Nat) : Prop :=
  laneActive n k = true ∧ n.st = .up ∧ n.rxLanes = 3 ∧ (if 1 - k = 0 then n.lane0.lock else n.lane1.lock) = true ∧
    (n.lreq.map (·.forced)).getD false = false

theorem dropsLane_iff {n : NPrt} : (laneActive n k && n.st == .up && n.rxLanes == 3 && (if 1 - k = 0 then n.lane0.lock else n.lane1.lock) &&
    !((n.lreq.map (·.forced)).getD false)) = true ↔ dropsLane n k := by
  simp only [Bool.and_eq_true, beq_iff_eq, Bool.not_eq_true', dropsLane, and_assoc]

theorem lockLost_eq : lockLost y p k =
    reDetect (modLane (if (laneActive (getNp y p) k && (laneOf (getNp y p) k).lock) = true then count y p 0x26 1 else y) p k
      fun l => { l with lock := false, lockEpoch := none }) p := by
  simp only [lockLost, Bool.and_eq_true]

theorem runLockLoss_stays (h : ¬ dropsLane (getNp y p) k) : runLockLoss f y p k = lockLost y p k := by
  rw [lockLost_eq]
  exact if_neg (mt dropsLane_iff.mp h)

theorem runLockLoss_drops (h : dropsLane (getNp y p) k) : runLockLoss f y p k =
    laneRequest (if (getNp y p).lreq.isSome = true then laneAbandon (lockLost y p k) p .stateConflict else lockLost y p k) p
      (2 ^ (1 - k)) true none := by
  rw [lockLost_eq]
  exact if_pos (dropsLane_iff.mpr h)

theorem runAlignmentLoss_aligned (hu : (getNp y p).st = .up) (ha : (getNp y p).aligned = true) : runAlignmentLoss f y p =
    reDetect (modNp (count y p 0x27 1) p fun m =>
      { m with aligned := false, alignLost := allActive (getNp y p) fun l => l.lock }) p :=
  if_neg (by simp [hu, ha])

/-- A port in UP that is aligned again: a FORCED request of its own that waits goes on (R294). -/
theorem runAlignmentFound_up (hu : (getNp y p).st = .up) : runAlignmentFound f y p =
    let t := reDetect (modNp y p fun n => { n with aligned := true, alignLost := false }) p
    match (getNp y p).lreq with
    | some q => if q.forced then laneDone (rxSwitch t p q.mask) p else t
    | none => t :=
  if_neg (not_not.mpr hu)

/-! ### Quads and reference clocks (R302, R442) -/

theorem runQuadPllRelock_unlocked {q : Nat} (hq : quadLocked y q = false) (he : portEnabled f (2 * q) = true) :
    runQuadPllRelock f y q = [2 * q, 2 * q + 1].foldl
      (fun s p => reDetect (modNp (patternOut s p (getNp s p).prbs.pattern) p fun n => onLanes n 3 fun l => { l with lock := l.sd }) p)
      { y with pwr := { y.pwr with quadLock := y.pwr.quadLock.set q true }, pins := { y.pins with refSl := y.pins.refSl.set (q / 8) true } } :=
  if_neg (by simp [hq, he])

end

/-- Settles O40: each row in each of its cases. -/
theorem laneDetectorsAct : Obligations.LaneDetectorsAct := by
  unfold Obligations.LaneDetectorsAct
  intro s p k
  refine ⟨?losAssert, rfl, ⟨fun h => ?stays, fun h => ?drops⟩, fun hq => ?regain, fun hq => ?regainUnlocked, fun hu ha => ?misaligned,
    fun h => ?noLoss, fun hu => ⟨fun q hq hf => ?foundForced, fun h => ?found⟩, fun q => rfl, fun q h => if_pos h, fun q hq he => ?relock,
    fun r hr => ?refSerdes, fun q hq he => ?unlock, fun r hr => ?refHost⟩
  case losAssert => exact exec_run rfl runLosAssert_eq
  case stays => exact exec_run rfl (runLockLoss_stays h)
  case drops => exact exec_run rfl (runLockLoss_drops h)
  case regain => exact exec_run rfl (if_neg (by simp [hq]))
  case regainUnlocked => exact exec_run rfl (if_pos hq)
  case misaligned => exact exec_run rfl (runAlignmentLoss_aligned hu ha)
  case noLoss => exact exec_run rfl (if_pos h)
  case foundForced => exact exec_run rfl ((runAlignmentFound_up hu).trans (by simp [hq, hf]))
  case found =>
    refine exec_run rfl ((runAlignmentFound_up hu).trans ?_)
    rcases h with hn | ⟨q, hq, hf⟩
    · simp [hn]
    · simp [hq, hf]
  case relock => exact exec_run rfl (runQuadPllRelock_unlocked hq he)
  case refSerdes => exact exec_run rfl (if_pos hr)
  case unlock => exact if_neg (by simp [hq, he])
  case refHost => exact exec_run rfl (if_neg (Nat.not_lt.mpr hr))

end Sys2Proof.Machine
end

section
/-! Faults and trace under command, and the commands on the board and the lanes that read: what each body answers in each of its cases. -/
namespace Sys2Proof.Machine

section
variable {f : FuseBank} {y : Sys} {q : MbxReq}

/-! ### FAULT_CLEAR and TRACE_CONFIG (R415, R427 to R429) -/

/-- The fault sources that a FAULT_CLEAR names. -/
def clearedSrcs (q : MbxReq) : List Nat := maskSrcs (num q.payload 0 16)

/-- One of them is FATAL. -/
def clearsFatal (y : Sys) (q : MbxReq) : Prop := ∃ k ∈ clearedSrcs q, (getSrc y k).cls = 3

/-- One of them is being handled. -/
def clearsHandled (y : Sys) (q : MbxReq) : Prop := ∃ k ∈ clearedSrcs q, (getSrc y k).handling = true

theorem clearsFatal_iff : ((maskSrcs (num q.payload 0 16)).any fun k => (getSrc y k).cls == 3) = true ↔ clearsFatal y q := by
  simp only [List.any_eq_true, beq_iff_eq, clearsFatal, clearedSrcs]

theorem clearsHandled_iff : ((maskSrcs (num q.payload 0 16)).any fun k => (getSrc y k).handling) = true ↔ clearsHandled y q := by
  simp only [List.any_eq_true, clearsHandled, clearedSrcs]

theorem bodyFaultClear_fatal (h : clearsFatal y q) : bodyFaultClear f y q = .no .stateConflict := if_pos (clearsFatal_iff.mpr h)

theorem bodyFaultClear_handled (hf : ¬ clearsFatal y q) (h : clearsHandled y q) : bodyFaultClear f y q = .no .busy :=
  (if_neg (mt clearsFatal_iff.mp hf)).trans (if_pos (clearsHandled_iff.mpr h))

theorem bodyFaultClear_free (hf : ¬ clearsFatal y q) (hh : ¬ clearsHandled y q) : bodyFaultClear f y q =
    let t := (clearedSrcs q).foldl (fun s k => modSrc s k fun x => { x with cls := 0, lost := false, cap := none }) y
    .done (regrade (if fswZero t then { t with flt := { t.flt with dcap := none } } else t)) [] :=
  (if_neg (mt clearsFatal_iff.mp hf)).trans (if_neg (mt clearsHandled_iff.mp hh))

theorem bodyFaultInject_of {cls : Nat} (h : causeClass (num q.payload 0 1) (num q.payload 1 1) = some cls) :
    bodyFaultInject f y q = .done (fault y (num q.payload 0 1) (num q.payload 1 1) cls (num q.payload 8 8) 15 0) [] := by
  simp only [bodyFaultInject, h, Option.getD_some]

/-- The trace filter that a TRACE_CONFIG sets. -/
def traceCfgOf (y : Sys) (b : Bytes) : Cnt :=
  { y.cnt with trEn := (num b 0 1).testBit 0, trTag := (num b 0 1).testBit 1, trK := num b 1 1, trStages := num b 2 1 }

theorem bodyTraceConfig_off (h : (num q.payload 0 1).testBit 0 = false) :
    bodyTraceConfig f y q = .done { y with cnt := traceCfgOf y q.payload } [] := if_neg (Bool.eq_false_iff.mp h)

theorem bodyTraceConfig_on {hp fn : Nat} (hw : q.who = .fn hp fn) (h : (num q.payload 0 1).testBit 0 = true) :
    bodyTraceConfig f y q = .done { traceFlush y with cnt :=
      { traceCfgOf y q.payload with trQ := [], trSize := num q.payload 3 1, trBase := num q.payload 8 8, trHp := hp, trHead := 0, trTail := 0,
                                    trPhase := true, trLost := false } } [] := by
  refine (if_pos h).trans ?_
  simp only [hw, traceCfgOf]

theorem traceConfigOk_mctp {e : Nat} (hw : q.who = .mctp e) : traceConfigOk q = false := by simp [traceConfigOk, hw]

end

/-- Settles O25: each body in each of its cases; over MCTP a ring has no function, so TRACE_CONFIG fails the check of its fields. -/
theorem faultsAreManagedByCommand : Obligations.FaultsAreManagedByCommand := by
  unfold Obligations.FaultsAreManagedByCommand
  intro s q
  refine ⟨fun h => ⟨fun hks => ?cleared, fun hk => ?fatal, fun hf hh => ?handled⟩, fun h => run_done rfl rfl h rfl, fun h cls hc => ?inject,
    fun h hp fn hw => ⟨fun hb => ?traceOff, fun hb => ?traceOn⟩, fun e hw ht hb hf => ?traceMctp⟩
  case cleared =>
    have hfatal : ¬ clearsFatal (used s q) q := fun ⟨k, hk, h3⟩ => (hks k hk).1 h3
    have hhandled : ¬ clearsHandled (used s q) q := fun ⟨k, hk, hh⟩ => Bool.eq_false_iff.mp (hks k hk).2 hh
    exact run_done rfl rfl h (bodyFaultClear_free hfatal hhandled)
  case fatal => exact run_no rfl h (bodyFaultClear_fatal hk)
  case handled => exact run_no rfl h (bodyFaultClear_handled (fun ⟨k, hk, h3⟩ => hf k hk h3) hh)
  case inject => exact run_done rfl rfl h (bodyFaultInject_of hc)
  case traceOff => exact run_done rfl rfl h (bodyTraceConfig_off hb)
  case traceOn => exact run_done rfl rfl h (bodyTraceConfig_on hw hb)
  case traceMctp =>
    exact exec_turnedAway rfl ht (preCheck_of_param (by simp [hb]) (by rw [hb]; rfl) hf (traceConfigOk_mctp hw))

/-! ### CMIS_ACCESS (R358, R362) -/

/-- The module may not be written now: step 1 or 5 runs, its answer is awaited, or a control byte of an active data path is touched. -/
def cmisShut (g : Cage) (b : Bytes) : Prop :=
  (g.ready = true ∧ g.passive = false ∧ cmisTouches (num b 3 1) (num b 4 1) (num b 5 1) = true) ∨ g.step = 1 ∨ g.step = 5 ∨ g.step = 6

theorem cmisShut_iff {g : Cage} {b : Bytes} :
    ((g.ready && !g.passive && cmisTouches (num b 3 1) (num b 4 1) (num b 5 1)) = true ∨ g.step = 1 ∨ g.step = 5 ∨ g.step = 6) ↔
      cmisShut g b := by
  simp only [Bool.and_eq_true, Bool.not_eq_true', and_assoc, cmisShut]

section
variable {f : FuseBank} {y : Sys} {q : MbxReq}

theorem specCmis_slow : (specCmis q).cls ≠ .fast := by simp [specCmis, specPwr]

theorem bodyCmisAccess_dark (h : (getCage y (num q.payload 0 1)).st ≠ .powered) : bodyCmisAccess f y q = .no .stateConflict := if_pos h

variable (hp : (getCage y (num q.payload 0 1)).st = .powered)
include hp

theorem bodyCmisAccess_read (hr : num q.payload 1 1 ≠ 1) : bodyCmisAccess f y q =
    .done { y with free := y.free + num q.payload 5 1 } (freeBytes y.free (num q.payload 5 1)) :=
  (if_neg (not_not.mpr hp)).trans (if_neg hr)

variable (hw : num q.payload 1 1 = 1)
include hw

theorem bodyCmisAccess_shut (h : cmisShut (getCage y (num q.payload 0 1)) q.payload) : bodyCmisAccess f y q = .no .stateConflict :=
  (if_neg (not_not.mpr hp)).trans ((if_pos hw).trans (if_pos (cmisShut_iff.mpr h)))

theorem bodyCmisAccess_written (h : ¬ cmisShut (getCage y (num q.payload 0 1)) q.payload) : bodyCmisAccess f y q = .done y [] :=
  (if_neg (not_not.mpr hp)).trans ((if_pos hw).trans (if_neg (mt cmisShut_iff.mp h)))

end

/-- Settles O11: four bodies answer from the state; CMIS_ACCESS in each of its cases. -/
theorem boardQueriesAnswer : Obligations.BoardQueriesAnswer := by
  unfold Obligations.BoardQueriesAnswer
  intro s q
  refine ⟨fun h => run_done rfl rfl h rfl, fun h => run_done rfl rfl h rfl, fun h => run_done rfl rfl h rfl, fun h => run_done rfl rfl h rfl,
    fun h hw hp hr => ?read, fun h hw hp hb hfree h1 h5 h6 => ?written, fun h hp hb hs => ?shut, fun h hp => ?dark⟩
  case read => exact run_slow rfl specCmis_slow h hw (bodyCmisAccess_read hp hr)
  case written =>
    refine run_slow rfl specCmis_slow h hw (bodyCmisAccess_written hp hb ?_)
    rintro (⟨hready, hactive, htouch⟩ | h1' | h5' | h6')
    · rcases hfree with hn | hn | hn
      · exact Bool.eq_false_iff.mp hn hready
      · exact Bool.eq_false_iff.mp hactive hn
      · exact Bool.eq_false_iff.mp hn htouch
    · exact h1 h1'
    · exact h5 h5'
    · exact h6 h6'
  case shut => exact run_no rfl h (bodyCmisAccess_shut hp hb hs)
  case dark => exact run_no rfl h (bodyCmisAccess_dark hp)

end Sys2Proof.Machine
end

section
/-! Updates under command (R393 to R403), and CHIP_RESET: what each body answers in each of its cases. -/
namespace Sys2Proof.Machine

section
variable {f : FuseBank} {y : Sys} {q : MbxReq}

/-! ### Staging (R393 to R395) -/

/-- No bundle may be opened: the device is in DISCOVERY, or a slot is on trial. -/
def updateShut (y : Sys) : Prop := y.dev.st = .discovery ∨ onTrial y = true

/-- An UPDATE_OPEN of the lock's holder names the bundle that is being staged. -/
def reopens (y : Sys) (q : MbxReq) (l : Lock) : Prop :=
  holds l q.who = true ∧ (stageSlot y l).mdigest = sub q.payload 0 32 ∧ (stageSlot y l).blen = num q.payload 32 4

theorem bodyUpdateOpen_shut (h : updateShut y) : bodyUpdateOpen f y q = .no .stateConflict := if_pos h

theorem bodyUpdateOpen_free (h : ¬ updateShut y) (hl : y.upd.lock = none) : bodyUpdateOpen f y q =
    .done (openLock y (.req q.who q.token) (sub q.payload 0 32) (num q.payload 32 4) (some 0)) (le 4 0) := by
  refine (if_neg h).trans ?_
  rw [hl]

variable {l : Lock}

theorem bodyUpdateOpen_again (h : ¬ updateShut y) (hl : y.upd.lock = some l) (ha : reopens y q l) :
    bodyUpdateOpen f y q = .done y (le 4 (received y l)) := by
  refine (if_neg h).trans ?_
  rw [hl]
  exact if_pos ha

theorem bodyUpdateOpen_other (h : ¬ updateShut y) (hl : y.upd.lock = some l) (ha : ¬ reopens y q l) :
    bodyUpdateOpen f y q = .no .updateBusy := by
  refine (if_neg h).trans ?_
  rw [hl]
  exact if_neg ha

section
variable (hl : y.upd.lock = none)
include hl

theorem bodyUpdateWrite_noLock : bodyUpdateWrite f y q = .no .stateConflict := by simp only [bodyUpdateWrite, hl]

theorem bodyUpdateVerify_noLock : bodyUpdateVerify f y q = .no .stateConflict := by simp only [bodyUpdateVerify, hl]

end

section
variable (hl : y.upd.lock = some l)
include hl

theorem bodyUpdateWrite_other (hh : holds l q.who = false) : bodyUpdateWrite f y q = .no .updateBusy := by
  simp only [bodyUpdateWrite, hl, hh, if_true]

theorem bodyUpdateWrite_holder (hh : holds l q.who = true) : bodyUpdateWrite f y q =
    if repeats l q.payload then .done y (le 4 (received y l))
    else
      let t := modLock (modSlot y l.slot fun x => { x with data := x.data ++ q.payload.drop 8 }) fun l =>
        { l with lastOff := num q.payload 0 4, lastData := q.payload.drop 8 }
      .done t (le 4 (received t l)) := by
  simp only [bodyUpdateWrite, hl, hh, Bool.true_eq_false, if_false]

theorem bodyUpdateVerify_early (hn : received y l < (stageSlot y l).blen) : bodyUpdateVerify f y q = .no .stateConflict := by
  simp only [bodyUpdateVerify, hl, if_pos hn]

theorem bodyUpdateVerify_whole (hn : (stageSlot y l).blen ≤ received y l) : bodyUpdateVerify f y q =
    if holds l q.who = false then .no .updateBusy else .wait (modLock y fun l => { l with verifying := true }) .verify := by
  simp only [bodyUpdateVerify, hl, if_neg (Nat.not_lt.mpr hn)]

theorem bodyUpdateAbandon_held (ha : y.upd.act = none) : bodyUpdateAbandon f y q = .done (abandon y) [] :=
  if_neg (by simp [hl, ha])

end

theorem bodyUpdateAbandon_not (h : y.upd.lock = none ∨ y.upd.act ≠ none) : bodyUpdateAbandon f y q = .no .stateConflict :=
  if_pos (h.imp (fun hl => by rw [hl]; rfl) Option.isSome_iff_ne_none.mpr)

end

/-- Settles O26: each body by the lock, its holder and what has been received. -/
theorem bundlesAreStaged : Obligations.BundlesAreStaged := by
  unfold Obligations.BundlesAreStaged
  intro s q
  refine ⟨fun h => ⟨fun hs hl => ?opened, fun hs l hl => ⟨fun ha => ?again, fun ha => ?opensOther⟩, fun hs => ?shut⟩,
    fun h => ⟨fun l hl => ⟨fun hh hr => ?repeated, fun hh hr => ?written, fun hh => ?writesOther⟩, fun hl => ?writeNoLock⟩,
    fun h hw => ⟨fun l hl hn => ⟨fun hh => ?verifies, fun hh => ?verifiesOther⟩, fun l hl hn => ?early, fun hl => ?verifyNoLock⟩,
    fun h hw => ⟨fun l hl ha => ?abandons, fun hn => ?notHeld⟩⟩
  case opened => exact run_done rfl rfl h (bodyUpdateOpen_free hs hl)
  case again => exact run_done rfl rfl h (bodyUpdateOpen_again hs hl ha)
  case opensOther => exact run_no rfl h (bodyUpdateOpen_other hs hl ha)
  case shut => exact run_no rfl h (bodyUpdateOpen_shut hs)
  case repeated => exact run_done rfl rfl h ((bodyUpdateWrite_holder hl hh).trans (if_pos hr))
  case written => exact run_done rfl rfl h ((bodyUpdateWrite_holder hl hh).trans (if_neg (Bool.eq_false_iff.mp hr)))
  case writesOther => exact run_no rfl h (bodyUpdateWrite_other hl hh)
  case writeNoLock => exact run_no rfl h (bodyUpdateWrite_noLock hl)
  case verifies => exact run_wait rfl h hw ((bodyUpdateVerify_whole hl hn).trans (if_neg (by simp [hh])))
  case verifiesOther => exact run_no rfl h ((bodyUpdateVerify_whole hl hn).trans (if_pos hh)) (.inr (.inl (mayWait_iff.mp hw)))
  case early => exact run_no rfl h (bodyUpdateVerify_early hl hn)
  case verifyNoLock => exact run_no rfl h (bodyUpdateVerify_noLock hl)
  case abandons => exact run_slow rfl (by decide) h hw (bodyUpdateAbandon_held hl ha)
  case notHeld => exact run_no rfl h (bodyUpdateAbandon_not hn)

/-! ### Activation and confirmation (R400 to R403) -/

/-- The trial window that an UPDATE_ACTIVATE asks for, in epochs. -/
def trialAsked (y : Sys) (b : Bytes) : Nat := if num b 4 4 = 0 then secEpochs y.upd.trialS else secEpochs (num b 4 4)

section
variable {f : FuseBank} {y : Sys} {q : MbxReq} {k : Nat}

theorem bodyUpdateActivate_not (h : stagedSlot y = none ∨ y.upd.act ≠ none) : bodyUpdateActivate f y q = .no .stateConflict := by
  unfold bodyUpdateActivate
  cases hk : stagedSlot y with
  | none => rfl
  | some k => exact if_pos (Option.isSome_iff_ne_none.mpr (h.resolve_left (by simp [hk])))

theorem bodyUpdateActivate_staged (hk : stagedSlot y = some k) (ha : y.upd.act = none) : bodyUpdateActivate f y q =
    if num q.payload 0 1 = 1 then .done (releaseLock (bootWrite y (activateWrites y k .trialNext (trialAsked y q.payload)))) []
    else
      let a : Activation := { slot := k, step := 1, revert := false, failed := false, owner := some (q.who, q.tag),
                              trialEpochs := trialAsked y q.payload }
      .wait { y with upd := { y.upd with act := some a } } .activate := by
  simp only [bodyUpdateActivate, hk, ha, Option.isSome_none, Bool.false_eq_true, if_false, trialAsked]

theorem bodyUpdateConfirm_noTrial (hk : slotIn y .trial = none) : bodyUpdateConfirm f y q = .no .stateConflict := by
  simp only [bodyUpdateConfirm, hk]

section
variable (hk : slotIn y .trial = some k)
include hk

theorem bodyUpdateConfirm_reject (hr : num q.payload 0 1 = 1) : bodyUpdateConfirm f y q =
    if y.upd.act.any (·.revert) then .no .stateConflict else .done (healthFail y 2) [] := by
  simp only [bodyUpdateConfirm, hk, if_pos hr]

theorem bodyUpdateConfirm_confirm (hc : num q.payload 0 1 = 0) : bodyUpdateConfirm f y q =
    if (floorRaise f y k).isSome then .no .busy else .done (confirmTrial y k) [] := by
  simp only [bodyUpdateConfirm, hk, hc, Nat.zero_ne_one, if_false]

end

end

/-- UPDATE_CONFIRM blows no fuse: it is served like any other command. -/
theorem execUpdateConfirm_served {s : State} {q : MbxReq} (h : confirmRaise s.fuse (reached s.sys q) q = none)
    (hp : passes specUpdateConfirm s q = true) :
    exec (.updateConfirm q) s = .next (s.at (mbxServe specUpdateConfirm bodyUpdateConfirm s.fuse (reached s.sys q) q)) := by
  refine exec_run rfl ((gate_passes (c := specUpdateConfirm) hp).trans ?_)
  simp only [h]

theorem execUpdateConfirm_raises {s : State} {q : MbxReq} {k v : Nat} (h : confirmRaise s.fuse (reached s.sys q) q = some (k, v))
    (hp : passes specUpdateConfirm s q = true) : exec (.updateConfirm q) s = .next (s.at (raiseFloor (reached s.sys q) q k v)) := by
  refine exec_run rfl ((gate_passes (c := specUpdateConfirm) hp).trans ?_)
  simp only [h]

/-- The use of the session leaves what a confirmation looks at. -/
theorem confirmRaise_passes {s : State} {q : MbxReq} (hp : passes specUpdateConfirm s q = true) :
    confirmRaise s.fuse (reached s.sys q) q =
      if num q.payload 0 1 = 0 ∧ (used s q).svc.fuseOp = none then
        (slotIn (used s q) .trial).bind fun k => (floorRaise s.fuse (used s q) k).map fun v => (k, v)
      else none := by
  unfold confirmRaise
  simp only [(passes_serve hp).1, true_and]
  rfl

theorem updateConfirm_done {s : State} {q : MbxReq} {y : Sys} {d : Bytes} (hr : confirmRaise s.fuse (reached s.sys q) q = none)
    (hp : passes specUpdateConfirm s q = true) (hb : bodyUpdateConfirm s.fuse (used s q) q = .done y d) :
    exec (.updateConfirm q) s = .next (s.at (okay specUpdateConfirm q y d)) := by
  rw [execUpdateConfirm_served hr hp, mbxServe_done (passes_serve hp).1 (passes_serve hp).2 rfl hb]

theorem updateConfirm_no {s : State} {q : MbxReq} {e : Status} (hr : confirmRaise s.fuse (reached s.sys q) q = none)
    (hp : passes specUpdateConfirm s q = true) (hb : bodyUpdateConfirm s.fuse (used s q) q = .no e) :
    exec (.updateConfirm q) s = .next (s.at (refusedWith specUpdateConfirm q (used s q) e)) := by
  rw [execUpdateConfirm_served hr hp, mbxServe_no (passes_serve hp).1 (passes_serve hp).2 (.inl rfl) hb]
  rfl

/-- CHIP_RESET answers, and the reset follows (R322). -/
theorem execChipReset_passes {s : State} {q : MbxReq} (hp : passes specChipReset s q = true) :
    exec (.chipReset q) s = .next (s.at (chipReset (okay specChipReset q (used s q) []) 3 0xFFFF)) := by
  refine exec_run rfl ((gate_passes (c := specChipReset) hp).trans ?_)
  simp only [(passes_serve hp).1, if_true]
  rw [mbxServe_done (passes_serve hp).1 (passes_serve hp).2 rfl rfl]
  rfl

/-- Settles O27: each body by the slots, the activation that runs and the fuse operation that runs. -/
theorem activationBeginsAndEnds : Obligations.ActivationBeginsAndEnds := by
  unfold Obligations.ActivationBeginsAndEnds
  intro s q
  refine ⟨fun h hw => ⟨fun k hk ha => ⟨fun hb => ?nextBoot, fun hb => ?hitless⟩, fun hn => ?notStaged⟩,
    fun h => ⟨fun k hk => ⟨fun hb hr => ?reject, fun hb hr => ?reverting, fun hb hv => ?confirm,
      fun hb v hv => ⟨fun ho => ?raises, fun ho => ?fuseBusy⟩⟩, fun hk => ?noTrial⟩, fun h => execChipReset_passes h⟩
  case nextBoot => exact run_slow rfl (by decide) h hw ((bodyUpdateActivate_staged hk ha).trans (if_pos hb))
  case hitless => exact run_wait rfl h hw ((bodyUpdateActivate_staged hk ha).trans (if_neg hb))
  case notStaged => exact run_no rfl h (bodyUpdateActivate_not hn)
  case reject =>
    refine updateConfirm_done ?_ h ((bodyUpdateConfirm_reject hk hb).trans (if_neg (by simp [hr])))
    simp [confirmRaise_passes h, hb]
  case reverting =>
    refine updateConfirm_no ?_ h ((bodyUpdateConfirm_reject hk hb).trans (if_pos hr))
    simp [confirmRaise_passes h, hb]
  case confirm =>
    refine updateConfirm_done ?_ h ((bodyUpdateConfirm_confirm hk hb).trans (if_neg (by simp [hv])))
    simp [confirmRaise_passes h, hk, hv]
  case raises =>
    refine execUpdateConfirm_raises ?_ h
    simp [confirmRaise_passes h, hb, ho, hk, hv]
  case fuseBusy =>
    refine updateConfirm_no ?_ h ((bodyUpdateConfirm_confirm hk hb).trans (if_pos (by simp [hv])))
    simp [confirmRaise_passes h, ho]
  case noTrial =>
    refine updateConfirm_no ?_ h (bodyUpdateConfirm_noTrial hk)
    simp [confirmRaise_passes h, hk]

end Sys2Proof.Machine
end

section
/-! Self-test, attestation, lifecycle, keys, power domains and cages under command: what each body answers in each of its cases. -/
namespace Sys2Proof.Machine

section
variable {f : FuseBank} {y : Sys} {q : MbxReq}

/-! ### BIST_RUN (R431) -/

/-- The groups that a BIST_RUN tests are in use: a port of theirs is not off, or they take the switch or the engines, which something uses. -/
def bistClash (y : Sys) (q : MbxReq) : Prop :=
  ((bistGroups (num q.payload 2 2)).any fun g => (groupPorts g).any fun p => !portOff y p) = true ∨
    (((bistGroups (num q.payload 2 2)).any fun g => [1, 3, 4, 5, 7].contains g) = true ∧
      (((List.range 64).any fun p => !portOff y p) = true ∨ y.ctxs ≠ []))

/-- A self-test runs. -/
def bistRuns (y : Sys) : Bool := waiting y (fun w => match w with | .bist _ _ _ _ => true | _ => false)

theorem bistClash_iff : (((bistGroups (num q.payload 2 2)).any fun g => (groupPorts g).any fun p => !portOff y p) ||
    ((bistGroups (num q.payload 2 2)).any (fun g => [1, 3, 4, 5, 7].contains g) &&
      ((List.range 64).any (fun p => !portOff y p) || !y.ctxs.isEmpty))) = true ↔ bistClash y q := by
  simp only [Bool.or_eq_true, Bool.and_eq_true, Bool.not_eq_true', List.isEmpty_eq_false_iff, bistClash]

theorem bodyBistRun_clash (h : bistClash y q) : bodyBistRun f y q = .no .stateConflict := if_pos (bistClash_iff.mpr h)

theorem bodyBistRun_free (h : ¬ bistClash y q) : bodyBistRun f y q =
    if bistRuns y then .no .busy
    else .wait y (.bist (bistGroups (num q.payload 2 2)) ((num q.payload 0 1).testBit 0) ((num q.payload 0 1).testBit 1) []) :=
  if_neg (mt bistClash_iff.mp h)

/-! ### ATTEST_REQUEST (R379, R380) -/

/-- The lifecycle lets the device attest (R379). -/
def attests (f : FuseBank) (y : Sys) : Prop := lifecycle f y = .provisioned ∨ lifecycle f y = .field

theorem bodyAttestRequest_not (h : ¬ attests f y) : bodyAttestRequest f y q = .no .stateConflict := by
  unfold bodyAttestRequest
  unfold attests at h
  cases hl : lifecycle f y <;> simp [hl] at h ⊢

theorem bodyAttestRequest_attests (h : attests f y) : bodyAttestRequest f y q =
    if y.sec.signing.isSome then .no .busy
    else if y.sec.ids.isNone then .no .stateConflict
    else .wait { y with sec := { y.sec with
      reports := y.sec.reports.filter fun r => !(r.who == q.who), signing := some (q.who, q.tag, attestBody f y q.payload) } } .attest := by
  unfold bodyAttestRequest
  rcases h with h | h <;> rw [h]

/-! ### LC_TRANSITION (R382) -/

theorem bodyLcTransition_refused {e : Status} (h : lcRefusal f y (num q.payload 0 1) = some e) :
    bodyLcTransition f y q = .no (if e = .noResource ∧ y.svc.fuseOp.isSome = true then .busy else e) := by
  simp only [bodyLcTransition, h]

theorem bodyLcTransition_allowed (h : lcRefusal f y (num q.payload 0 1) = none) : bodyLcTransition f y q =
    if y.svc.fuseOp.isSome then .no .busy
    else if lifecycle f y = .fieldDebug ∧ num q.payload 0 1 = 2 then .done (lcDone (lcBegin y) 3 2) []
    else .wait { lcBegin y with svc := { (lcBegin y).svc with fuseOp := some (.lc (num q.payload 0 1)) } } (.lcFuse (num q.payload 0 1)) := by
  simp only [bodyLcTransition, h]

theorem bodyLcTransition_free (h : lcRefusal f y (num q.payload 0 1) = none) (ho : y.svc.fuseOp = none) : bodyLcTransition f y q =
    if lifecycle f y = .fieldDebug ∧ num q.payload 0 1 = 2 then .done (lcDone (lcBegin y) 3 2) []
    else .wait { lcBegin y with svc := { (lcBegin y).svc with fuseOp := some (.lc (num q.payload 0 1)) } } (.lcFuse (num q.payload 0 1)) :=
  (bodyLcTransition_allowed h).trans (if_neg (by simp [ho]))

/-! ### Settings and keys (R376, R406) -/

/-- The settings go to the TRIAL slot, or without one to the running slot (R406). -/
theorem saveSlot_eq (y : Sys) : saveSlot y = (slotIn y .trial).getD y.upd.run := rfl

end

/-- Settles O28: each body in each of its cases. -/
theorem serviceCommandsRun : Obligations.ServiceCommandsRun := by
  unfold Obligations.ServiceCommandsRun
  refine ⟨fun s q hw => ⟨fun h => ⟨fun hc hr => ?tests, fun hc hr => ?testsRun, fun hc => ?clash⟩,
      fun h => ⟨fun hl hs hi => ?signs, fun hl hs => ?signing, fun hn => ?notSigned⟩,
      fun h => ⟨fun hr ho hd => ?fuses, fun hr ho hd ht => ?atOnce, fun hr ho => ?fuseBusy, fun e he => ?refused⟩⟩,
    fun s q hw => ⟨fun h => run_wait rfl h hw rfl, fun h => run_wait rfl h hw rfl, ⟨fun k hk => ?trial, fun hk => ?running⟩,
      fun h => ⟨fun hl => ?keySet, fun hl => ?keyDebug⟩, fun h => ⟨fun hl => ?cert, fun hl => ?certLate⟩⟩⟩
  case tests => exact run_wait rfl h hw ((bodyBistRun_free hc).trans (if_neg (Bool.eq_false_iff.mp hr)))
  case testsRun => exact run_no rfl h ((bodyBistRun_free hc).trans (if_pos hr))
  case clash => exact run_no rfl h (bodyBistRun_clash hc)
  case signs =>
    refine run_wait rfl h hw ((bodyAttestRequest_attests hl).trans ?_)
    simp [hs, Option.isNone_iff_eq_none, Option.isSome_iff_ne_none.mp hi]
  case signing => exact run_no rfl h ((bodyAttestRequest_attests hl).trans (if_pos (Option.isSome_iff_ne_none.mpr hs)))
  case notSigned =>
    by_cases hl : attests s.fuse (used s q)
    · obtain ⟨hs, hi⟩ := hn.resolve_left (not_not.mpr hl)
      exact run_no rfl h ((bodyAttestRequest_attests hl).trans (by simp [hs, hi]))
    · exact run_no rfl h (bodyAttestRequest_not hl)
  case fuses => exact run_wait rfl h hw ((bodyLcTransition_free hr ho).trans (if_neg hd))
  case atOnce => exact run_slow rfl (by decide) h hw ((bodyLcTransition_free hr ho).trans (if_pos ⟨hd, ht⟩))
  case fuseBusy => exact run_no rfl h ((bodyLcTransition_allowed hr).trans (if_pos (Option.isSome_iff_ne_none.mpr ho)))
  case refused => exact run_no rfl h (bodyLcTransition_refused he) (.inr (.inl (mayWait_iff.mp hw)))
  case trial => rw [saveSlot_eq, hk]; rfl
  case running => rw [saveSlot_eq, hk]; rfl
  case keySet => exact run_wait rfl h hw (if_neg hl)
  case keyDebug => exact run_no rfl h (if_pos hl)
  case cert => exact run_wait rfl h hw (if_neg (not_not.mpr hl))
  case certLate => exact run_no rfl h (if_pos hl)

/-! ### PWR_DOMAIN (R341) -/

/-- A domain joins those that retain their state. -/
def retainDomain (y : Sys) (k : Nat) : Sys := { y with pwr := { y.pwr with retain := y.pwr.retain.filter (· != k) ++ [k] } }

/-- A domain leaves those that are kept off or retain their state, and asks for its switches. -/
def switchOn (y : Sys) (k : Nat) : Sys :=
  let t : Sys := { y with pwr := { y.pwr with retain := y.pwr.retain.filter (· != k) } }
  if k < 104 then
    swdRequest (swdRequest { t with pwr := { t.pwr with hpOff := t.pwr.hpOff.filter (· != k % 4) } } (96 + k % 4)) (100 + k % 4)
  else if swdState t k = 1 then setSwd t k 3 else t

section
variable {f : FuseBank} {y : Sys} {q : MbxReq}

theorem bodyPwrDomain_off (h : num q.payload 2 1 = 0) : bodyPwrDomain f y q =
    let hp := num q.payload 0 2 % 4
    let t := runHostPortReset f y hp false 3
    let t := if (getHp t hp).bifd then runHostPortReset f t hp true 3 else t
    if y.pwr.hpOff.contains hp then .done y []
    else .done { t with pwr := { t.pwr with hpOff := t.pwr.hpOff ++ [hp],
                                            waitUp := t.pwr.waitUp.filter fun d => d != 96 + hp && d != 100 + hp } } [] := by
  simp only [bodyPwrDomain, h]

theorem bodyPwrDomain_retain (h : num q.payload 2 1 = 1) : bodyPwrDomain f y q =
    let t := retainDomain y (num q.payload 0 2)
    if swdState t (num q.payload 0 2) = 1 then .done t [] else .wait t (.domain (num q.payload 0 2) 1) := by
  simp only [bodyPwrDomain, h]
  rfl

theorem bodyPwrDomain_on (h : num q.payload 2 1 = 2) : bodyPwrDomain f y q =
    let t := switchOn y (num q.payload 0 2)
    if swdAll t (num q.payload 0 2) 2 then .done t [] else .wait t (.domain (num q.payload 0 2) 2) := by
  simp only [bodyPwrDomain, h]
  rfl

/-! ### CAGE_CONFIG and CAGE_CONTROL (R349, R356, R359, R361) -/

/-- A cage is low enough to be configured. -/
def cageLow (g : Cage) : Prop := g.st = .disabled ∨ g.st = .empty ∨ g.st = .fault

theorem cageConfigFree_iff {c : Nat} : cageConfigFree y c = true ↔ cageLow (getCage y c) := by
  unfold cageConfigFree cageLow
  cases (getCage y c).st <;> simp

theorem bodyCageConfig_low (h : cageLow (getCage y (num q.payload 0 1))) : bodyCageConfig f y q =
    .done (storeSet (modCage y (num q.payload 0 1) fun g => { g with cfg := cageCfgOf q.payload })
      { opcode := 0x0A10, key := num q.payload 0 1, payload := q.payload }) [] := if_pos (cageConfigFree_iff.mpr h)

theorem bodyCageConfig_busy (h : ¬ cageLow (getCage y (num q.payload 0 1))) : bodyCageConfig f y q = .no .stateConflict :=
  if_neg (mt cageConfigFree_iff.mp h)

theorem bodyCageControl_off (h : num q.payload 1 1 = 0) : bodyCageControl f y q =
    .done (holdPorts (modCage y (num q.payload 0 1) fun g => g.clear .disabled)) [] := by simp only [bodyCageControl, h]

theorem bodyCageControl_on (h : num q.payload 1 1 = 1) : bodyCageControl f y q =
    .done (if (getCage y (num q.payload 0 1)).st = .disabled then
      modCage y (num q.payload 0 1) fun g => { g with st := .empty, deb := 0 } else y) [] := by simp only [bodyCageControl, h]

theorem bodyCageControl_clear (h : num q.payload 1 1 = 2) : bodyCageControl f y q =
    if (getCage y (num q.payload 0 1)).st ≠ .fault ∨
        ((getCage y (num q.payload 0 1)).cfg.trestart : Rat) < (getCage y (num q.payload 0 1)).model then .no .stateConflict
    else .done (modCage y (num q.payload 0 1) fun g => { g with st := .wait, delay := 0 }) [] := by simp only [bodyCageControl, h]

theorem bodyCageControl_low (h : num q.payload 1 1 = 3) : bodyCageControl f y q =
    if cageIdle y (num q.payload 0 1) then .done (moduleLow y (num q.payload 0 1)) [] else .no .stateConflict := by
  simp only [bodyCageControl, h]

theorem bodyCageControl_high (h : num q.payload 1 1 = 4) : bodyCageControl f y q = .done (moduleHigh y (num q.payload 0 1)) [] := by
  simp only [bodyCageControl, h]

end

/-- Settles O29: each body in each of its cases. -/
theorem domainsAndCagesAreSwitched : Obligations.DomainsAndCagesAreSwitched := by
  unfold Obligations.DomainsAndCagesAreSwitched
  intro s q
  refine ⟨fun h hw => ⟨fun hb => ⟨fun ho => ?offAgain, fun ho => ?off⟩, fun hb => ⟨fun hs => ?retained, fun hs => ?retains⟩,
      fun hb => ⟨fun hs => ?isOn, fun hs => ?turnsOn⟩⟩,
    fun h => ⟨fun hl => ?config, fun hl => ?configBusy⟩,
    fun h hw => ⟨fun hb => ?cageOff, fun hb => ?cageOn, fun hb hf hm => ?cleared, fun hb hn => ?notCleared, fun hb hi => ?low,
      fun hb hi => ?lowBusy, fun hb => ?high⟩⟩
  case offAgain => exact run_slow rfl (by decide) h hw ((bodyPwrDomain_off hb).trans (if_pos ho))
  case off => exact run_slow rfl (by decide) h hw ((bodyPwrDomain_off hb).trans (if_neg (Bool.eq_false_iff.mp ho)))
  case retained => exact run_slow rfl (by decide) h hw ((bodyPwrDomain_retain hb).trans (if_pos hs))
  case retains => exact run_wait rfl h hw ((bodyPwrDomain_retain hb).trans (if_neg hs))
  case isOn => exact run_slow rfl (by decide) h hw ((bodyPwrDomain_on hb).trans (if_pos hs))
  case turnsOn => exact run_wait rfl h hw ((bodyPwrDomain_on hb).trans (if_neg (Bool.eq_false_iff.mp hs)))
  case config => exact run_done rfl rfl h (bodyCageConfig_low hl)
  case configBusy => exact run_no rfl h (bodyCageConfig_busy hl)
  case cageOff => exact run_slow rfl (by decide) h hw (bodyCageControl_off hb)
  case cageOn => exact run_slow rfl (by decide) h hw (bodyCageControl_on hb)
  case cleared => 
    refine run_slow rfl (by decide) h hw ((bodyCageControl_clear hb).trans (if_neg ?_))
    exact not_or.mpr ⟨not_not.mpr hf, not_lt.mpr hm⟩
  case notCleared => exact run_no rfl h ((bodyCageControl_clear hb).trans (if_pos hn))
  case low => exact run_slow rfl (by decide) h hw ((bodyCageControl_low hb).trans (if_pos hi))
  case lowBusy => exact run_no rfl h ((bodyCageControl_low hb).trans (if_neg (Bool.eq_false_iff.mp hi)))
  case high => exact run_slow rfl (by decide) h hw (bodyCageControl_high hb)

end Sys2Proof.Machine
end

section
/-! Resets (R320, R321, R439 to R441): the state that a power-on leaves, and what each reset row does in each of its cases. -/
namespace Sys2Proof.Machine

/-! ### A fresh device (Table 13.1) -/

theorem getNp_fresh (st : Straps) (cause src p : Nat) : getNp (Sys.fresh st cause src) p = NPrt.reset := by
  rw [getNp, List.getD_eq_getElem?_getD]
  exact List.getElem?_getD_replicate_default_eq _ 64 p

theorem mbxClosed_fresh (st : Straps) (cause src hp fn : Nat) : mbxClosed (Sys.fresh st cause src) hp fn = true := rfl

theorem fresh_fits (st : Straps) (cause src : Nat) : Fits (Sys.fresh st cause src) := by
  refine ⟨fun _ _ => Mbx.reset_fits, fun c x h => ?_, fun _ => Nat.zero_le 4⟩
  have hnone : getCtx (Sys.fresh st cause src) c = none := rfl
  exact nomatch hnone.symm.trans h

/-- Settles O4: the fuses of the reset state are the blank bank, and its device is a fresh one. -/
theorem resetStateStandsAtPowerOn : Obligations.ResetStateStandsAtPowerOn := by
  unfold Obligations.ResetStateStandsAtPowerOn
  refine ⟨FuseBank.grown_refl _, rfl, rfl, rfl, rfl, rfl, fun p _ => ?port, rfl, rfl, rfl, rfl, mbxClosed_fresh _ _ _, rfl, fresh_fits _ _ _⟩
  case port =>
    have hp : getNp State.reset.sys p = NPrt.reset := getNp_fresh _ _ _ p
    rw [hp]
    exact ⟨rfl, rfl⟩

/-! ### After a reset (R320, R388) -/

/-- The boot control record is part of the update state. -/
theorem bootWrite_eq (s t : Sys) : bootWrite s t = { t with upd := (bootWrite s t).upd } := by
  unfold bootWrite
  split_ifs <;> rfl

/-- What a reset leaves of time, contexts, mailboxes, sessions and the record of its cause. -/
theorem afterReset_state (y : Sys) (straps : Straps) (c src : Nat) : let t := afterReset y straps c src
    t.dev.st = .wiping ∧ t.start.cause = c ∧ t.start.causeSrc = src ∧ t.time.ft = 0 ∧ t.time.sync = .freeRun ∧ t.ctxs = [] ∧
      t.svc.pend = [] ∧ t.svc.ccUp = false ∧ t.sec.sessions = [] := by
  simp only [afterReset]
  rw [bootWrite_eq]
  exact ⟨rfl, rfl, rfl, rfl, rfl, rfl, rfl, rfl, rfl⟩

theorem getNp_afterReset (y : Sys) (straps : Straps) (c src p : Nat) : getNp (afterReset y straps c src) p = NPrt.reset := by
  simp only [afterReset]
  rw [bootWrite_eq]
  exact getNp_fresh straps c src p

theorem afterReset_slots (y : Sys) (straps : Straps) (c src : Nat) :
    (afterReset y straps c src).upd.slots = y.upd.slots.map Slot.afterReset := bootWrite_slots _ _

theorem afterReset_out (y : Sys) (straps : Straps) (c src : Nat) :
    (afterReset y straps c src).out = y.out ∧ (afterReset y straps c src).free = y.free := by
  simp only [afterReset]
  rw [bootWrite_eq]
  exact ⟨rfl, rfl⟩

/-! ### A chip reset (R321, R440, R441) -/

section
variable {f : FuseBank} {y : Sys}

theorem chipReset_standby (h : y.pins.standby = true) (c src : Nat) : chipReset y c src = y := if_pos h

theorem chipReset_fuse (h : y.pins.standby = false) (ho : y.svc.fuseOp.isSome = true) (c src : Nat) :
    chipReset y c src = { y with pins := { y.pins with deferred := some (y.pins.deferred.getD c) } } := by
  have hor : y.pins.deferred.or (some c) = some (y.pins.deferred.getD c) := by cases y.pins.deferred <;> rfl
  simp [chipReset, h, ho, hor]

theorem chipReset_now (h : y.pins.standby = false) (ho : y.svc.fuseOp = none) (c src : Nat) :
    chipReset y c src = afterReset (beforeReset y c) y.pins.straps c src := by simp [chipReset, h, ho]

theorem runFaultAutoreset_due {e : Nat} (hf : y.flt.fatalAt = some e) (ha : y.flt.autoreset ≠ 0) (he : e + y.flt.autoreset ≤ epoch y) :
    runFaultAutoreset f y = chipReset y 4 y.flt.fatalSrc := by
  simp only [runFaultAutoreset, hf]
  exact if_pos ⟨ha, he⟩

theorem runTarnWatchdogReset_misses (h : 256 ≤ ovrRunOf y 7) (hd : dark y = false) : runTarnWatchdogReset f y =
    if y.flt.wdAt = some (epoch y) then chipReset y 6 0xFFFF
    else healthFail (fault
      { y with flt := { y.flt with wdAt := some (epoch y) }, time := { y.time with ovrRun := y.time.ovrRun.set 7 0 },
               pwr := { y.pwr with cages := y.pwr.cages.map fun g => { g.restart with missed := 0 } } } 113 1 2 0 11 0) 4 :=
  if_neg (by simp [hd, Nat.not_lt.mpr h])

end

/-- Settles O30: each row in each of its cases, and what a reset leaves. -/
theorem resetsBeginAgain : Obligations.ResetsBeginAgain := by
  unfold Obligations.ResetsBeginAgain
  intro s
  refine ⟨fun _ => rfl, rfl, fun h => ?lcReset, fun e hf ha he => ?autoreset, fun h hd hw => ?secondMiss, fun h hd hw => ?firstMiss, rfl,
    fun c src h => chipReset_standby h c src, fun c src h ho => chipReset_fuse h ho c src,
    fun straps c src => ⟨fun h ho => chipReset_now h ho c src, ?left⟩⟩
  case lcReset => exact exec_run rfl (if_pos h)
  case autoreset => exact exec_run rfl (runFaultAutoreset_due hf ha he)
  case secondMiss => exact exec_run rfl ((runTarnWatchdogReset_misses h hd).trans (if_pos hw))
  case firstMiss => exact exec_run rfl ((runTarnWatchdogReset_misses h hd).trans (if_neg hw))
  case left =>
    obtain ⟨hst, hcause, hsrc, hft, hsync, hctxs, hpend, hcc, hsess⟩ := afterReset_state s.sys straps c src
    obtain ⟨hout, hfree⟩ := afterReset_out s.sys straps c src
    refine ⟨hst, hcause, hsrc, hft, hsync, hctxs, hpend, hcc, hsess, fun p _ => ?_, afterReset_slots _ _ _ _, hout, hfree⟩
    rw [getNp_afterReset]
    rfl

end Sys2Proof.Machine
end

section
/-! Fault handling, the log's commit, MCTP control messages and JTAG: each row in each of its cases. -/
namespace Sys2Proof.Machine

/-! ### Faults (R409, R410) -/

/-- The handling of an event ends, unless it is FATAL (R409). -/
theorem runFaultHandlingEnd_eq (f : FuseBank) (y : Sys) (k : Nat) :
    runFaultHandlingEnd f y k = modSrc y k fun x => { x with handling := x.handling && x.cls == 3 } := by
  refine congrArg (modSrc y k) (funext fun x => ?_)
  by_cases h : x.cls = 3
  · rw [if_pos h, beq_iff_eq.mpr h, Bool.and_true]
  · rw [if_neg h, beq_eq_false_iff_ne.mpr h, Bool.and_false]

/-! ### The log's commit (R369) -/

/-- A record that stands in flash or in the RAM. -/
def LogRec.kept (r : LogRec) : Bool := r.inFlash || r.inRam

/-- A record of the RAM that is written to flash too. -/
def LogRec.committed (r : LogRec) : LogRec := if r.inRam then { r with inFlash := true } else r

/-- The records of which the oldest sector of a full flash log leaves flash. -/
def logDropped (recs : List LogRec) : List Nat :=
  let fl := (recs.map LogRec.committed).filter (·.inFlash)
  if 131072 < fl.length then (fl.take 2048).map (·.seq) else []

/-- The records that a commit leaves. -/
def logCommitted (recs : List LogRec) : List LogRec :=
  ((recs.map LogRec.committed).map fun r => if (logDropped recs).contains r.seq then { r with inFlash := false } else r).filter LogRec.kept

theorem commitLog_all (y : Sys) : commitLog y (fun _ => true) = { y with log := { y.log with recs := logCommitted y.log.recs } } := by
  simp only [commitLog, Bool.and_true]
  rfl

/-- A commit changes of a record only whether it stands in flash. -/
theorem mem_logCommitted {recs : List LogRec} {r : LogRec} (h : r ∈ logCommitted recs) :
    ∃ o, o ∈ recs ∧ r = { o with inFlash := r.inFlash } := by
  simp only [logCommitted, List.mem_filter, List.mem_map] at h
  obtain ⟨⟨_, ⟨o, ho, rfl⟩, rfl⟩, -⟩ := h
  refine ⟨o, ho, ?_⟩
  unfold LogRec.committed
  split_ifs <;> rfl

theorem LogRec.committed_inFlash (r : LogRec) : r.committed.inFlash = r.kept := by
  unfold LogRec.committed LogRec.kept
  split_ifs with h <;> simp [h]

theorem LogRec.committed_kept (r : LogRec) : r.committed.kept = r.kept := by
  unfold LogRec.committed LogRec.kept
  split_ifs with h <;> simp [h]

theorem LogRec.committed_of_kept {r : LogRec} (h : r.kept = true) : r.committed = { r with inFlash := true } := by
  rw [← LogRec.committed_inFlash] at h
  rw [← h]
  unfold LogRec.committed
  split_ifs <;> rfl

/-- A flash log with room drops nothing: every record kept stands in flash then. -/
theorem logCommitted_room {recs : List LogRec} (h : (recs.filter LogRec.kept).length ≤ 131072) :
    logCommitted recs = (recs.filter LogRec.kept).map fun r => { r with inFlash := true } := by
  have hflash : (recs.map LogRec.committed).filter (·.inFlash) = (recs.filter LogRec.kept).map LogRec.committed := by
    rw [List.filter_map]
    exact congrArg (List.map _) (List.filter_congr fun r _ => LogRec.committed_inFlash r)
  have hdrop : logDropped recs = [] := by
    simp only [logDropped, hflash, List.length_map]
    exact if_neg (Nat.not_lt.mpr h)
  simp only [logCommitted, hdrop, List.contains_nil, Bool.false_eq_true, if_false, List.map_id', List.filter_map]
  rw [List.filter_congr (p := LogRec.kept ∘ LogRec.committed) fun r _ => LogRec.committed_kept r]
  exact List.map_congr_left fun r hr => LogRec.committed_of_kept (List.mem_filter.mp hr).2

/-! ### MCTP control messages (R363, R364; log entries 46 and 134) -/

section
variable {f : FuseBank} {y : Sys} {bus src eid : Nat} {msg : Bytes}

/-- A control message that the device does not take. -/
def mctpIgnored (y : Sys) (bus eid : Nat) (msg : Bytes) : Prop :=
  (bus = 2 ∧ (getHp y 0).a.up = false) ∨ (eid ≠ 0 ∧ tget y.svc.eids bus ≠ some eid) ∨ (num msg 1 1).testBit 7 = false ∨ msg.length < 3 ∨
    num msg 0 1 = 0x7F

theorem runMctpControlMessage_ignored (h : mctpIgnored y bus eid msg) : runMctpControlMessage f y bus src eid msg = y := if_pos h

/-- What is sent to an endpoint that was just heard over a bus goes out on that bus, over I3C with an in-band interrupt. -/
def mctpSent (u : Sys) (bus src : Nat) (d : Bytes) : Sys := emit (if bus = 0 then emit u (.ibi src) else u) (.mctp src d)

theorem heardOver_onPcie : (heardOver y src bus).svc.onPcie.contains src = (bus == 2) := by
  by_cases h : bus = 2 <;> simp [heardOver, h]

theorem heardOver_onI3c : (heardOver y src bus).svc.onI3c.contains src = (bus == 0) := by
  by_cases h : bus = 0 <;> simp [heardOver, h]

variable (hb : bus ≠ 2 ∨ (getHp y 0).a.up = true)
include hb

/-- The answer leaves by the bus of the request. -/
theorem mctpOut_heard {u : Sys} (hp : u.svc.onPcie = (heardOver y src bus).svc.onPcie) (hi : u.svc.onI3c = (heardOver y src bus).svc.onI3c)
    (hh : u.hps = y.hps) (d : Bytes) : mctpOut u src d = mctpSent u bus src d := by
  have hlink : (getHp u 0).a.up = (getHp y 0).a.up := by simp only [getHp, hh]
  have hup : mctpUp u src = true := by
    rw [mctpUp, hp, heardOver_onPcie, hlink]
    rcases hb with h | h <;> simp [h]
  simp only [mctpOut, hup, if_true, hi, heardOver_onI3c, beq_iff_eq]
  rfl

variable (he : eid = 0 ∨ tget y.svc.eids bus = some eid) (hreq : (num msg 1 1).testBit 7 = true) (hl : 3 ≤ msg.length)
include he hreq hl

theorem mctpTaken (h7 : num msg 0 1 ≠ 0x7F) : ¬ mctpIgnored y bus eid msg := by
  rintro (⟨h2, hd⟩ | ⟨h0, hne⟩ | hn | hs | h)
  · exact hb.elim (fun hn => hn h2) fun hu => Bool.eq_false_iff.mp hd hu
  · exact he.elim h0 hne
  · exact Bool.eq_false_iff.mp hn hreq
  · exact Nat.not_lt.mpr hl hs
  · exact h7 h

/-- A message of another type is answered with ERROR_UNSUPPORTED_CMD. -/
theorem runMctpControlMessage_other (h0 : num msg 0 1 ≠ 0) (h7 : num msg 0 1 ≠ 0x7F) : runMctpControlMessage f y bus src eid msg =
    mctpSent (heardOver y src bus) bus src (mctpReply msg 5 []) :=
  (if_neg (mctpTaken hb he hreq hl h7)).trans ((if_pos h0).trans (mctpOut_heard hb rfl rfl rfl _))

/-- A control message is answered as `mctpAnswer` has it. -/
theorem runMctpControlMessage_control (h0 : num msg 0 1 = 0) {u : Sys} {d : Bytes} (ha : mctpAnswer (heardOver y src bus) bus msg = (u, d))
    (hp : u.svc.onPcie = (heardOver y src bus).svc.onPcie) (hi : u.svc.onI3c = (heardOver y src bus).svc.onI3c) (hh : u.hps = y.hps) :
    runMctpControlMessage f y bus src eid msg = mctpSent u bus src d := by
  refine (if_neg (mctpTaken hb he hreq hl (by omega))).trans ((if_neg (not_not.mpr h0)).trans ?_)
  simp only [ha]
  exact mctpOut_heard hb hp hi hh d

end

/-! ### The answers to control requests (log entry 46) -/

section
variable {y : Sys} {bus : Nat} {msg : Bytes}

/-- A SET_ENDPOINT_ID whose number is legal. -/
def eidGood (msg : Bytes) : Prop := msg.length = 5 ∧ num msg 3 1 % 4 < 2 ∧ 8 ≤ num msg 4 1 ∧ num msg 4 1 < 255

theorem mctpAnswer_setEid (h : num msg 2 1 = 1) (hg : eidGood msg) : mctpAnswer y bus msg =
    ({ y with svc := { y.svc with eids := tset y.svc.eids bus (num msg 4 1) } }, mctpReply msg 0 [0x00, BitVec.ofNat 8 (num msg 4 1), 0x00]) := by
  obtain ⟨hlen, hop, h8, h255⟩ := hg
  simp only [mctpAnswer, h]
  exact if_pos ⟨hop, h8, h255, hlen⟩

theorem mctpAnswer_badEid (h : num msg 2 1 = 1) (hg : ¬ eidGood msg) : mctpAnswer y bus msg = (y, mctpReply msg 2 []) := by
  simp only [mctpAnswer, h]
  exact if_neg fun ⟨hop, h8, h255, hlen⟩ => hg ⟨hlen, hop, h8, h255⟩

theorem mctpAnswer_getEid (h : num msg 2 1 = 2) :
    mctpAnswer y bus msg = (y, mctpReply msg 0 (le 1 ((tget y.svc.eids bus).getD 0) ++ [0x00, 0x00])) := by simp only [mctpAnswer, h]

theorem mctpAnswer_version (h : num msg 2 1 = 4) (ha : num msg 3 1 = 0xFF ∨ num msg 3 1 = 0) :
    mctpAnswer y bus msg = (draw y, mctpReply msg 0 ([0x01] ++ le 4 (Config.word y.free).toNat)) := by
  simp only [mctpAnswer, h, if_pos ha]

theorem mctpAnswer_types (h : num msg 2 1 = 5) : mctpAnswer y bus msg = (y, mctpReply msg 0 [0x01, 0x7F]) := by simp only [mctpAnswer, h]

theorem mctpAnswer_unknown (h : num msg 2 1 = 0 ∨ num msg 2 1 = 3 ∨ 6 < num msg 2 1) : mctpAnswer y bus msg = (y, mctpReply msg 5 []) := by
  unfold mctpAnswer
  simp only
  split
  case h_6 => rfl
  all_goals omega

end

/-! ### JTAG (R386) -/

theorem runJtagInstruction_selects {f : FuseBank} {y : Sys} {k j : Nat} (h : (if jtagOk (lifecycle f y) k then k else 1) = j) :
    runJtagInstruction f y k = { y with sec := { y.sec with jtag := j } } := by
  rw [← h]
  rfl

/-- Settles O53: each row in each of its cases. -/
theorem faultsLogAndPinsGoOn : Obligations.FaultsLogAndPinsGoOn := by
  unfold Obligations.FaultsLogAndPinsGoOn
  intro s k
  refine ⟨exec_run rfl (runFaultHandlingEnd_eq _ _ _), rfl, fun h => ?early, fun h => ⟨logCommitted s.sys.log.recs, ?commit, ?same, ?room⟩,
    fun bus src eid msg => ⟨fun h => ?ignored, fun hb he hreq hl => ⟨fun h0 h7 => ?other, fun h0 =>
      ⟨fun h1 hg => ?setEid, fun h1 hg => ?badEid, fun h2 => ?getEid, fun h4 ha => ⟨(Config.word s.sys.free).toNat, ?version⟩,
        fun h5 => ?types, fun hu => ?unknown⟩⟩⟩,
    fun h => ?jtag, fun h => ?bypass⟩
  case early => exact exec_run rfl (if_pos h)
  case commit => exact exec_run rfl ((if_neg (Bool.eq_false_iff.mp h)).trans (commitLog_all _))
  case same => exact fun r hr => mem_logCommitted hr
  case room => exact logCommitted_room
  case ignored => exact exec_run rfl (runMctpControlMessage_ignored h)
  case other => exact exec_run rfl (runMctpControlMessage_other hb he hreq hl h0 h7)
  case setEid => exact exec_run rfl (runMctpControlMessage_control hb he hreq hl h0 (mctpAnswer_setEid h1 hg) rfl rfl rfl)
  case badEid => exact exec_run rfl (runMctpControlMessage_control hb he hreq hl h0 (mctpAnswer_badEid h1 hg) rfl rfl rfl)
  case getEid => exact exec_run rfl (runMctpControlMessage_control hb he hreq hl h0 (mctpAnswer_getEid h2) rfl rfl rfl)
  case version => exact exec_run rfl (runMctpControlMessage_control hb he hreq hl h0 (mctpAnswer_version h4 ha) rfl rfl rfl)
  case types => exact exec_run rfl (runMctpControlMessage_control hb he hreq hl h0 (mctpAnswer_types h5) rfl rfl rfl)
  case unknown => exact exec_run rfl (runMctpControlMessage_control hb he hreq hl h0 (mctpAnswer_unknown hu) rfl rfl rfl)
  case jtag => exact exec_run rfl (runJtagInstruction_selects (if_pos h))
  case bypass => exact exec_run rfl (runJtagInstruction_selects (if_neg (Bool.eq_false_iff.mp h)))

end Sys2Proof.Machine
end

section
/-! Cages, modules, switched domains and the thermal trip (Chapter 14): each row in each of its cases. -/
namespace Sys2Proof.Machine

section
variable {f : FuseBank} {y : Sys} {k : Nat}

/-! ### Gates (R352) -/

theorem runCageFastTrip_closed (h : (getCage y k).gate = true) :
    runCageFastTrip f y k = modCage y k fun g => { g with gate := false, fast := true } := if_pos h

theorem runCageBackstop_closed (h : (getCage y k).gate = true) :
    runCageBackstop f y k = modCage y k fun g => { g with gate := false, back := true } := if_pos h

/-! ### Bring-up of a module (R328, R358) -/

@[simp] theorem moduleLogs_time (y : Sys) (k : Nat) (miss : List Nat) (len : Nat) : (moduleLogs y k miss len).time = y.time := by
  refine foldl_keeps (·.time) (fun b p => ?_) _ y
  simp only
  split_ifs <;> rfl

/-- A module that is brought up at its step: the logs are written, and its reset is released. -/
def broughtUp (y : Sys) (k : Nat) (pas : Bool) (miss : List Nat) (len : Nat) : Sys :=
  modCage (moduleLogs y k miss len) k fun g => { g with resetN := true, mstate := 1, passive := pas }

/-- The step of bring-up in which the module is read has come (R358). -/
def bringupDue (y : Sys) (k : Nat) : Prop :=
  (getCage y k).st = .powered ∧ (getCage y k).step = 1 ∧ (getCage y k).stepAt + 3125 ≤ frame y ∧ y.start.fruRead = true

theorem bringupDue_iff : bringupDue y k ↔ ¬ ((getCage y k).st ≠ .powered ∨ (getCage y k).step ≠ 1 ∨ frame y < (getCage y k).stepAt + 3125 ∨
    y.start.fruRead = false) := by simp [bringupDue]

section
variable {pas : Bool} {w len : Nat} {miss : List Nat}

theorem runModuleBringup_early (h : ¬ bringupDue y k) : runModuleBringup f y k pas w miss len = y :=
  if_pos (not_not.mp fun hn => h (bringupDue_iff.mpr hn))

variable (h : bringupDue y k)
include h

theorem runModuleBringup_due : runModuleBringup f y k pas w miss len =
    let t := broughtUp y k pas miss len
    if (getCage y k).cfg.inom * (getCage y k).cfg.uv < w * 250000 then
      logW (modCage t k fun g => { g with step := 3, lowPwr := true }) 0x0006 2 0xFFFF (k + 65536 * w)
    else if pas then modCage t k fun g => { g with step := 0, ready := true, lowPwr := false }
    else modCage t k fun g => { g with step := 5, stepAt := frame t, lpmode := false, lowPwr := false, mstate := 2 } := by
  have hmw : w * 250000 = w * 250 * 1000 := (Nat.mul_assoc w 250 1000).symm
  simp only [hmw]
  exact if_neg (bringupDue_iff.mp h)

theorem runModuleBringup_hungry (hw : (getCage y k).cfg.inom * (getCage y k).cfg.uv < w * 250000) :
    runModuleBringup f y k pas w miss len =
      logW (modCage (broughtUp y k pas miss len) k fun g => { g with step := 3, lowPwr := true }) 0x0006 2 0xFFFF (k + 65536 * w) :=
  (runModuleBringup_due h).trans (if_pos hw)

theorem runModuleBringup_fits (hw : w * 250000 ≤ (getCage y k).cfg.inom * (getCage y k).cfg.uv) :
    runModuleBringup f y k pas w miss len =
      let t := broughtUp y k pas miss len
      if pas then modCage t k fun g => { g with step := 0, ready := true, lowPwr := false }
      else modCage t k fun g => { g with step := 5, stepAt := frame t, lpmode := false, lowPwr := false, mstate := 2 } :=
  (runModuleBringup_due h).trans (if_neg (Nat.not_lt.mpr hw))

end

theorem frame_broughtUp (y : Sys) (k : Nat) (pas : Bool) (miss : List Nat) (len : Nat) : frame (broughtUp y k pas miss len) = frame y := by
  have ht : (broughtUp y k pas miss len).time = y.time := moduleLogs_time y k miss len
  simp only [frame, ht]

/-! ### A module that answers, or does not (R358, R360) -/

/-- Nothing has changed but ports of a list. -/
def ChangesPorts (ps : List Nat) (s t : Sys) : Prop := t = { s with nps := t.nps } ∧ ∀ p, p ∉ ps → getNp t p = getNp s p

theorem changesPorts_modNp (s : Sys) (p : Nat) (g : NPrt → NPrt) : ChangesPorts [p] s (modNp s p g) :=
  ⟨rfl, fun _ h => getNp_modNp_other s p _ g (List.mem_singleton.not.mp h)⟩

theorem ChangesPorts.cons {q : Nat} {ps : List Nat} {s t u : Sys} (h : ChangesPorts [q] s t) (h' : ChangesPorts ps t u) :
    ChangesPorts (q :: ps) s u := by
  obtain ⟨hrest, hports⟩ := h
  obtain ⟨hrest', hports'⟩ := h'
  refine ⟨hrest'.trans (congrArg (fun v : Sys => { v with nps := u.nps }) hrest), fun p hp => ?_⟩
  rw [hports' p fun hm => hp (List.mem_cons_of_mem q hm), hports p fun hm => hp (List.mem_singleton.mp hm ▸ List.mem_cons_self)]

/-- A fold whose every step changes its own port at most. -/
theorem changesPorts_foldl {step : Sys → Nat → Sys} (hstep : ∀ s p, ChangesPorts [p] s (step s p)) (ps : List Nat) (s : Sys) :
    ChangesPorts ps s (ps.foldl step s) := by
  induction ps generalizing s with
  | nil => exact ⟨rfl, fun _ _ => rfl⟩
  | cons q ps ih => exact (hstep s q).cons (ih (step s q))

/-- The ports of a cage whose transmitters take the taps that their module advertises. -/
def tapped (y : Sys) (k tx : Nat) : Sys :=
  (cagePorts y k).foldl (fun s p =>
    if (getNp s p).sl.chan = 2 then modNp s p fun n => onLanes n 3 fun l => { l with txfir := tx } else s) y

theorem tapped_changes (y : Sys) (k tx : Nat) : ChangesPorts (cagePorts y k) y (tapped y k tx) := by
  refine changesPorts_foldl (fun s p => ?_) _ y
  split_ifs
  · exact changesPorts_modNp s p _
  · exact ⟨rfl, fun _ _ => rfl⟩

theorem runModuleReady_answers (hp : (getCage y k).st = .powered) (hs : (getCage y k).step = 5 ∨ (getCage y k).step = 6) (tx : Nat) :
    runModuleReady f y k tx = tapped (modCage y k fun g => { g with step := 0, ready := true, mstate := 3 }) k tx := if_pos ⟨hp, hs⟩

section
variable (hp : (getCage y k).st = .powered)
include hp

theorem runModuleTimeout_powered : runModuleTimeout f y k =
    if (getCage y k).step = 1 ∧ (getCage y k).stepAt + 3128125 ≤ frame y then
      logW (modCage y k fun g => { g with step := 2, resetN := true }) 0x0005 2 0xFFFF (k + 512)
    else if (getCage y k).step = 5 ∧ (getCage y k).stepAt + 15625000 ≤ frame y then
      logW (modCage y k fun g => { g with step := 6 }) 0x0005 2 0xFFFF (k + 1280)
    else y := if_neg (not_not.mpr hp)

theorem moduleLow_powered : moduleLow y k = modCage y k fun g =>
    { g with lowPwr := true, lpmode := true, ready := false, mstate := if g.mstate = 255 then 255 else 1,
             step := if g.step = 5 ∨ g.step = 6 then 0 else g.step } := if_pos hp

end

theorem holdPorts_mapped (h : y.start.fru.isSome = true) : holdPorts y = (List.range 64).foldl (fun s p =>
    let n := getNp s p
    if n.st = .disabled ∨ n.st = .down ∨ cageHolds s p = false then s
    else if n.st = .up then portDown s p 1
    else modNp s p fun n => { n.idle with st := .down, holdFrom := frame s }) y :=
  if_neg (by rw [Option.isNone_iff_eq_none]; exact Option.isSome_iff_ne_none.mp h)

/-! ### Switched domains (R339, R340) -/

theorem runDomainPowerUp_first {rest : List Nat} (hw : y.pwr.waitUp = k :: rest) (hs : y.pwr.started < 4) (hd : dark y = false) :
    runDomainPowerUp f y k =
      { y with pwr := { y.pwr with waitUp := rest, started := y.pwr.started + 1, swd := y.pwr.swd.set k 3 } } := by
  unfold runDomainPowerUp
  rw [hw]
  exact if_pos ⟨rfl, hs, hd⟩

theorem runDomainPowerUp_waits (h : 4 ≤ y.pwr.started ∨ dark y = true ∨ y.pwr.waitUp.head? ≠ some k) : runDomainPowerUp f y k = y := by
  unfold runDomainPowerUp
  cases hw : y.pwr.waitUp with
  | nil => rfl
  | cons j rest =>
    refine if_neg fun ⟨hj, hs, hd⟩ => ?_
    rcases h with h4 | ht | hne
    · exact Nat.not_lt.mpr h4 hs
    · exact Bool.eq_false_iff.mp hd ht
    · exact hne (by rw [hw, hj]; rfl)

theorem swdLost_port (h32 : 32 ≤ k) (h96 : k < 96) :
    swdLost y k = modNp y (k - 32) fun n => { n.idle with corrUnits := 0, uncorrUnits := 0, corrSyms := 0 } :=
  (if_neg (Nat.not_lt.mpr h32)).trans (if_pos h96)

theorem swdLost_host (h100 : 100 ≤ k) (h104 : k < 104) : swdLost y k = modHp y (k - 100) fun h =>
    { h with ctlb := [], dtlb := [], rdy := [], reqQ := [], respQ := [], ej := [], respWait := [], reqWait := [] } :=
  (if_neg (by omega)).trans ((if_neg (by omega)).trans (if_pos ⟨h100, h104⟩))

theorem swdLost_nothing (h96 : 96 ≤ k) (h : k < 100 ∨ 104 ≤ k) : swdLost y k = y :=
  (if_neg (by omega)).trans ((if_neg (by omega)).trans (if_neg (by omega)))

theorem runDomainPowerDownComplete_on (h : swdState y k = 2) : runDomainPowerDownComplete f y k =
    if y.pwr.retain.contains k then domainsOver (setSwd y k 1)
    else if swdWant y k then y
    else domainsOver (swdLost (setSwd y k 0) k) := if_neg (not_not.mpr h)

end

/-- Settles O52: each row in each of its cases. -/
theorem powerFollowsItsCommandsAndEvents : Obligations.PowerFollowsItsCommandsAndEvents := by
  unfold Obligations.PowerFollowsItsCommandsAndEvents
  intro s k
  refine ⟨fun hg => ⟨?fastTrip, ?backstop⟩, fun hg => ⟨?fastOpen, ?backOpen⟩,
    fun pas w miss len => ⟨fun hp h1 ht hf => ⟨fun hw => ?hungry, fun hw hpas => ?passive, fun hw hpas => ?active⟩, fun h => ?early⟩,
    fun tx => ⟨fun hp hs => ?ready, fun h => ?notAwaited⟩, fun hp h1 hf => ?timeout1, fun hp h5 hf => ?timeout5,
    fun dp hp => ⟨?interrupt, fun a => ?alarm⟩, fun a dp hp => ?unpowered, holdPorts_mapped, fun hc hi hd hl hp => ?lowPower,
    fun rest hw hs hd => ?powerUp, fun h => ?waits, fun hs hd => ?complete, fun h => ?notStarting, fun h => if_pos h,
    fun h32 h96 => swdLost_port h32 h96, fun h100 h104 => swdLost_host h100 h104, fun h96 h => swdLost_nothing h96 h,
    fun hs => ⟨fun hr => ?retained, fun hr hw => ?off, fun hr hw => ?wanted⟩, fun hs => ?notOn,
    fun v => ⟨fun hv ht => ?trip, fun h => ?noTrip⟩, rfl⟩
  case fastTrip => exact exec_run rfl (runCageFastTrip_closed hg)
  case backstop => exact exec_run rfl (runCageBackstop_closed hg)
  case fastOpen => exact exec_run rfl (if_neg (Bool.eq_false_iff.mp hg))
  case backOpen => exact exec_run rfl (if_neg (Bool.eq_false_iff.mp hg))
  case hungry => exact exec_run rfl (runModuleBringup_hungry ⟨hp, h1, ht, hf⟩ hw)
  case passive => exact exec_run rfl ((runModuleBringup_fits ⟨hp, h1, ht, hf⟩ hw).trans (if_pos hpas))
  case active =>
    have hframe := frame_broughtUp s.sys k pas miss len
    refine exec_run rfl ((runModuleBringup_fits ⟨hp, h1, ht, hf⟩ hw).trans ((if_neg (Bool.eq_false_iff.mp hpas)).trans ?_))
    rw [hframe]
    rfl
  case early =>
    refine exec_run rfl (runModuleBringup_early ?_)
    exact fun hd => bringupDue_iff.mp hd h
  case ready =>
    have hports : cagePorts (modCage s.sys k fun g => { g with step := 0, ready := true, mstate := 3 }) k = cagePorts s.sys k := rfl
    obtain ⟨hrest, hother⟩ := tapped_changes (modCage s.sys k fun g => { g with step := 0, ready := true, mstate := 3 }) k tx
    refine ⟨_, exec_run rfl (runModuleReady_answers hp hs tx), ?_, ?_, fun p hn => hother p (hports ▸ hn)⟩
    · rw [hrest]
    · rw [hrest]
      rfl
  case notAwaited =>
    refine exec_run rfl (if_neg ?_)
    rintro ⟨hp, hs⟩
    exact h.elim (fun hn => hn hp) fun ⟨h5, h6⟩ => hs.elim h5 h6
  case timeout1 => exact exec_run rfl ((runModuleTimeout_powered hp).trans (if_pos ⟨h1, hf⟩))
  case timeout5 => exact exec_run rfl ((runModuleTimeout_powered hp).trans ((if_neg (by omega)).trans (if_pos ⟨h5, hf⟩)))
  case interrupt => exact exec_run rfl (if_neg (not_not.mpr hp))
  case alarm => exact exec_run rfl (if_neg (not_not.mpr hp))
  case unpowered => exact exec_run rfl (if_pos hp)
  case lowPower => exact exec_run rfl ((if_pos ⟨hc, hi, hd, hl⟩).trans (moduleLow_powered hp))
  case powerUp => exact exec_run rfl (runDomainPowerUp_first hw hs hd)
  case waits => exact exec_run rfl (runDomainPowerUp_waits h)
  case complete => exact exec_run rfl (if_neg (by simp [hs, hd]))
  case notStarting => exact exec_run rfl (if_pos h)
  case retained => exact exec_run rfl ((runDomainPowerDownComplete_on hs).trans (if_pos hr))
  case off =>
    exact exec_run rfl ((runDomainPowerDownComplete_on hs).trans
      ((if_neg (Bool.eq_false_iff.mp hr)).trans (if_neg (Bool.eq_false_iff.mp hw))))
  case wanted => exact exec_run rfl ((runDomainPowerDownComplete_on hs).trans ((if_neg (Bool.eq_false_iff.mp hr)).trans (if_pos hw)))
  case notOn => exact exec_run rfl (if_pos hs)
  case trip => exact exec_run rfl (if_neg (by simp [ht, hv]))
  case noTrip => exact exec_run rfl (if_pos h)

end Sys2Proof.Machine
end

section
/-! Verification, activation and the trial of an image, the staging lock, and bundles between neighbours (R393 to R402): each row in each of its
cases. -/
namespace Sys2Proof.Machine

section
variable {f : FuseBank} {y : Sys}

/-! ### BUNDLE_VERIFY_COMPLETE (R390, R395) -/

/-- The check that a staged bundle fails; 0: it is whole and authentic. -/
def stagedFail (f : FuseBank) (y : Sys) (l : Lock) : Nat :=
  if (stageSlot y l).data.length ≠ (stageSlot y l).blen then 1 else bundleFail f y l.slot false

section
variable {l : Lock} (hl : y.upd.lock = some l) (hv : l.verifying = true)
include hl hv

theorem runBundleVerifyComplete_eq : runBundleVerifyComplete f y =
    if stagedFail f y l = 0 then
      endWait (modLock (bootWrite y (slotTo y l.slot .staged)) fun l => { l with verifying := false }) (fun w => w == .verify) .ok (zeros 4)
    else
      endWait (abandon { y with upd := { y.upd with rejected := y.upd.rejected ++ [(stageSlot y l).mdigest] } }) (fun w => w == .verify)
        .badParam (le 1 (stagedFail f y l) ++ zeros 3) := by
  simp only [runBundleVerifyComplete, hl, hv, Bool.true_eq_false, if_false, stagedFail]

end

/-! ### ACTIVATION_STEP (R400 to R402) -/

theorem runActivationStep_idle {ok : Bool} (h : dark y = true ∨ y.upd.act = none) : runActivationStep f y ok = y := by
  unfold runActivationStep
  rcases h with hd | ha
  · exact if_pos hd
  · rw [ha]
    exact ite_self y

section
variable {ok : Bool} {a : Activation} (hd : dark y = false) (ha : y.upd.act = some a)
include hd ha

theorem runActivationStep_step1 (h : a.step = 1) : runActivationStep f y ok = actStep1 y a := by
  simp only [runActivationStep, hd, ha, h, Bool.false_eq_true, if_false]

theorem runActivationStep_step2 (h : a.step = 2) : runActivationStep f y ok = actTo y { a with stopped := true } 3 := by
  simp only [runActivationStep, hd, ha, h, Bool.false_eq_true, if_false]

theorem runActivationStep_step3 (h : a.step = 3) : runActivationStep f y ok =
    if (!ok && !a.revert) = true then actFail y a else actTo (if y.svc.ccUp then ccLost y true else y) a 4 := by
  simp only [runActivationStep, hd, ha, h, Bool.false_eq_true, if_false]

theorem runActivationStep_step4 (h : a.step = 4) : runActivationStep f y ok =
    if (!ok && !a.revert) = true then actFail y a else actStep4 f y a := by
  simp only [runActivationStep, hd, ha, h, Bool.false_eq_true, if_false]

theorem runActivationStep_step5 (h : a.step = 5) : runActivationStep f y ok = actStep5 f y a := by
  simp only [runActivationStep, hd, ha, h, Bool.false_eq_true, if_false]

end

/-- A digest that is good, or that a revert does not check. -/
theorem digestPasses {ok revert : Bool} (h : ok = true ∨ revert = true) : ¬ (!ok && !revert) = true := by
  rcases h with h | h <;> simp [h]

theorem digestFails {ok revert : Bool} (ho : ok = false) (hr : revert = false) : (!ok && !revert) = true := by simp [ho, hr]

theorem actStep1_revert {a : Activation} (h : a.revert = true) : actStep1 y a =
    actTo (bootWrite y (slotTo (slotTo y a.slot .active) (1 - a.slot) .invalid)) { a with before := none } 2 := by
  simp only [actStep1, h, if_true]

theorem actStep1_forward {a : Activation} (h : a.revert = false) : actStep1 y a =
    actTo (bootWrite y (slotTo (activateWrites y a.slot .trial a.trialEpochs) y.upd.run .backup))
      { a with before := some (getSlot y a.slot, y.upd.trialWin) } 2 := by
  simp only [actStep1, h, Bool.false_eq_true, if_false]

/-! ### A failed trial (R402; log entry 116) -/

theorem healthFail_noTrial (h : ∀ x ∈ y.upd.slots, x.st ≠ .trial) (why : Nat) : healthFail y why = y := by
  have hn : y.upd.slots.findIdx? (·.st == .trial) = none := List.findIdx?_eq_none_iff.mpr fun x hx => beq_eq_false_iff_ne.mpr (h x hx)
  simp only [healthFail, hn]

/-- The record of a trial that has failed. -/
def trialLost (u : Upd) (why : Nat) : Upd := { u with lastEnd := why, trialEnd := none, trialStart := none }

section
variable {k : Nat} (h : (y.upd.slots.findIdx? fun x => x.st == .trial) = some k) (why : Nat)
include h

theorem healthFail_reverts (ha : y.upd.act = none) : healthFail y why =
    let a : Activation := { slot := 1 - k, step := 1, revert := true, failed := false, owner := none, trialEpochs := 0 }
    { y with upd := { trialLost y.upd why with act := some a } } := by
  simp only [healthFail, h, ha]
  rfl

theorem healthFail_turns {a : Activation} (ha : y.upd.act = some a) : healthFail y why =
    if a.revert then y
    else { y with upd := { trialLost y.upd why with act := some { a with slot := 1 - k, step := 1, revert := true, failed := true } } } := by
  simp only [healthFail, h, ha]
  rfl

end

theorem runTrialWindowExpiry_none (h : y.upd.trialEnd = none) : runTrialWindowExpiry f y = y := by simp only [runTrialWindowExpiry, h]

theorem runTrialWindowExpiry_some {e : Nat} (h : y.upd.trialEnd = some e) :
    runTrialWindowExpiry f y = if e ≤ epoch y then healthFail y 3 else y := by simp only [runTrialWindowExpiry, h]

theorem runStagingLockIdle_some {l : Lock} (h : y.upd.lock = some l) : runStagingLockIdle f y =
    if (stageSlot y l).st = .staging ∧ l.lastEpoch + l.limit ≤ epoch y then abandon y else y := by simp only [runStagingLockIdle, h]

/-! ### Freshet messages (R396 to R399) -/

/-- A row that takes the oldest management packet of an operation, and what it then does with it. -/
def TakesMgmt (run : Sys → Sys) (op : Nat) (body : Sys → Nat → Bytes → Sys) : Prop :=
  ∀ y, run y = (takeMgmt y op op).elim y fun e => body (heard e.2.2 e.1) e.1 e.2.1.payload

theorem takesMgmt_offer : TakesMgmt (runFreshetOfferReceive f) 0x10 (takeOffer f) := by
  intro y
  unfold runFreshetOfferReceive
  cases takeMgmt y 0x10 0x10 <;> rfl

theorem takesMgmt_reply : TakesMgmt (runFreshetReplyReceive f) 0x11 takeReply := by
  intro y
  unfold runFreshetReplyReceive
  cases takeMgmt y 0x11 0x11 <;> rfl

theorem takesMgmt_pull : TakesMgmt (runFreshetPullReceive f) 0x12 takePull := by
  intro y
  unfold runFreshetPullReceive
  cases takeMgmt y 0x12 0x12 <;> rfl

theorem takesMgmt_data : TakesMgmt (runFreshetDataReceive f) 0x13 takeData := by
  intro y
  unfold runFreshetDataReceive
  cases takeMgmt y 0x13 0x13 <;> rfl

section
variable {run : Sys → Sys} {op : Nat} {body : Sys → Nat → Bytes → Sys} (hrun : TakesMgmt run op body)
include hrun

theorem TakesMgmt.idle (h : takeMgmt y op op = none) : run y = y := by rw [hrun, h]; rfl

theorem TakesMgmt.takes {p : Nat} {k : Packet} {t : Sys} (h : takeMgmt y op op = some (p, k, t)) :
    run y = body (heard t p) p k.payload := by rw [hrun, h]; rfl

end

/-- A PULL within the bundle that is held. -/
def pullWithin (d b : Bytes) : Prop := b.length = 40 ∧ within 1 (num b 36 4) 4032 = true ∧ num b 32 4 + num b 36 4 ≤ d.length

section
variable {p k : Nat} {b : Bytes} (h : heldSlot y (sub b 0 32) = some k)
include h

theorem takePull_within (hw : pullWithin (getSlot y k).data b) : takePull y p b =
    sendFreshet y p 0x13 (pullBytes (sub b 0 32) (num b 32 4) (num b 36 4) ++ sub (getSlot y k).data (num b 32 4) (num b 36 4)) := by
  simp only [takePull, h]
  exact if_pos hw

theorem takePull_beyond (hw : ¬ pullWithin (getSlot y k).data b) : takePull y p b = y := by
  simp only [takePull, h]
  exact if_neg hw

end

theorem runFreshetPullResend_due {l : Lock} {p : Nat} {e : Nat × Nat × Nat} (hl : y.upd.lock = some l) (hp : l.holder = .port p)
    (he : (y.upd.pulls.find? fun e => decide (e.2.2 + 64 ≤ frame y)) = some e) : runFreshetPullResend f y = sendFreshet
      { y with upd := { y.upd with pulls := y.upd.pulls.map fun x => if x == e then (e.1, e.2.1, frame y) else x } }
      p 0x12 (pullBytes (stageSlot y l).mdigest e.1 e.2.1) := by
  simp only [runFreshetPullResend, hl, hp, he]
  rfl

theorem runFreshetPullResend_none (he : (y.upd.pulls.find? fun e => decide (e.2.2 + 64 ≤ frame y)) = none) : runFreshetPullResend f y = y := by
  unfold runFreshetPullResend
  cases y.upd.lock with
  | none => rfl
  | some l => cases hh : l.holder <;> simp only [hh, he]

/-- An OFFER goes out on a port where the device relays, and none did within 1,024 frames (R399). -/
def offerDue (y : Sys) (p : Nat) : Prop :=
  (y.upd.frRelay = true ∧ (freshetMask y).testBit p = true ∧ routable y p = true) ∧ ∀ t, tget y.upd.offerAt p = some t → t + 1024 ≤ frame y

theorem offerDue_iff {p : Nat} : (y.upd.frRelay = true ∧ (freshetMask y).testBit p = true ∧ routable y p = true ∧
    (match tget y.upd.offerAt p with | some t => decide (t + 1024 ≤ frame y) | none => true) = true) ↔ offerDue y p := by
  unfold offerDue
  cases tget y.upd.offerAt p <;> simp [and_assoc]

theorem runFreshetOfferSend_due {p : Nat} (h : offerDue y p) : runFreshetOfferSend f y p = offerSlot (offerSlot
    { y with upd := { y.upd with offerAt := tset y.upd.offerAt p (frame y) } } p 0) p 1 := if_pos (offerDue_iff.mpr h)

theorem runFreshetOfferSend_not {p : Nat} (h : ¬ offerDue y p) : runFreshetOfferSend f y p = y := if_neg (mt offerDue_iff.mp h)

end

/-- Settles O55: each row in each of its cases. -/
theorem bundlesSpreadAndTakeOver : Obligations.BundlesSpreadAndTakeOver := by
  unfold Obligations.BundlesSpreadAndTakeOver
  intro s
  refine ⟨fun l hl hv => ⟨fun hlen hf => ?verified, fun k hk h0 => ?rejected⟩, fun ok h => ?idle,
    fun ok a hd ha => ⟨fun h1 hr => ?step1Revert, fun h1 hr => ?step1, fun h2 => ?step2, fun h3 ho => ?step3, fun h4 ho => ?step4,
      fun h34 ho hr => ?badDigest, fun h5 => ?step5⟩,
    fun why => ⟨fun h => healthFail_noTrial h why, fun k hk => ⟨fun ha => healthFail_reverts hk why ha,
      fun a ha hr => ?reverting, fun a ha hr => ?turned⟩⟩,
    fun e he => ⟨fun ht => ?trialOver, fun ht => ?inTrial⟩, fun he => ?noTrial, fun l hl => ⟨fun hst hi => ?stale, fun h => ?touched⟩,
    ⟨⟨fun h => ?noOffer, fun p k t h => ?offer⟩, ⟨fun h => ?noReply, fun p k t h => ?reply⟩, ⟨fun h => ?noPull, fun p k t h => ?pull⟩,
      ⟨fun h => ?noData, fun p k t h => ?data⟩⟩,
    fun t p b k hk => ⟨fun h40 hw hn => ?pulled, fun h => ?notPulled⟩, fun l p e hl hp he => ?resend, fun he => ?noResend,
    fun p => ⟨fun ho hd => ?offerSent, fun h => ?offerHeld⟩⟩
  case verified =>
    have h0 : stagedFail s.fuse s.sys l = 0 := (if_neg (not_not.mpr hlen)).trans hf
    exact exec_run rfl ((runBundleVerifyComplete_eq hl hv).trans (if_pos h0))
  case rejected =>
    subst hk
    exact exec_run rfl ((runBundleVerifyComplete_eq hl hv).trans (if_neg h0))
  case idle => exact exec_run rfl (runActivationStep_idle h)
  case step1Revert => exact exec_run rfl ((runActivationStep_step1 hd ha h1).trans (actStep1_revert hr))
  case step1 => exact exec_run rfl ((runActivationStep_step1 hd ha h1).trans (actStep1_forward hr))
  case step2 => exact exec_run rfl (runActivationStep_step2 hd ha h2)
  case step3 => exact exec_run rfl ((runActivationStep_step3 hd ha h3).trans (if_neg (digestPasses ho)))
  case step4 => exact exec_run rfl ((runActivationStep_step4 hd ha h4).trans (if_neg (digestPasses ho)))
  case badDigest =>
    rcases h34 with h3 | h4
    · exact exec_run rfl ((runActivationStep_step3 hd ha h3).trans (if_pos (digestFails ho hr)))
    · exact exec_run rfl ((runActivationStep_step4 hd ha h4).trans (if_pos (digestFails ho hr)))
  case step5 => exact exec_run rfl (runActivationStep_step5 hd ha h5)
  case reverting => exact (healthFail_turns hk why ha).trans (if_pos hr)
  case turned => exact (healthFail_turns hk why ha).trans (if_neg (Bool.eq_false_iff.mp hr))
  case trialOver => exact exec_run rfl ((runTrialWindowExpiry_some he).trans (if_pos ht))
  case inTrial => exact exec_run rfl ((runTrialWindowExpiry_some he).trans (if_neg (Nat.not_le.mpr ht)))
  case noTrial => exact exec_run rfl (runTrialWindowExpiry_none he)
  case stale => exact exec_run rfl ((runStagingLockIdle_some hl).trans (if_pos ⟨hst, hi⟩))
  case touched =>
    refine exec_run rfl ((runStagingLockIdle_some hl).trans (if_neg fun ⟨hst, hi⟩ => ?_))
    exact h.elim (fun hn => hn hst) (Nat.not_lt.mpr hi)
  case noOffer => exact exec_run rfl (takesMgmt_offer.idle h)
  case offer => exact exec_run rfl (takesMgmt_offer.takes h)
  case noReply => exact exec_run rfl (takesMgmt_reply.idle h)
  case reply => exact exec_run rfl (takesMgmt_reply.takes h)
  case noPull => exact exec_run rfl (takesMgmt_pull.idle h)
  case pull => exact exec_run rfl (takesMgmt_pull.takes h)
  case noData => exact exec_run rfl (takesMgmt_data.idle h)
  case data => exact exec_run rfl (takesMgmt_data.takes h)
  case pulled => exact takePull_within hk ⟨h40, hw, hn⟩
  case notPulled =>
    refine takePull_beyond hk fun ⟨h40, hw, hn⟩ => ?_
    rcases h with hl | hb | hs
    · exact hl h40
    · exact Bool.eq_false_iff.mp hb hw
    · exact Nat.not_lt.mpr hn hs
  case resend => exact exec_run rfl (runFreshetPullResend_due hl hp he)
  case noResend => exact exec_run rfl (runFreshetPullResend_none he)
  case offerSent => exact exec_run rfl (runFreshetOfferSend_due ⟨ho, hd⟩)
  case offerHeld => exact exec_run rfl (runFreshetOfferSend_not h)

end Sys2Proof.Machine
end
